-- ==== Sys2Proof/Word.lean ====
section
/-! DEFINITION. The plain data every other file speaks of: bytes, 32-bit register words, byte strings, sparse tables. -/

namespace Sys2Proof

/-- One byte (R9: byte strings stand in the order of their standard, byte 0 first). -/
abbrev Byte := BitVec 8

/-- One register: all registers are 32 bits wide (chapter "Scope", Registers). -/
abbrev Word := BitVec 32

/-- A byte string, byte 0 first. -/
abbrev Bytes := List Byte

/-- A 16-byte block read as one number, byte 0 most significant (the order of the block-cipher standards). -/
abbrev Block128 := BitVec 128

/-- A sparse table: pairs of a number and an entry, numbers strictly rising. -/
abbrev Table (α : Type) := List (Nat × α)

end Sys2Proof
end

