-- ==== Sys2Proof/Syntax.lean ====
section
/-! DEFINITION. The commands of the block: one constructor of Instr per row of spec/opcode_table.json, and the operand types. -/

namespace Sys2Proof

/-- Why a device read of host memory failed (R201). -/
inductive CplFail where
  | poisoned | ur | ca | crs
  deriving DecidableEq, Repr

/-- A failed part of a device read: where in the bytes asked for, how many, and how. -/
structure ReadErr where
  off  : Nat
  len  : Nat
  kind : CplFail
  deriving DecidableEq, Repr

/-- What host memory returned for one device read: the bytes, and the parts that failed (R201). -/
structure HostData where
  data : Bytes
  errs : List ReadErr
  deriving DecidableEq, Repr

/-- The rate at which the link trained (R184). -/
inductive LinkRate where
  | gt16 | gt24 | gt32
  deriving DecidableEq, Repr

/-- The width of a module (R184, R206). -/
inductive LinkWidth where
  | none | x32 | x64
  deriving DecidableEq, Repr

/-- A host request that finds nothing to serve it (R201, R205), or a link error that the table of commands gives no row of its own: a flit corrected by
FEC or replay, and replay exhausted (R201). -/
inductive BadRequest where
  | unimplementedRange (fn off : Nat)
  | disabledVf (fn : Nat)
  | pf0BarInD3hot
  | unsupportedFeature (fn : Nat)
  | flitCorrected
  | replayExhausted
  deriving DecidableEq, Repr


/-- The units that take jobs, alarms and resets (R252 UNIT_RESET DETAIL, R401, R454). -/
inductive UnitId where
  | lane (n : Nat) | core (n : Nat) | pipe (n : Nat) | pkMod | pkLat | vault | rng
  deriving DecidableEq, Repr

/-- Where an engine alarm is raised (R21, R302, R318, R346, R372), and how many bytes of its output the running descriptor had issued. -/
inductive Alarm where
  | lane (n progress : Nat)
  | core (n progress : Nat)
  | pipe (n progress : Nat)
  | pkMod | pkLat
  /-- A vault slot whose CHECK fails when a descriptor reads it. -/
  | vaultSlot (slot job : Nat)
  /-- A fault on the vault port that names no slot, met by a descriptor. -/
  | vaultPort (job : Nat)
  | unwrap
  /-- The key derivation engine (R20), used by an HSM command. -/
  | keyDerive (job : Nat)
  | rng
  deriving DecidableEq, Repr

/-- What the power governor reads before a decision (R73, R460 to R462): Tj of each die in °C, VDD_CORE in mV, its canaries, and how
many lanes and cores it admits at most while Tj is 100 °C or more, a figure the spec does not give. -/
structure Sensors where
  tjLogic    : Int
  tjVault    : Int
  measured   : Nat
  canarySlow : Bool
  belowFloor : Bool
  maxLanes   : Nat
  maxCores   : Nat
  deriving DecidableEq, Repr

/-- A main supply (R63). -/
inductive Supply where
  | ana | core | ucie | io
  deriving DecidableEq, Repr

/-- What a main supply does (R63, R65, R67): it rises through 0.10 V, rises through its good threshold, crosses its falling threshold, falls below
0.10 V, or falls back by more than 50 mV while rising. -/
inductive Crossing where
  | starts | good | lost | empties | sagged
  deriving DecidableEq, Repr

/-- How the arbiter ordered a check-in that met a tick (R424): at the window opening or at the period end, which came first. -/
inductive WdgEdge where
  | none | openTickFirst | openCheckinFirst | endCheckinFirst | endTickFirst
  deriving DecidableEq, Repr

/-- How a request of the command server arrives: a monitor frame, unstuffed, CRC included (R491), or a Krazenal MCTP message after its code
(R178), with the bus address that it is sent to (R51). -/
inductive Via where
  | frame (body : Bytes) | mctp (target : Nat) (data : Bytes)
  deriving DecidableEq, Repr

/-- Bytes on a chip select of a flash port. -/
structure Extent where
  cs   : Nat
  off  : Nat
  data : Bytes
  deriving DecidableEq, Repr

/-- What SFDP says of a chip select (R125, R126, R170): its size as log2 of MiB, whether it has 1S-4S-4S and 8D-8D-8D, its page size, whether it
erases 4 KiB and 64 KiB, whether it suspends. -/
structure SfdpView where
  sizeLog  : Nat
  quad     : Bool
  octal    : Bool
  page     : Nat
  erase4K  : Bool
  erase64K : Bool
  suspend  : Bool
  deriving DecidableEq, Repr

/-- A flash port as the device meets it at a command: what SFDP says of each chip select (nothing when none answers), the bytes it holds (0xFF
where none is listed, a later extent over an earlier one), ranges whose reads fail (chip select, offset, length), and the record appends in a row that
fail, each with the bytes of its frame after which a program or an erase failed (6,144 or more: the readback differs; R171). For a marker, any entry is
a failure. -/
structure PortView where
  cs0     : Option SfdpView
  cs1     : Option SfdpView
  extents : List Extent
  bad     : List (Nat × Nat × Nat)
  fails   : List Nat
  deriving DecidableEq, Repr

/-- Both flash ports. -/
structure FlashView where
  fla : PortView
  flb : PortView
  deriving DecidableEq, Repr

/-- A part of a Thaw bundle as it arrives: its request, and the ports to which its images go. -/
structure ThawPart where
  via   : Via
  flash : FlashView
  deriving DecidableEq, Repr

/-- What ROM meets at its entry: the straps as read and which bits were unstable (R50), how often each known-answer test fails (in the order of R98 step 5), the flash ports, the BBRAM commits of this boot whose data and whose control word read back wrong
(R275, by their number), and the life-cycle fuses that read 1 but not at a tightened margin (R81). -/
structure BootEnv where
  straps   : Nat
  unstable : Nat
  kat      : List Nat
  flash    : FlashView
  bbramBad : List Nat
  ctlBad   : List Nat
  weak     : List Nat
  deriving DecidableEq, Repr

/-- How an SPDM message reaches the responder (R179, R195): over MCTP, to a bus address (R51), over DOE in the clear, or in a record of a secured
session over DOE, the record given without the session number in its front. -/
inductive SpdmVia where
  | mctp (target : Nat) | doe | session (sid : Nat)
  deriving DecidableEq, Repr

/-- Where a register write goes: BAR0 of a function, or its configuration space. -/
inductive RegSpace where
  | bar0 | config
  deriving DecidableEq, Repr

/-- What a register write brings beside its first word: the bits at which a hardware set meets the write (R12), and the upper word of a 64-bit write (R14)
with its own. -/
structure WriteRest where
  recur : Word
  high  : Option (Word × Word)
  deriving DecidableEq, Repr

/-- A register read: the function, its space, the offset, and whether it takes 64 bits. -/
structure RegRead where
  fn    : Nat
  space : RegSpace
  off   : Nat
  wide  : Bool
  deriving DecidableEq, Repr
/-- The commands of the block: one constructor per row of the table of operations and events. -/
inductive Instr where
  /-- SUPPLY_THRESHOLD_CROSSING (R63): A main supply crosses its power-good threshold or its 0.10 V start comparator, and the detectors and the ordering monitor respond -/
  | supplyThresholdCrossing (supply : Supply) (crossing : Crossing)
  /-- POWER_GOOD_FALL (R64): Internal power-good falls and the device enters STATE RESET as a power-on reset -/
  | powerGoodFall
  /-- ROM_ENTRY (R98): Internal power-good has been high for 100 µs, or a chip reset ends, so STATE goes to ROM and ROM starts its step sequence -/
  | romEntry (env : BootEnv)
  /-- HOST_RELEASE (R199): At step K6 the keeper releases HOST_RST_N and the sideband reset once effective host power-good is 1, and it arms WDG_P -/
  | hostRelease
  /-- SYS_RST_N_RECOGNISED (R49): The device recognises a SYS_RST_N low pulse and starts a chip reset -/
  | sysRstNRecognised
  /-- SYS_RST_N_RISE (R49): SYS_RST_N rises and the chip reset it started ends -/
  | sysRstNRise
  /-- VBAT_LOW (R71): VBAT falls below 2.5 V (or 2.4 V without VDD_ANA), so the device sets VBAT_LOW, records the excursion or treats it as VBAT loss -/
  | vbatLow (mv : Nat)
  /-- SFDP_TIMEOUT (R102): A chip select gives no SFDP response within 1 ms, so it is absent or the source fails discovery -/
  | sfdpTimeout (flash : FlashView)
  /-- FLASH_OP_COMPLETE (R128): A flash operation on a port ends, and the port takes the next pending operation by rank -/
  | flashOpComplete (port : Nat) (data : Bytes) (ok : Bool)
  /-- LISTEN_WINDOW_EXPIRY (R102): A 200 ms Thaw listen window ends without an offer, so the walk records NO_OFFER and moves on -/
  | listenWindowExpiry (flash : FlashView)
  /-- THAW_OFFER (R121): A Thaw offer frame is answered READY or BUSY, and entering THAW when it arrives in a listen window -/
  | thawOffer (via : Via) (flash : FlashView)
  /-- THAW_CHUNK (R121): A Thaw chunk is accepted at the expected offset or dropped as OUT_OF_ORDER -/
  | thawChunk (part : ThawPart)
  /-- THAW_END (R122): The offered bundle is judged, and accepted images are written and activated -/
  | thawEnd (via : Via) (flash : FlashView)
  /-- THAW_STATUS (R121): The device returns STATE, THAW_REASON, BOOT_STATUS and the last outcome -/
  | thawStatus (via : Via)
  /-- THAW_OFFER_TIMEOUT (R122): 60 s pass without a chunk, so the device abandons the offer and zeroes staging -/
  | thawOfferTimeout
  /-- ROOT_REVOKE (R112): The HSM command programs the REVOKED bit of a root-key entry, unless doing so would strand a class -/
  | rootRevoke (job : Nat)
  /-- BOOT_ACTIVATE (R119): The HSM command verifies the inactive slot and programs its activation marker with the next SEQ -/
  | bootActivate (job : Nat) (flash : FlashView)
  /-- LCS_GET_NONCE (R89): The HSM command returns a fresh 32-byte token nonce that replaces any earlier one -/
  | lcsGetNonce (job : Nat)
  /-- LCS_ADVANCE (R85): The HSM command checks the authorisation for a life-cycle transition and stops fetching on every SQ -/
  | lcsAdvance (job : Nat)
  /-- LCS_DRAIN_COMPLETE (R85): Descriptors fetched before an LCS_ADVANCE have completed, so the keeper programs and verifies the groups and writes the completion -/
  | lcsDrainComplete (took : Nat)
  /-- TRANSITION_RESET (R85): 1 ms after a successful LCS_ADVANCE completion, the device starts a transition chip reset -/
  | transitionReset
  /-- TOKEN_ROOT_REVOKE (R92): The HSM command revokes a token-root entry under a RETIRE-kind token -/
  | tokenRootRevoke (job : Nat)
  /-- OTP_PROGRAM (R93): The HSM command programs an OTP field in the states that the OTP map permits -/
  | otpProgram (job : Nat)
  /-- NONCE_EXPIRY (R89): 600 s after LCS_GET_NONCE, the outstanding token nonce is discarded -/
  | nonceExpiry
  /-- HOST_BOOT_WINDOW_READ (R140): A host memory read of BAR2 is judged by the filter and served from the verified cache or a ledger-checked fill -/
  | hostBootWindowRead (off : Nat) (len : Nat)
  /-- BOOT_WINDOW_WRITE (R144): A write to BAR2 is discarded and counted in FLT_REFUSE_COUNT -/
  | bootWindowWrite (off : Nat)
  /-- MBX_READ (R145): FLT_MBX_CTRL.GO with CMD READ reads flash into the mailbox buffer through the filter -/
  | mbxRead (value : Word)
  /-- MBX_PROGRAM (R145): FLT_MBX_CTRL.GO with CMD PROGRAM programs the buffer to flash, split at page boundaries -/
  | mbxProgram (value : Word)
  /-- MBX_ERASE_4K (R145): FLT_MBX_CTRL.GO with CMD ERASE_4K erases one 4 KiB block -/
  | mbxErase4K (value : Word)
  /-- MBX_ERASE_64K (R145): FLT_MBX_CTRL.GO with CMD ERASE_64K erases one 64 KiB block -/
  | mbxErase64K (value : Word)
  /-- SPIT_READ (R149): A SPIT read command is served from the image or direct part through the filter and cache -/
  | spitRead (op : Byte) (octal : Bool) (addr : Nat) (n : Nat)
  /-- SPIT_PROGRAM (R146): A SPIT program command is judged and queued to flash at rank 5, or refused with a program error -/
  | spitProgram (op : Byte) (addr : Nat) (data : Bytes)
  /-- SPIT_ERASE (R146): A SPIT erase command is judged and queued to flash, or refused -/
  | spitErase (op : Byte) (addr : Nat)
  /-- SPIT_READ_STATUS (R150): A SPIT status read (0x05) returns busy and the pending alert cause, and releases SPIT_ALERT_N -/
  | spitReadStatus (op : Byte)
  /-- SPIT_WRITE_ENABLE (R146): The device answers a SPIT write-enable command itself -/
  | spitWriteEnable (op : Byte)
  /-- SPIT_WRITE_DISABLE (R146): The device answers a SPIT write-disable command itself -/
  | spitWriteDisable (op : Byte)
  /-- SPIT_READ_SFDP (R146): The device returns its own SFDP table for the SPIT window -/
  | spitReadSfdp (op : Byte) (addr : Nat) (n : Nat)
  /-- SPIT_READ_ID (R146): The device returns its ID bytes 0x7F 0x4A 0x48 -/
  | spitReadId (op : Byte)
  /-- SPIT_RESET (R146): The device answers the SPIT reset-enable and reset commands itself -/
  | spitReset (op : Byte)
  /-- SPIT_OPCODE_REFUSED (R147): A SPIT opcode that is not on the allow-list gets no data drive, asserts SPIT_ALERT_N and is counted -/
  | spitOpcodeRefused (op : Byte)
  /-- GET_RECORD (R175): The HSM command returns a Solstice record from the retained region or the ring -/
  | getRecord (job : Nat) (flash : FlashView)
  /-- GET_CERT (R175): The HSM command returns a certificate, or the whole chain, in DER -/
  | getCert (job : Nat)
  /-- ATTEST (R176): The HSM command returns a signed attestation statement over the caller's nonce -/
  | attest (job : Nat)
  /-- RECORD_GET (R178): The Krazenal MCTP command returns a Solstice record -/
  | recordGet (via : Via) (flash : FlashView)
  /-- CERT_GET (R178): The Krazenal MCTP command returns certificates -/
  | certGet (via : Via)
  /-- MCTP_ATTEST (R178): The Krazenal MCTP ATTEST command (0x12) returns a statement with requester claim 0xFFFF -/
  | mctpAttest (via : Via)
  /-- HARVEST_GET (R445): The MCTP command returns a new Harvest or the Solstice copy -/
  | harvestGet (via : Via)
  /-- GET_VERSION (R179): SPDM request answered with version 1.3 -/
  | getVersion (via : SpdmVia) (req : Bytes)
  /-- GET_CAPABILITIES (R179): SPDM request answered with the supported capabilities -/
  | getCapabilities (via : SpdmVia) (req : Bytes)
  /-- NEGOTIATE_ALGORITHMS (R179): SPDM request answered with the P-384 and SHA-384 selections -/
  | negotiateAlgorithms (via : SpdmVia) (req : Bytes)
  /-- GET_DIGESTS (R179): SPDM request answered with the digest of certificate slot 0 -/
  | getDigests (via : SpdmVia) (req : Bytes)
  /-- GET_CERTIFICATE (R179): SPDM request answered with the ECDSA chain -/
  | getCertificate (via : SpdmVia) (req : Bytes)
  /-- CHALLENGE (R181): SPDM challenge answered with a signature by the Alias key, or with Busy before the first record exists -/
  | challenge (via : SpdmVia) (req : Bytes)
  /-- GET_MEASUREMENTS (R180): SPDM request answered with measurement blocks taken from the newest record -/
  | getMeasurements (via : SpdmVia) (req : Bytes)
  /-- SPDM_UNSUPPORTED_REQUEST (R179): An SPDM request outside the supported set gets an SPDM error -/
  | spdmUnsupportedRequest (via : SpdmVia) (req : Bytes)
  /-- KEY_EXCHANGE (R195): Over DOE, the responder opens a secured SPDM session by ECDHE P-384, or answers Busy when four sessions are open -/
  | keyExchange (via : SpdmVia) (req : Bytes)
  /-- FINISH (R195): Over DOE, the responder completes a secured session handshake -/
  | finish (via : SpdmVia) (req : Bytes)
  /-- END_SESSION (R195): Over DOE, the responder ends a secured SPDM session -/
  | endSession (via : SpdmVia) (req : Bytes)
  /-- GET_TDISP_VERSION (R195): TDISP request answered inside a secured session -/
  | getTdispVersion (sid : Nat) (record : Bytes)
  /-- GET_TDISP_CAPABILITIES (R195): TDISP request answered with the device's capabilities -/
  | getTdispCapabilities (sid : Nat) (record : Bytes)
  /-- LOCK_INTERFACE_REQUEST (R196): TDISP request freezes a VF's configuration and moves its TDI to CONFIG_LOCKED -/
  | lockInterfaceRequest (sid : Nat) (record : Bytes)
  /-- GET_DEVICE_INTERFACE_REPORT (R195): TDISP request returns the interface report of the VF's TEE-owned ranges -/
  | getDeviceInterfaceReport (sid : Nat) (record : Bytes)
  /-- GET_DEVICE_INTERFACE_STATE (R195): TDISP request returns the TDI state -/
  | getDeviceInterfaceState (sid : Nat) (record : Bytes)
  /-- START_INTERFACE_REQUEST (R196): TDISP request moves a locked TDI to RUN, so the VF's requests run in world 1 -/
  | startInterfaceRequest (sid : Nat) (record : Bytes)
  /-- STOP_INTERFACE_REQUEST (R196): TDISP request ends the VF's queues as for a function-level reset and returns the TDI to CONFIG_UNLOCKED -/
  | stopInterfaceRequest (sid : Nat) (record : Bytes)
  /-- TDI_CONFIG_VIOLATION (R196): A write to a locked VF's BAR, Command or MSI-X control, or to PF0's SR-IOV controls, a Bus Master Enable clear, or D3hot moves the TDI to ERROR and ends its queues -/
  | tdiConfigViolation (fn : Nat)
  /-- LINK_TRAINED (R184): Link training or a retrain ends with the link up at the chosen rate, widths and modules, and any pending FROZEN completions and owed messages are sent -/
  | linkTrained (rate : LinkRate) (w0 : LinkWidth) (w1 : LinkWidth) (repaired : Nat)
  /-- MODULE_TRAIN_TIMEOUT (R184): A module does not train within 20 ms and is left out of the link -/
  | moduleTrainTimeout (m : Nat)
  /-- RETRAIN (R185): A retrain starts within DL_Up, so the device holds its traffic and keeps all queue state -/
  | retrain
  /-- DL_DOWN (R185): The link goes to DL_Down, which is a link reset of every function -/
  | dlDown
  /-- REFCLK_LOSS (R515): Loss of UCIE_REFCLK is detected within 10 µs and takes the link to DL_Down -/
  | refclkLoss
  /-- HOT_RESET (R203): A hot reset deletes every function's queues and returns configuration space to reset values -/
  | hotReset
  /-- VF_FUNCTION_LEVEL_RESET (R203): A VF function-level reset stops its DMA, deletes its queues, returns its pools and resets its TDI and MSI-X state -/
  | vfFunctionLevelReset (fn : Nat)
  /-- PF0_FUNCTION_LEVEL_RESET (R203): A PF0 function-level reset acts on every function and clears VF Enable -/
  | pf0FunctionLevelReset
  /-- VF_ENABLE_CLEAR (R188): Clearing VF Enable is a function-level reset of every VF -/
  | vfEnableClear
  /-- BUS_MASTER_ENABLE_CLEAR (R203): A function's in-flight descriptors halt with their pools held, and it issues no new requests -/
  | busMasterEnableClear (fn : Nat)
  /-- BUS_MASTER_ENABLE_SET (R203): Halted work of the function resumes -/
  | busMasterEnableSet (fn : Nat)
  /-- D3HOT_ENTRY (R203): A function enters D3hot: it halts as for a Bus Master Enable clear, and its BAR accesses get Unsupported Request -/
  | d3hotEntry (fn : Nat)
  /-- D0_ENTRY (R203): A function returns to D0 and its work resumes -/
  | d0Entry (fn : Nat)
  /-- HOST_READ_COMPLETION (R201): A completion for a device read of host memory arrives successful, poisoned or with UR, CA or CRS, and the waiting descriptor, table, blob, data or check-read use proceeds -/
  | hostReadCompletion (tag : Nat) (res : HostData) (progress : Nat)
  /-- COMPLETION_TIMEOUT (R201): A device read gets no completion within the timeout, so the descriptor gets DATA_FETCH_ERROR -/
  | completionTimeout (tag : Nat) (got : Bytes) (progress : Nat)
  /-- UNSUPPORTED_REQUEST (R201): A request to an unimplemented BAR range, a disabled VF or a PF0 BAR in D3hot gets an Unsupported Request completion -/
  | unsupportedRequest (req : BadRequest) (posted : Bool)
  /-- POISONED_BAR_WRITE (R201): A poisoned write to a BAR is dropped and reported as advisory -/
  | poisonedBarWrite (fn : Nat)
  /-- BAD_WIDTH_ACCESS (R14): A register access of wrong width or alignment: writes are ignored, reads return all ones, and the access is counted in DEV_BAD_ACCESS -/
  | badWidthAccess (fn : Nat) (isWrite : Bool) (off : Nat) (len : Nat)
  /-- HOST_PWRGD_MSG (R198): A HOST_PWRGD sideband message from the host die updates effective host power-good -/
  | hostPwrgdMsg (good : Bool)
  /-- HOST_PWRGD_PIN_CHANGE (R199): The HOST_PWRGD ball changes and, with STRAP_HPG 1, changes effective host power-good -/
  | hostPwrgdPinChange (level : Bool)
  /-- HOST_PWRGD_FALL (R200): Effective host power-good falls in SERVICE, so the device asserts host reset within 1 µs and the link goes down -/
  | hostPwrgdFall
  /-- HOST_PWRGD_STABLE (R200): Power-good has been back at 1 for 1 ms, so the device releases the host reset again -/
  | hostPwrgdStable
  /-- SIDEBAND_ACK (R198): An ACK from the host die acknowledges a HOST_RESET message -/
  | sidebandAck (value : Bool)
  /-- HOST_RESET_RESEND (R198): An unacknowledged HOST_RESET is resent after 100 µs, with HS_NO_ACK set and the resend counted -/
  | hostResetResend
  /-- MSIX_UNMASK (R193): Unmasking a vector with its pending bit set sends one merged message and clears the bit -/
  | msixUnmask (fn : Nat) (vec : Nat)
  /-- SQ_DOORBELL (R212): A write to Q_SQ_TAIL is accepted as the new tail, refused as DOORBELL_OVERRUN, or ignored -/
  | sqDoorbell (fn : Nat) (page : Nat) (value : Word)
  /-- CQ_HEAD_WRITE (R216): A write to Q_CQ_HEAD releases completion entries and their credits, or is ignored with HEAD_INVALID set -/
  | cqHeadWrite (fn : Nat) (page : Nat) (value : Word)
  /-- DESCRIPTOR_FETCH (R213): Arbitration picks an SQ that has credits, and the device reserves credits and reads up to eight descriptors -/
  | descriptorFetch
  /-- DRAIN_ENTRY (R223): For an unread descriptor of a DRAINING SQ, the device reserves a credit, reads the CMD_ID and writes a QUEUE_DISABLED or DOORBELL_OVERRUN entry -/
  | drainEntry (dqn : Nat)
  /-- ADMIN_ENABLE (R235): A write of 1 to Q_ADMIN_CTRL.ENABLE creates PF0's admin pair or sets CFG_ERROR -/
  | adminEnable
  /-- CREATE_SQ (R219): Admin command that creates an SQ bound to a CQ with its minimum credits -/
  | createSq (job : Nat)
  /-- CREATE_CQ (R225): Admin command that creates a CQ with its vector -/
  | createCq (job : Nat)
  /-- DISABLE_SQ (R223): Admin command that stops reading an SQ and moves it to DRAINING -/
  | disableSq (job : Nat)
  /-- DELETE_SQ (R223): Admin command that frees a DISABLED SQ and turns its held credits into orphans -/
  | deleteSq (job : Nat)
  /-- DELETE_CQ (R225): Admin command that frees a CQ with no bound SQ -/
  | deleteCq (job : Nat)
  /-- QUERY_QUEUE (R230): Admin command that writes a 32-byte queue report to DST -/
  | queryQueue (job : Nat)
  /-- SET_WEIGHT (R227): Admin command that sets an SQ's weight from its next turn -/
  | setWeight (job : Nat)
  /-- GET_HARVEST (R444): Admin command that writes a Harvest to DST -/
  | getHarvest (job : Nat)
  /-- SET_POWER_CAP (R227): Admin command that sets PWR_CAP and the preference, then triggers a governor decision -/
  | setPowerCap (job : Nat)
  /-- FENCE_ALL (R227): Admin command that completes once every descriptor the function had already read has completed -/
  | fenceAll (job : Nat)
  /-- XTS_ENC (R306): Descriptor that encrypts data units in XTS-AES-256 on a stream lane -/
  | xtsEnc (job : Nat)
  /-- XTS_DEC (R306): Descriptor that decrypts data units in XTS-AES-256 on a stream lane -/
  | xtsDec (job : Nat)
  /-- GCM_ENC (R327): Session descriptor or message part that encrypts in GCM -/
  | gcmEnc (job : Nat)
  /-- GCM_DEC (R339): Session descriptor or message part that decrypts in GCM under its failure mode -/
  | gcmDec (job : Nat)
  /-- CCM_ENC (R327): One-descriptor message that encrypts in CCM -/
  | ccmEnc (job : Nat)
  /-- CCM_DEC (R339): One-descriptor message that decrypts in CCM -/
  | ccmDec (job : Nat)
  /-- CHACHA_POLY_ENC (R327): Session descriptor or part that encrypts in ChaCha20-Poly1305 -/
  | chachaPolyEnc (job : Nat)
  /-- CHACHA_POLY_DEC (R339): Session descriptor or part that decrypts in ChaCha20-Poly1305 -/
  | chachaPolyDec (job : Nat)
  /-- CTR (R327): Session descriptor or part that runs CTR mode -/
  | ctr (job : Nat)
  /-- CBC_ENC (R327): Session descriptor or part that encrypts in CBC, with padding on the last part -/
  | cbcEnc (job : Nat)
  /-- CBC_DEC (R329): Session descriptor or part that decrypts in CBC and checks padding on the last part -/
  | cbcDec (job : Nat)
  /-- CMAC (R327): Session descriptor or part that computes a CMAC tag -/
  | cmac (job : Nat)
  /-- DIGEST (R354): Descriptor that hashes the source on a digest pipeline and writes the result -/
  | digest (job : Nat)
  /-- HMAC (R353): Descriptor that computes an HMAC with a context or a caller-supplied key -/
  | hmac (job : Nat)
  /-- KMAC (R352): Descriptor that computes a KMAC with a customization string -/
  | kmac (job : Nat)
  /-- DIGEST_COMPARE (R356): Descriptor that computes a digest or MAC and compares it in constant time with an expected value -/
  | digestCompare (job : Nat)
  /-- CTX_LOAD (R297): Descriptor that resolves or loads a context and returns its current handle -/
  | ctxLoad (job : Nat)
  /-- UNWRAP_DONE (R292): The unwrap engine finishes a blob's tag check, and the slot becomes RESIDENT or FREE -/
  | unwrapDone (job : Nat)
  /-- CTX_EVICT (R297): Descriptor that evicts a context, or moves it to EVICTING while it is in use -/
  | ctxEvict (job : Nat)
  /-- CONTEXT_USE_END (R289): The last use of an EVICTING context ends, so its slot goes FREE and a waiting CTX_EVICT completes -/
  | contextUseEnd (slot : Nat)
  /-- CTX_PIN (R297): Descriptor that sets PINNED on a context -/
  | ctxPin (job : Nat)
  /-- CTX_UNPIN (R297): Descriptor that clears PINNED on a context -/
  | ctxUnpin (job : Nat)
  /-- RNG_FILL (R371): Descriptor that writes DRBG instance 0 output to DST -/
  | rngFill (job : Nat)
  /-- FENCE (R239): Descriptor that completes with SUCCESS once every earlier descriptor of its SQ has completed -/
  | fence (job : Nat)
  /-- NOP (R239): Descriptor that completes with SUCCESS -/
  | nop (job : Nat)
  /-- LANE_ASSIGN (R311): A lane becomes eligible, and the dispatcher gives it the oldest pending XTS descriptor -/
  | laneAssign
  /-- KEY_BANK_IDLE_EXPIRY (R312): A lane key bank unused for 1 ms is erased -/
  | keyBankIdleExpiry (lane : Nat) (spare : Bool)
  /-- STE_LANE_FENCE_WRITE (R317): A write to STE_LANE_CTRL.FENCE fences or unfences lanes and returns assigned descriptors to the pending list -/
  | steLaneFenceWrite (value : Word)
  /-- SESSION_DISPATCH (R323): A core becomes eligible or a bound core frees, and the scheduler places the next session part -/
  | sessionDispatch
  /-- SESSION_PART_DONE (R335): A session part ends on its core, its completion is written, and its message moves to BOUND or NONE -/
  | sessionPartDone (core : Nat)
  /-- PARK_TIMEOUT (R336): SCE_PARK_TIMEOUT passes without the next part, so the BOUND message is parked -/
  | parkTimeout (core : Nat)
  /-- PENDING_PARK (R336): A descriptor has waited 2 µs with no eligible core, so the longest-waiting BOUND message is parked -/
  | pendingPark
  /-- MESSAGE_ABANDON (R337): SCE_ABANDON_TIMEOUT passes, so the message is zeroed, its resources are returned and a tombstone is made -/
  | messageAbandon (dqn : Nat) (msgId : Nat)
  /-- HOLD_WAIT_TIMEOUT (R341): A part that waits for staging longer than the abandon timeout ends its message with HOLD_LIMIT -/
  | holdWaitTimeout (job : Nat)
  /-- CORE_KEY_IDLE_EXPIRY (R322): A core key register unused for 1 ms with no message bound is erased -/
  | coreKeyIdleExpiry (core : Nat)
  /-- SCE_CORE_FENCE_WRITE (R324): A write to SCE_CORE_FENCE0 or SCE_CORE_FENCE1 fences or unfences session cores -/
  | sceCoreFenceWrite (k : Nat) (value : Word)
  /-- SCE_PARK_TIMEOUT_WRITE (R349): A write sets the park timeout, taking 0 as 1 -/
  | sceParkTimeoutWrite (value : Word)
  /-- SCE_ABANDON_TIMEOUT_WRITE (R349): A write sets the abandon timeout, clamped and combined with the park timeout -/
  | sceAbandonTimeoutWrite (value : Word)
  /-- DGE_RM_START (R358): DGE_RM_CTRL.START starts a register-mode digest or sets ERROR -/
  | dgeRmStart (leg : Bool) (value : Word)
  /-- DGE_RM_DATA_WRITE (R358): A message word written to DGE_RM_DATA is absorbed, or ERROR is set -/
  | dgeRmDataWrite (leg : Bool) (value : Word)
  /-- DGE_RM_FINAL (R358): DGE_RM_CTRL.FINAL ends the register-mode message with TAIL bytes -/
  | dgeRmFinal (leg : Bool) (value : Word)
  /-- DGE_RM_ABORT (R374): DGE_RM_CTRL.ABORT discards the register-mode state and results -/
  | dgeRmAbort (leg : Bool) (value : Word)
  /-- RM_DIGEST_DONE (R358): The register-mode result is ready and DONE sets -/
  | rmDigestDone
  /-- DGE_RM_RESULT_READ (R359): A read of a result register while DONE is 0 returns 0 and sets EARLY_READ -/
  | dgeRmResultRead (leg : Bool) (n : Nat)
  /-- PK_PUBLIC (R364): HSM command that returns the public key of an asymmetric blob -/
  | pkPublic (job : Nat)
  /-- PK_SIGN (R364): HSM command that signs with a blob and verifies the signature before releasing it -/
  | pkSign (job : Nat)
  /-- PK_VERIFY (R366): HSM command that verifies a signature and returns 1 or 0 -/
  | pkVerify (job : Nat)
  /-- PK_AGREE (R364): HSM command that runs ECDH and returns the secret as a derivation-key blob -/
  | pkAgree (job : Nat)
  /-- KEM_ENCAP (R364): HSM command that encapsulates to ek and returns ct and a blob -/
  | kemEncap (job : Nat)
  /-- KEM_DECAP (R366): HSM command that decapsulates ct with a blob, with implicit rejection -/
  | kemDecap (job : Nat)
  /-- PKE_JOB_DONE (R360): A public-key unit finishes a job and takes the next job by class priority -/
  | pkeJobDone (unit : UnitId)
  /-- RNG_STARTUP_DONE (R369): The startup tests pass, both DRBG instances are instantiated, and waiting consumers and the vault key draw proceed -/
  | rngStartupDone (pass : Bool)
  /-- RNG_HEALTH_FAIL (R372): A continuous health test fails: the input is discarded and the source restarts, or an alarm is raised on the third failure -/
  | rngHealthFail (proportion : Bool)
  /-- RNG_RESEED_TIMER (R370): 60 s of the seconds count pass, so an in-use DRBG instance reseeds -/
  | rngReseedTimer (inst1 : Bool)
  /-- RNG_CONSUMER_TIMEOUT (R372): Consumers that wait 10 ms for the random source's self-test complete with ENGINE_ALARM -/
  | rngConsumerTimeout (job : Nat)
  /-- RNG_RAW_READ (R374): A read of RNG_RAW in BLANK or TEST returns the next 32 raw bits -/
  | rngRawRead
  /-- KEY_GENERATE (R279): HSM command that generates a key and returns its blob -/
  | keyGenerate (job : Nat)
  /-- KEY_DERIVE (R530): HSM command that derives a child blob from a parent blob or slot -/
  | keyDerive (job : Nat)
  /-- IMPORT_SESSION (R280): HSM command that opens an import session with ephemeral ML-KEM and ECDH keys -/
  | importSession (job : Nat)
  /-- IMPORT_SESSION_EXPIRY (R280): 600 s pass, so the import session's ephemeral private keys are erased -/
  | importSessionExpiry
  /-- IMPORT_BLOB_CLEAR (R280): HSM command that imports a transport-enveloped key as a blob -/
  | importBlobClear (job : Nat)
  /-- IMPORT_SLOT_CLEAR (R280): HSM command that imports a transport-enveloped key into a key slot -/
  | importSlotClear (job : Nat)
  /-- SLOT_GENERATE (R279): HSM command that generates a key into a key slot under quorum -/
  | slotGenerate (job : Nat)
  /-- SLOT_ERASE (R279): HSM command that erases a key slot -/
  | slotErase (job : Nat)
  /-- SLOT_STATUS (R530): HSM command that returns a slot's state, GEN and ATTR -/
  | slotStatus (job : Nat)
  /-- KEYBLOCK_IMPORT (R281): HSM command that imports an X9.143 key block as a blob -/
  | keyblockImport (job : Nat)
  /-- KEYBLOCK_EXPORT (R281): HSM command that exports an exportable blob as an X9.143 key block -/
  | keyblockExport (job : Nat)
  /-- KWP_EXPORT (R279): HSM command that exports an exportable blob as an RFC 5649 wrapping -/
  | kwpExport (job : Nat)
  /-- BLOB_REWRAP (R394): HSM command that rewraps a blob under the current epoch -/
  | blobRewrap (job : Nat)
  /-- EQX_OPEN (R383): HSM command that opens an Equinox session and writes its TBS -/
  | eqxOpen (job : Nat)
  /-- EQX_APPROVE (R385): HSM command that counts an officer's hybrid-signed approval -/
  | eqxApprove (job : Nat)
  /-- EQX_STATUS (R378): HSM command that returns a session's state, approval mask and time to expiry -/
  | eqxStatus (job : Nat)
  /-- EQX_CLOSE (R386): HSM command that erases a session -/
  | eqxClose (job : Nat)
  /-- SESSION_EXPIRY (R386): An Equinox session reaches EXPIRY and is erased -/
  | sessionExpiry (sid : Nat)
  /-- OWNER_CREATE (R381): HSM command that adds an owner record to the registry -/
  | ownerCreate (job : Nat)
  /-- OWNER_UPDATE (R381): HSM command that replaces an owner record -/
  | ownerUpdate (job : Nat)
  /-- OWNER_DELETE (R381): HSM command that replaces an owner record with a tombstone -/
  | ownerDelete (job : Nat)
  /-- FN_BIND (R382): HSM command that binds a VF to an owner -/
  | fnBind (job : Nat)
  /-- FN_UNBIND (R382): HSM command that removes a VF binding -/
  | fnUnbind (job : Nat)
  /-- DOMAIN_CREATE (R393): HSM command that creates a key domain with a fresh root at epoch 1 -/
  | domainCreate (job : Nat)
  /-- DOMAIN_OFFER (R389): HSM command that issues a signed join or sync offer -/
  | domainOffer (job : Nat)
  /-- OFFER_EXPIRY (R389): 600 s pass, so the offer's private keys are erased -/
  | offerExpiry
  /-- DOMAIN_SPONSOR (R390): HSM command that builds a join package for a joiner's offer -/
  | domainSponsor (job : Nat)
  /-- DOMAIN_JOIN (R390): HSM command that adopts a domain from a join package -/
  | domainJoin (job : Nat)
  /-- DOMAIN_SEND (R391): HSM command that answers a sync offer with a package -/
  | domainSend (job : Nat)
  /-- DOMAIN_RECEIVE (R391): HSM command that applies a sync package's epochs and revocation bitmap -/
  | domainReceive (job : Nat)
  /-- DOMAIN_ROTATE (R393): HSM command that moves the domain to a new epoch with a fresh root -/
  | domainRotate (job : Nat)
  /-- DOMAIN_RETIRE (R393): HSM command that retires the previous epoch -/
  | domainRetire (job : Nat)
  /-- DOMAIN_REVOKE (R393): HSM command that sets a member's bit in the revocation bitmap -/
  | domainRevoke (job : Nat)
  /-- DOMAIN_LEAVE (R393): HSM command that returns the device to its local domain -/
  | domainLeave (job : Nat)
  /-- HARVEST_CLEAR (R448): HSM command that clears the event-recorder cells in index order -/
  | harvestClear (job : Nat)
  /-- DEBUG_UNLOCK (R497): Monitor HSM command that checks a debug token, sets KEYS_LOCKED, commits the unlock flag and opens debug commands -/
  | debugUnlock (job : Nat)
  /-- UPDATE_KEEPER (R468): HSM command that copies and judges the new keeper image and stops starting HSM commands -/
  | updateKeeper (job : Nat) (flash : FlashView)
  /-- UPDATE_KEEPER_SWITCH (R468): Once commands in flight have ended, the keeper image is switched and new Alias keys are derived -/
  | updateKeeperSwitch (flash : FlashView)
  /-- TAMPER_TRIGGER (R404): A tamper trigger qualifies, so the Frost latch sets and the Frost sequence starts, or only BBRAM is zeroed when power-good is low -/
  | tamperTrigger (trigger : Nat)
  /-- TMP_CFG_APPLY (R400): In PROVISION, a write of 1 to APPLY copies TMP_CFG_REQ into TMP_CFG -/
  | tmpCfgApply (value : Word)
  /-- FROST_STATUS (R409): Release command that returns the Frost causes, time, count and RELEASE_DIGEST -/
  | frostStatus (via : Via)
  /-- FROST_NONCE (R409): Release command that returns a fresh release nonce -/
  | frostNonce (via : Via)
  /-- FROST_NONCE_EXPIRY (R409): The release nonce expires after 600 s -/
  | frostNonceExpiry
  /-- FROST_RELEASE (R413): Release command that checks a release block and clears the Frost latch -/
  | frostRelease (via : Via)
  /-- FROST_RELEASE_RESET (R413): 1 ms after RELEASED, ROM starts a firmware warm chip reset -/
  | frostReleaseReset
  /-- ENGINE_ALARM (R21): A unit presents an invalid dual-rail code or fails a consistency check, so its keys are erased, its job completes with ENGINE_ALARM and it self-tests -/
  | engineAlarm (alarm : Alarm)
  /-- UNIT_SELF_TEST_DONE (R458): A unit's self-test ends: the unit returns to service, repeats the test, or becomes FAILED after three failures -/
  | unitSelfTestDone (unit : UnitId) (pass : Bool)
  /-- UNIT_RESET (R459): PWR_UNIT_CTRL.GO starts a host unit reset under quiesce, or refuses it -/
  | unitReset (value : Word)
  /-- QUIESCE_ACK (R455): A quiescing unit has answered all its requests and acknowledges, so the pool sums are checked and the unit is reset or powered down -/
  | quiesceAck (unit : UnitId) (progress : Nat)
  /-- GOVERNOR_DECISION (R461): Every 1 ms, or at once after a trigger, the power governor chooses admission and VDD_CORE and starts the withdrawals -/
  | governorDecision (sensors : Sensors)
  /-- AVS_ACK (R464): The regulator acknowledges an AVSBus request, so the next voltage step or unit admission follows -/
  | avsAck (measured : Nat)
  /-- AVS_FAULT (R465): A missing AVSBus acknowledgement, an AVSBus error or a voltage mismatch sets AVS_FAULT and stops voltage requests -/
  | avsFault (sensors : Sensors)
  /-- WDG_CFG_WRITE (R417): The first write to WDG_CFG arms the instance with its PERIOD and SLOT_EN -/
  | wdgCfgWrite (isP : Bool) (value : Word)
  /-- WDG_P_HOSTCFG_WRITE (R419): A write to WDG_P_HOSTCFG ends the boot phase and starts a new period -/
  | wdgPHostcfgWrite (value : Word)
  /-- WDG_CHECKIN (R422): A slot-key write is judged as a check-in, a duplicate or a bite -/
  | wdgCheckin (isP : Bool) (value : Word) (edge : WdgEdge) (more : Bool)
  /-- WDG_WINDOW_OPEN (R424): The window of the period opens, ordered against a meeting check-in by the arbiter -/
  | wdgWindowOpen (isP : Bool)
  /-- WDG_PERIOD_END (R422): A period ends; enabled slots not done cause a MISSING bite, and a new period starts -/
  | wdgPeriodEnd (isP : Bool) (more : Bool)
  /-- KEEPER_RESTART_PERIOD_TIMEOUT (R428): 500 ms after a keeper restart without a check-in write, WDG_D begins a new period -/
  | keeperRestartPeriodTimeout
  /-- HOST_RESET_PULSE_END (R55): The 1 ms host-die reset pulse ends, and the host is released again when no source asks for reset -/
  | hostResetPulseEnd
  /-- POWER_CYCLE_PULSE_END (R427): The 100 ms power-cycle pulse ends and the device starts a watchdog chip restart -/
  | powerCyclePulseEnd
  /-- WDG_HARD_TIMEOUT (R425): The 250 ms hard timer after a trap-mode bite ends and starts a watchdog chip restart -/
  | wdgHardTimeout (isP : Bool)
  /-- HEALTHY_RUN_COMPLETE (R429): A healthy run completes, so the ladder counters are cleared and HEALTHY is set -/
  | healthyRunComplete (bad : List Nat)
  /-- TOKEN_REFILL (R441): A cell's token bucket gains a token at its severity's rate -/
  | tokenRefill (cell : Nat)
  /-- COUNTS_COMMIT_TIMER (R447): Within 1 s of a change, the keeper commits the persisted counts of record 2 -/
  | countsCommitTimer
  /-- SMBUS_ALERT_RESPONSE (R441): The board controller reads the SMBus Alert Response Address, and SB_ALERT_N is released -/
  | smbusAlertResponse
  /-- DEV_IRQ_CAUSE_WRITE (R509): A W1C write to DEV_IRQ_CAUSE clears cause bits, and a message is owed when an event recurs during the write -/
  | devIrqCauseWrite (value : Word) (recur : Word)
  /-- DEV_IRQ_ENABLE_WRITE (R509): Setting an enable bit whose cause bit is set owes a message on PF0 vector 0 -/
  | devIrqEnableWrite (value : Word)
  /-- REGISTER_WRITE (R11): A write to a register without a row of its own acts as its access type gives, with reserved and refused writes counted -/
  | registerWrite (fn : Nat) (space : RegSpace) (off : Nat) (value : Word) (rest : WriteRest)
  /-- LEG_LOCK (R474): A token written to LOCK takes or renews a basic-level lock, or is refused with LOCK_BUSY -/
  | legLock (window : Nat) (value : Word)
  /-- LEG_UNLOCK (R474): The holder's token written to UNLOCK frees the lock and ends any open message -/
  | legUnlock (window : Nat) (value : Word)
  /-- LEASE_EXPIRY (R477): A 100 ms lease ends without renewal: the message is aborted, the buffers are zeroed and the lock is freed -/
  | leaseExpiry (window : Nat)
  /-- BASIC_CORE_RESERVED (R479): A session core becomes free and is reserved for the basic level -/
  | basicCoreReserved
  /-- LEG_SC_START (R480): LEG_SC_CTRL.START starts a basic-level session message after the handle checks -/
  | legScStart (value : Word)
  /-- LEG_SC_ABORT (R483): LEG_SC_CTRL.ABORT ends the open message with UNIT_RESET and zeroes the buffers -/
  | legScAbort (value : Word)
  /-- LEG_SC_DATA_IN_WRITE (R481): A word written to LEG_SC_DATA_IN enters the message, or ends it with LENGTH_MISMATCH -/
  | legScDataInWrite (value : Word)
  /-- LEG_SC_DATA_OUT_READ (R481): A read of LEG_SC_DATA_OUT pops the next output word -/
  | legScDataOutRead
  /-- LEG_RNG_DATA_READ (R484): A read of LEG_RNG_DATA returns 4 bytes from DRBG instance 0 -/
  | legRngDataRead
  /-- LEG_WDG_KICK (R485): A write to LEG_WDG_KICK is a WDG_P check-in -/
  | legWdgKick (value : Word) (edge : WdgEdge) (more : Bool)
  /-- LEG_WDG_CFG_WRITE (R485): A write to LEG_WDG_CFG is a WDG_P_HOSTCFG write with SLOT_EN 0x0001 -/
  | legWdgCfgWrite (value : Word)
  /-- AUTOBAUD (R488): An autobaud character 0x55 locks the UART rate, or is discarded -/
  | autobaud (rate : Nat)
  /-- BREAK (R489): MON_RX held low for 1 ms unlocks the rate and discards partial input -/
  | breakChar
  /-- MONITOR_LINE (R490): A line ended by 0x0D is parsed, or discarded as too long -/
  | monitorLine (text : Bytes)
  /-- FRAME_GAP_TIMEOUT (R491): A frame whose bytes are more than 10 ms apart is discarded -/
  | frameGapTimeout
  /-- HELP (R493): Monitor command that lists the commands the current state answers -/
  | help (body : Bytes)
  /-- STATUS (R493): Monitor command that returns state and status registers -/
  | status (body : Bytes)
  /-- IDENT (R493): Monitor command that returns die identities, VARIANT and UEID -/
  | ident (body : Bytes)
  /-- READ (R493): Monitor command that performs side-effect-free 32-bit reads of PF0 BAR0 -/
  | read (body : Bytes)
  /-- CELL (R493): Monitor command that returns an event cell -/
  | cell (body : Bytes)
  /-- HSM_BLOCK (R493): Monitor command that carries an HSM command block as a requester of its own -/
  | hsmBlock (body : Bytes)
  /-- FRAMED (R489): Monitor command that switches between line and framed mode -/
  | framed (body : Bytes)
  /-- WRITE (R493): Debug monitor command that performs one register write as PF0 -/
  | write (body : Bytes)
  /-- UNITRST (R493): Debug monitor command that starts a unit reset as PWR_UNIT_CTRL does -/
  | unitrst (body : Bytes)
  /-- KLOG (R493): Debug monitor command that returns the keeper diagnostic ring -/
  | klog (body : Bytes)
  /-- BATTERY_DOMAIN_POWER_UP (R400): The battery domain regains power after VBAT and VDD_ANA were both absent, so TMP_CFG returns to its defaults, FROST_COUNT and the ordering-fault code start from 0, and the crystal monitor waits 2 s -/
  | batteryDomainPowerUp (mv : Nat)
  /-- VBAT_RETURN (R71): VBAT rises back to 2.5 V or above, for example when the battery is replaced while VDD_ANA is good, and PWR_SUPPLY_STATUS.VBAT_LOW clears -/
  | vbatReturn (mv : Nat)
  /-- SIDEBAND_COMES_UP (R198): The module 0 sideband first comes up after a chip reset, and the device sends PWRGD_QUERY -/
  | sidebandComesUp
  /-- SMBUS_CLOCK_LOW_TIMEOUT (R521): SB_SCL is held low for 25 to 35 ms in SMBus mode, and the device releases the bus -/
  | smbusClockLowTimeout
  /-- DYNAMIC_ADDRESS_ASSIGNMENT (R521): In I3C mode, an ENTDAA or SETDASA command from the controller assigns the device's dynamic address -/
  | dynamicAddressAssignment (setdasa : Bool) (target : Nat) (addr : Nat)
  /-- LANE_DESCRIPTOR_END (R318): A stream lane's pipeline finishes the last block of its descriptor, so the last chunks and the completion are written and the lane goes IDLE or takes its assigned descriptor -/
  | laneDescriptorEnd (lane : Nat)
  /-- DIGEST_DESCRIPTOR_END (R350): A ring digest pipeline finishes its descriptor and writes the result, and the oldest waiting digest descriptor takes the freed pipeline -/
  | digestDescriptorEnd (pipe : Nat)
  /-- LATCHING_LO_READ (R450): A read of a 64-bit counter's _LO register (EVR_SEQ_LO, STE_BYTES_LO, RNG_BYTES_LO) latches the matching _HI value -/
  | latchingLoRead (read : RegRead)
  deriving DecidableEq, Repr

end Sys2Proof
end

