-- ==== Sys2Proof/Decode.lean ====
section
/-! DEFINITION. The word decoder the host asks for. No row of spec/opcode_table.json gives bits: a command reaches this block as a register
access, a descriptor or an event, not as an instruction word. -/

namespace Sys2Proof

/-- The command that a word of the opcode table's bits spells: none, since no row gives bits. -/
def decodeTableWord (_nbits _w : Nat) : Option Instr := none

end Sys2Proof
end

