-- ==== Sys2Proof/Machine/Util.lean ====
section
/-! DEFINITION. Sparse tables, byte order (R9), bit fields and saturating counts. -/

namespace Sys2Proof.Machine

/-- The entry of a table under a number. -/
def tget {α : Type} : Table α → Nat → Option α
  | [], _ => none
  | (n, a) :: rest, k => if n = k then some a else tget rest k

/-- The entry of a table under a number, or a default where the table lists none. -/
def tgetD {α : Type} (d : α) (t : Table α) (k : Nat) : α := (tget t k).getD d

/-- Put an entry into a table, keeping the numbers strictly rising. -/
def tset {α : Type} : Table α → Nat → α → Table α
  | [], k, a => [(k, a)]
  | (n, x) :: rest, k, a =>
    if k < n then (k, a) :: (n, x) :: rest
    else if n = k then (k, a) :: rest
    else (n, x) :: tset rest k a

/-- Take an entry out of a table. -/
def tdel {α : Type} (t : Table α) (k : Nat) : Table α := t.filter (fun p => p.1 != k)

/-- Change the entry under a number, starting from a default where none is listed. -/
def tmod {α : Type} (d : α) (f : α → α) (t : Table α) (k : Nat) : Table α := tset t k (f (tgetD d t k))

/-- Change an entry only where the table lists one. -/
def tmod? {α : Type} (f : α → α) (t : Table α) (k : Nat) : Table α :=
  t.map (fun p => if p.1 = k then (p.1, f p.2) else p)

/-- Numbers strictly rising. -/
def twf {α : Type} : Table α → Bool
  | [] => true
  | [_] => true
  | (n, _) :: (m, b) :: rest => decide (n < m) && twf ((m, b) :: rest)

/-- The lowest number from `from_` upward, below the bound, that a predicate accepts. -/
def lowestFrom (p : Nat → Bool) (start : Nat) : Nat → Option Nat
  | 0 => none
  | fuel + 1 => if p start then some start else lowestFrom p (start + 1) fuel

/-! ### Byte order -/

/-- A byte of a string; 0 past its end. -/
def byteAt (bs : Bytes) (i : Nat) : Byte := bs.getD i 0

/-- The number a little-endian byte string stands for (R9). -/
def leNat : Bytes → Nat
  | [] => 0
  | b :: rest => b.toNat + 256 * leNat rest

/-- The number a big-endian byte string stands for. -/
def beNat (bs : Bytes) : Nat := bs.foldl (fun a b => 256 * a + b.toNat) 0

/-- A number as `n` bytes, little-endian (R9). -/
def lePut : Nat → Nat → Bytes
  | 0, _ => []
  | n + 1, v => BitVec.ofNat 8 v :: lePut n (v / 256)

/-- A number as `n` bytes, big-endian. -/
def bePut (n v : Nat) : Bytes := (lePut n v).reverse

/-- The bytes from `off`, `n` of them, padded with zeros past the end. -/
def slice (bs : Bytes) (off n : Nat) : Bytes :=
  let r := (bs.drop off).take n
  r ++ List.replicate (n - r.length) 0

/-- A little-endian field of a byte string. -/
def leAt (bs : Bytes) (off n : Nat) : Nat := leNat (slice bs off n)

/-- A big-endian field of a byte string. -/
def beAt (bs : Bytes) (off n : Nat) : Nat := beNat (slice bs off n)

/-- `n` zero bytes. -/
def zeros (n : Nat) : Bytes := List.replicate n 0

/-- Every byte from `off`, `n` of them, is 0. -/
def allZero (bs : Bytes) (off n : Nat) : Bool := (slice bs off n).all (· == 0)

/-- Bytes of an ASCII string. -/
def ascii (s : String) : Bytes := s.toList.map (fun c => BitVec.ofNat 8 c.toNat)

/-- Byte-wise exclusive or, as long as the shorter string. -/
def xorBytes (a b : Bytes) : Bytes := List.zipWith (· ^^^ ·) a b

/-- Store bytes into a byte string at an offset, within its length. -/
def patch (bs : Bytes) (off : Nat) (data : Bytes) : Bytes :=
  (bs.take off ++ data ++ bs.drop (off + data.length)).take (max bs.length (off + data.length))

/-- A string cut into pieces of `n` bytes (the last may be shorter). -/
def chunks (n : Nat) (bs : Bytes) : List Bytes :=
  (List.range ((bs.length + n - 1) / n)).map (fun i => (bs.drop (n * i)).take n)

/-! ### Bit fields and counts -/

/-- Bits `hi` down to `lo` of a number. -/
def bits (v hi lo : Nat) : Nat := (v / 2 ^ lo) % 2 ^ (hi + 1 - lo)

/-- One bit of a number. -/
def bit (v i : Nat) : Bool := v.testBit i

/-- A truth value as 0 or 1. -/
def b2n (b : Bool) : Nat := if b then 1 else 0

/-- A truth value placed at a bit position. -/
def flag (b : Bool) (i : Nat) : Nat := if b then 2 ^ i else 0

/-- A count of 32 bits that saturates. -/
def sat32 (n : Nat) : Nat := min n 0xFFFFFFFF

/-- A number as a register. -/
def word (n : Nat) : Word := BitVec.ofNat 32 n

/-- Rounded-up quotient. -/
def ceilDiv (a b : Nat) : Nat := (a + b - 1) / b

end Sys2Proof.Machine
end

