-- ==== Sys2Proof/Machine/Keccak.lean ====
section
/-! DEFINITION. Keccak, SHA-3, SHAKE, KMAC (PRESUMED, assumption 16, FIPS 202 and SP 800-185: the spec names the standards). -/

namespace Sys2Proof.Machine

/-- Round constants of Keccak-f[1600], first one most significant. -/
def keccakRC : Nat := 0x00000000000000010000000000008082800000000000808A8000000080008000000000000000808B000000008000000180000000800080818000000000008009000000000000008A00000000000000880000000080008009000000008000000A000000008000808B800000000000008B8000000000008089800000000000800380000000000080028000000000000080000000000000800A800000008000000A8000000080008081800000000000808000000000800000018000000080008008

/-- Rotation offsets of rho, lane x + 5y. -/
def keccakRho : List Nat := [0, 1, 62, 28, 27, 36, 44, 6, 55, 20, 3, 10, 43, 25, 39, 41, 45, 15, 21, 8, 18, 2, 61, 56, 14]

/-- A lane of the state. -/
def lane64 (a : List (BitVec 64)) (i : Nat) : BitVec 64 := a.getD i 0

/-- One round of Keccak-f[1600]. -/
def keccakRound (a : List (BitVec 64)) (r : Nat) : List (BitVec 64) :=
  let c := (List.range 5).map (fun x =>
    lane64 a x ^^^ lane64 a (x + 5) ^^^ lane64 a (x + 10) ^^^ lane64 a (x + 15) ^^^ lane64 a (x + 20))
  let d := (List.range 5).map (fun x => lane64 c ((x + 4) % 5) ^^^ (lane64 c ((x + 1) % 5)).rotateLeft 1)
  let e := (List.range 25).map (fun i => (lane64 a i ^^^ lane64 d (i % 5)).rotateLeft (keccakRho.getD i 0))
  -- pi: lane (y, 2x + 3y) takes lane (x, y)
  let f := (List.range 25).map (fun i =>
    let x := i % 5
    let y := i / 5
    lane64 e ((x + 3 * y) % 5 + 5 * x))
  let g := (List.range 25).map (fun i =>
    let x := i % 5
    let y := 5 * (i / 5)
    lane64 f i ^^^ (~~~(lane64 f ((x + 1) % 5 + y)) &&& lane64 f ((x + 2) % 5 + y)))
  match g with
  | [] => []
  | l :: rest => (l ^^^ BitVec.ofNat 64 (keccakRC >>> (64 * (23 - r)))) :: rest

/-- Keccak-f[1600]. -/
def keccakF (a : List (BitVec 64)) : List (BitVec 64) := (List.range 24).foldl keccakRound a

/-- Absorb one rate block. -/
def keccakAbsorb (a : List (BitVec 64)) (blk : Bytes) : List (BitVec 64) :=
  let w := (chunks 8 blk).map (fun b => BitVec.ofNat 64 (leNat b))
  keccakF ((List.range 25).map (fun i => lane64 a i ^^^ w.getD i 0))

/-- Squeeze `n` blocks of the rate. -/
def keccakSqueeze (rate : Nat) : Nat → List (BitVec 64) → Bytes
  | 0, _ => []
  | n + 1, a => (a.flatMap (fun x => lePut 8 x.toNat)).take rate ++ keccakSqueeze rate n (keccakF a)

/-- The sponge: rate in bytes, domain-separation byte, output length. -/
def sponge (rate : Nat) (dom : Byte) (m : Bytes) (out : Nat) : Bytes :=
  let padLen := rate - m.length % rate
  let pad : Bytes := if padLen = 1 then [dom ^^^ 0x80] else [dom] ++ zeros (padLen - 2) ++ [0x80]
  let a := (chunks rate (m ++ pad)).foldl keccakAbsorb (List.replicate 25 0)
  (keccakSqueeze rate (ceilDiv out rate) a).take out

/-- SHA3-256, SHA3-384, SHA3-512 by output length in bytes. -/
def sha3 (out : Nat) (m : Bytes) : Bytes := sponge (200 - 2 * out) 0x06 m out

/-- SHAKE128 (rate 168) and SHAKE256 (rate 136). -/
def shake (rate : Nat) (m : Bytes) (out : Nat) : Bytes := sponge rate 0x1F m out

/-- A number in as few big-endian bytes as hold it, at least one. -/
def minBytes (v : Nat) : Bytes :=
  let n := max 1 (ceilDiv (Nat.log2 v + (if v = 0 then 0 else 1)) 8)
  bePut n v

/-- left_encode of SP 800-185. -/
def leftEncode (v : Nat) : Bytes := let b := minBytes v; BitVec.ofNat 8 b.length :: b

/-- right_encode of SP 800-185. -/
def rightEncode (v : Nat) : Bytes := let b := minBytes v; b ++ [BitVec.ofNat 8 b.length]

/-- encode_string of SP 800-185. -/
def encodeString (s : Bytes) : Bytes := leftEncode (8 * s.length) ++ s

/-- bytepad of SP 800-185. -/
def bytepad (x : Bytes) (w : Nat) : Bytes :=
  let z := leftEncode w ++ x
  z ++ zeros ((w - z.length % w) % w)

/-- KMAC128 (rate 168) and KMAC256 (rate 136): key, data, output bytes, customization string. -/
def kmac (rate : Nat) (key data : Bytes) (out : Nat) (s : Bytes) : Bytes :=
  let m := bytepad (encodeString (ascii "KMAC") ++ encodeString s) rate ++ bytepad (encodeString key) rate ++ data ++
    rightEncode (8 * out)
  sponge rate 0x04 m out

/-- KMAC256. -/
def kmac256 (key data : Bytes) (out : Nat) (s : Bytes) : Bytes := kmac 136 key data out s

/-- The derivation function of R260: SP 800-108 in counter mode with KMAC256; `len` in bytes. -/
def kdf (kIn : Bytes) (label : String) (context : Bytes) (len : Nat) : Bytes :=
  ((List.range (ceilDiv len 32)).flatMap (fun i =>
    kmac256 kIn (bePut 4 (i + 1) ++ ascii label ++ [0] ++ context ++ bePut 4 (8 * len)) 32 (ascii "JKH"))).take len

end Sys2Proof.Machine
end

