-- ==== Sys2Proof/Config.lean ====
section
/-! DEFINITION. What an implementation fixes and the values the spec leaves open. Every value here is opaque: it has no body, so
no proof can use one (free values, see notes/assumptions). -/

namespace Sys2Proof.Config

/-! ### Die-specific constants -/

/-- Vault-die stepping (R506). -/
opaque vaultStepping : Byte
/-- Logic-die stepping, major and minor (R506). -/
opaque steppingMajor : Byte
opaque steppingMinor : Byte
/-- The physically unclonable secret of the die (R29, R78), 32 bytes by position. -/
opaque pus : Nat → Byte
/-- The life-cycle constant of a state (R78), by position. -/
opaque lcsConstant : Nat → Nat → Byte
/-- The measurement of ROM (R261), by position. -/
opaque romMeasurement : Nat → Byte
/-- The hashes of the manufacturing key pair that ROM holds (R80): 0 ECDSA P-384, 1 ML-DSA-87; by position. -/
opaque mfgKeyHash : Nat → Nat → Byte
/-- The words of OTP that Krazenal programs before shipping and that differ from die to die (R93, R526). -/
opaque otpField : Nat → Word

/-! ### Randomness -/

/-- The `n`-th byte that a DRBG instance gives (R369): instance 0 host, 1 internal. -/
opaque drbg : Nat → Nat → Byte
/-- The `n`-th raw 32-bit word of the entropy source (R374). -/
opaque rawBits : Nat → Word

/-! ### Other open values -/

/-- What host software reads back where the spec leaves the bytes undefined, by a running number. -/
opaque freeByte : Nat → Byte
/-- What a BBRAM control word holds that did not read back as written (R275), by the number of the commit. -/
opaque strayWord : Nat → Word
/-- The 30-bit block address that FLT_LAST_EVENT shows for a refusal that names no flash address (R133), by the number of refusals. -/
opaque lastBlock : Nat → BitVec 30
/-- A byte of the SFDP table that SPIT presents (R146). -/
opaque sfdpByte : Nat → Byte
/-- The largest chunk that the device accepts (R121), by transport. -/
opaque thawChunk : Nat → Nat
/-- CTExponent of CAPABILITIES (R179). -/
opaque ctExponent : Byte
/-- The address width that TDISP_CAPABILITIES reports (R195). -/
opaque devAddrWidth : Byte
/-- The Revision ID of the configuration header (R191 names none). -/
opaque revisionId : Byte
/-- A word of the configuration space, by function and offset, inside a capability of R191 but with no field that the spec gives. -/
opaque configWord : Nat → Nat → Word
/-- A byte of the keeper diagnostic ring (KLOG). -/
opaque klogByte : Nat → Byte

end Sys2Proof.Config
end

