-- ==== Sys2Proof/Machine/State.lean ====
section
/-! DEFINITION. The state of the block: plain data, one structure per unit, every register and store the spec gives the
device; the queue of waiting commands; and the state after reset. -/

namespace Sys2Proof.Machine

/-! ### Names -/

/-- The part numbers (R1). -/
inductive Variant where
  | jtH48F | jtH48S | jtH48B
  deriving DecidableEq, Repr

/-- The device-level states (R26). -/
inductive DevState where
  | reset | rom | keeperBoot | service | thaw | winter | frozen
  deriving DecidableEq, Repr

/-- Why the machine stops. No command of this block stops it with a fault (the spec gives every condition a status, a
reply or a register bit), so nothing raises this one; it is safe. -/
inductive Fault where
  /-- Raised by nobody. Safe. -/
  | none
  deriving DecidableEq, Repr

/-- Why the machine has no meaning for a command. -/
inductive Refusal where
  /-- Raised by `exec` for a command not modelled yet; safe, since nothing is claimed of it. -/
  | notModelled (mnemonic : String)
  deriving DecidableEq, Repr

/-! ### Timebases (R23) -/

/-- The two timebases (R23): the battery-domain crystal counts (48-bit seconds, 15-bit sub-seconds) and the 1 MHz
reference in whole microseconds; `phase` is the part of a crystal tick passed, in millionths. `mono` is the model's own count of the microseconds
that have passed, whatever is powered: the delays of the supply and tamper monitors are told by it. -/
structure TimeSt where
  secs   : Nat
  subsec : Nat
  usec   : Nat
  phase  : Nat
  mono   : Nat
  deriving DecidableEq, Repr

/-! ### What leaves the block -/

/-- How a request of the host to a BAR or the configuration space is answered (R201). -/
inductive CplStatus where
  | success | unsupported | abort
  deriving DecidableEq, Repr

/-- What the block sends to the outside, in the order it is issued. Addresses are host addresses. -/
inductive Out where
  /-- One read request of host memory: its 10-bit tag, function, world, address, length (R192). -/
  | hostRead (tag fn : Nat) (world : Bool) (addr len : Nat)
  /-- One posted data write (R254), at most Max Payload Size long; `ro` is the Relaxed Ordering attribute (R192). -/
  | dataWrite (fn : Nat) (world ro : Bool) (addr : Nat) (data : Bytes)
  /-- A zeroing write (R253), never with Relaxed Ordering. -/
  | zeroWrite (fn : Nat) (world : Bool) (addr len : Nat)
  /-- A completion entry (R248), one 32-byte posted write (R255). -/
  | entryWrite (fn : Nat) (world : Bool) (addr : Nat) (data : Bytes)
  /-- A shadow-head write (R256). -/
  | shadowWrite (fn : Nat) (world : Bool) (addr : Nat) (value : Word)
  /-- An MSI-X message (R193): a 32-bit posted write. -/
  | msix (fn : Nat) (addr : Nat) (data : Word)
  /-- The answer to a host request (read data, or Unsupported Request, or Completer Abort). -/
  | completion (fn : Nat) (status : CplStatus) (data : Bytes)
  /-- An ERR_COR message of a function (R201). -/
  | errCor (fn : Nat)
  /-- A vendor-defined message of the module 0 sideband (R198): code and payload bit. -/
  | sideband (code : Nat) (value : Bool)
  /-- Bytes driven on the SPIT port (R146). -/
  | spit (data : Bytes)
  /-- One packet of an MCTP message of the sideband port (R178, R179, R409): start and end of the message, packet number mod 4, payload; the
  message's first byte is its type. -/
  | mctp (som eom : Bool) (seq : Nat) (payload : Bytes)
  /-- A data object that the DOE mailbox presents (R195): its type (1 SPDM, 2 a secured SPDM record) and contents. -/
  | doe (kind : Nat) (body : Bytes)
  /-- A byte that the sideband port returns on SMBus (R441). -/
  | smbus (data : Byte)
  /-- An I3C in-band interrupt with its data byte (R441). -/
  | i3cIbi (data : Byte)
  /-- Bytes sent on MON_TX (R490, R491). -/
  | uart (data : Bytes)
  /-- A flash operation issued on a port: port, chip select, command kind, address bytes (R125), address, data (R128). -/
  | flash (port cs kind addrBytes addr : Nat) (data : Bytes)
  /-- An AVSBus request for a core voltage, in mV (R464). -/
  | avs (mv : Nat)
  /-- A keeper answer to the register window it serves (a mailbox reply of another unit). -/
  | keeper (data : Bytes)
  deriving DecidableEq, Repr

/-! ### Host link (chapter "Host link over UCIe") -/

/-- LINK_STATE of DEV_LINK_STATUS (R206). -/
inductive LinkPhase where
  | down | training | active | retrain
  deriving DecidableEq, Repr

/-- The TDI state of a VF (R196). -/
inductive Tdi where
  | configUnlocked | configLocked | run | error
  deriving DecidableEq, Repr

/-- The Advanced Error Reporting events latched for a function (R191, R201); `correctable` holds the bits of the correctable status that R201's
Correctable rows set (0 a corrected flit, 8 replay exhausted; their places PRESUMED, assumption 19, from PCI Express). -/
structure Aer where
  correctable  : Nat
  poisoned     : Bool
  unsupported  : Bool
  abort        : Bool
  timeout      : Bool
  unexpected   : Bool
  advisory     : Bool
  deriving DecidableEq, Repr

/-- One MSI-X table entry (R193). -/
structure MsixEntry where
  addr : Nat
  data : Word
  mask : Bool
  deriving DecidableEq, Repr

/-- What the configuration space and the MSI-X structures hold for one function (R191 to R196). `cmd` is the Command register but for Bus
Master Enable. -/
structure FnState where
  bme        : Bool
  cmd        : Nat
  d3hot      : Bool
  msixEnable : Bool
  funcMask   : Bool
  msix       : Table MsixEntry
  pba        : List Nat
  resets     : Nat
  tdi        : Tdi
  aer        : Aer
  deriving DecidableEq, Repr

/-- PF0's configuration registers beside those of `LinkSt` (R189, R191; places and fields PRESUMED, assumption 19, from PCI Express): the bases of BAR0 and BAR2,
the error-reporting enables of Device Control (bits 3 to 0) and the rest of the two Device Control registers, AER uncorrectable mask and
severity and correctable mask, SR-IOV control but VF Enable, System Page Size, ACS control, and the Data Object Exchange mailbox: the object
being written, the object being read, its error and interrupt enable. -/
structure PciCfg where
  bar0       : Nat
  bar2       : Nat
  errEnable  : Nat
  aerMask    : Nat
  aerSev     : Nat
  aerCorMask : Nat
  sriovCtl   : Nat
  pageSize   : Nat
  acs        : Nat
  doeIn      : Bytes
  doeOut     : Bytes
  doeError   : Bool
  doeIrq     : Bool
  deriving DecidableEq, Repr

/-- The link unit: DEV_LINK registers (R206), SR-IOV and PCI Express controls (R188, R192), the host handshake (R198,
R199), and what is held back while the link cannot carry it (R40, R185, R203). `vfBar` is VF BAR0 of the SR-IOV capability (R189). -/
structure LinkSt where
  phase       : LinkPhase
  rate        : Option LinkRate
  w0          : LinkWidth
  w1          : LinkWidth
  left0       : Bool
  left1       : Bool
  repaired    : Nat
  writeCheck  : Bool
  retrains    : Nat
  dmaErrors   : Nat
  badAccess   : Nat
  badAccAddr  : Nat
  refclk      : Bool
  numVfs      : Nat
  vfEnable    : Bool
  vfBar       : Nat
  maxPayload  : Nat
  maxReadReq  : Nat
  cplTimeout  : Nat
  relaxedOrd  : Bool
  pwrgdMsg    : Bool
  hsPending   : Option Bool
  hsNoAck     : Bool
  hsResends   : Nat
  fns         : Table FnState
  cfg         : PciCfg
  held        : List (Nat × Out)
  deriving DecidableEq, Repr

/-! ### Work queues (chapter "Work queues and the admin queue") -/

/-- SQ states (R223). -/
inductive SqState where
  | free | active | draining | disabled
  deriving DecidableEq, Repr

/-- One submission queue, under its device queue number (R207, R234). `held` counts its credits (R217). -/
structure Sq where
  state     : SqState
  fn        : Nat
  qid       : Nat
  cq        : Nat
  base      : Nat
  sizeLog2  : Nat
  minCred   : Nat
  weight    : Nat
  shadow    : Nat
  head      : Word
  tail      : Word
  held      : Nat
  reading   : Nat
  dbIgnored : Bool
  error     : Bool
  deriving DecidableEq, Repr

/-- One completion queue, under its device queue number (R225, R234). `owners` names, for each written and unreleased
entry, the SQ whose credit it holds (none once that SQ is deleted); `orphans` counts the credits of deleted SQs (R217). -/
structure Cq where
  active      : Bool
  fn          : Nat
  qid         : Nat
  base        : Nat
  sizeLog2    : Nat
  vector      : Nat
  irqEn       : Bool
  written     : Word
  released    : Word
  owners      : List (Option Nat)
  headInvalid : Bool
  deriving DecidableEq, Repr

/-- The set-up registers of PF0's admin pair in queue page 0 (R234, R235). -/
structure AdminRegs where
  sqBase   : Nat
  cqBase   : Nat
  shadow   : Nat
  cfg      : Word
  enable   : Bool
  ready    : Bool
  cfgError : Bool
  deriving DecidableEq, Repr

/-- The queue table, the QID mappings of the VFs (R208), their quotas, and the arbiter (R220). -/
structure QueueSt where
  sqs      : Table Sq
  cqs      : Table Cq
  admin    : AdminRegs
  quotas   : Table Nat
  lastAdm  : Nat
  lastIo   : Nat
  turnLeft : Nat
  qerrKind : Nat
  qerrNum  : Nat
  qerrCount : Nat
  deriving DecidableEq, Repr

/-! ### Work in flight (chapter "Descriptors, fragments and completions") -/

/-- A fragment list being walked (R246): the ranges found so far with their entry indices, the address of the next piece
to read (none once LAST is found), entries judged in all and in the present table, and the running sum. -/
structure Walk where
  segs    : List (Nat × Nat × Nat)
  next    : Option Nat
  entries : Nat
  inTable : Nat
  sum     : Nat
  deriving DecidableEq, Repr

/-- How a descriptor ends: status, DETAIL, RESULT, BYTES_DONE for a status that does not zero, whether its output is
provisional (R249), the ranges to zero (R253), and what a tombstone recorded (R337: bytes zeroed, and ZEROED). -/
structure Verdict where
  status  : Nat
  detail  : Nat
  result  : Nat
  bytes   : Nat
  prov    : Bool
  extent  : List (Nat × Nat)
  past    : Option (Nat × Bool)
  deriving DecidableEq, Repr

/-- Where a descriptor stands between its read and its completion entry. -/
inductive Stage where
  /-- Read; its own command has not run. -/
  | arrived
  /-- The 144-byte blob read is outstanding (R292, step 2). -/
  | blobRead
  /-- Waits for a place among the 64 loads in flight (R291). -/
  | loadQueue
  /-- Waits for another load of the slot (R290, R294). -/
  | loadWait (slot : Nat)
  /-- Waits for a slot to claim (R295). -/
  | placeWait
  /-- Its blob is in the unwrap engine for the slot (R292, step 7). -/
  | unwrap (slot : Nat)
  /-- A caller-supplied key read is outstanding (R353). -/
  | keyRead
  /-- An IV pointer or expected-value read is outstanding (R244). -/
  | ivRead
  /-- A source table piece read is outstanding (R246). -/
  | srcPiece
  /-- An output table piece read is outstanding (R246). -/
  | dstPiece
  /-- In the pending list of its unit, or waiting for a part-log entry, staging or the random source. -/
  | pending
  /-- On its unit, source reads outstanding. -/
  | data
  /-- On its unit, every source byte present. -/
  | running
  /-- The data check read of R202 is outstanding. -/
  | dataCheck (v : Verdict)
  /-- The zeroing check read of R202 is outstanding. -/
  | zeroCheck (v : Verdict)
  /-- Ended, its entry not written because the function's requests are halted: it keeps its pools until they resume (R203). -/
  | ended (v : Verdict) (zeroed : Bool)
  /-- CTX_EVICT waiting for the last use of the slot (R297). -/
  | evictWait (slot : Nat)
  /-- FENCE_ALL waiting for these descriptors (R227). -/
  | fenceAll (ids : List Nat) (count : Nat)
  /-- DISABLE_SQ waiting for reading to stop (R227). -/
  | disable (dqn : Nat)
  /-- An HSM_CMD whose command block is being read, or which the keeper holds. -/
  | keeper
  deriving DecidableEq, Repr

/-- One descriptor that has been read and has no completion entry yet. `hdr` holds the attributes of the context it resolved to (R298), `data` the
source bytes its unit has taken so far, `outLen` the length of its output area (R241), `wrote` the bytes of it issued, `due` a verdict that waits for
the output list alone (R253). -/
structure Job where
  id      : Nat
  dqn     : Nat
  fn      : Nat
  qid     : Nat
  world   : Bool
  desc    : Bytes
  stage   : Stage
  started : Bool
  ctx     : Option (Nat × Nat)
  hdr     : Bytes
  loaded  : Bool
  blob    : Bytes
  iv      : Bytes
  src     : Walk
  dst     : Walk
  data    : Bytes
  wrote   : Nat
  outLen  : Nat
  resumed : Bool
  due     : Option Verdict
  deriving DecidableEq, Repr

/-- What a device read of host memory is for. -/
inductive ReadKind where
  /-- `n` descriptors of an SQ (R213). -/
  | descs (dqn n : Nat)
  /-- The slot of an unread descriptor, for its CMD_ID (R223). -/
  | drain (dqn : Nat)
  | blob (job : Nat)
  | callerKey (job : Nat)
  | iv (job : Nat)
  | srcPiece (job : Nat)
  | dstPiece (job : Nat)
  | source (job : Nat)
  | block (job : Nat)
  | dataCheck (job : Nat)
  | zeroCheck (job : Nat)
  /-- The zeroing check of an abandoned message (R337). -/
  | tombCheck (dqn msgId : Nat)
  deriving DecidableEq, Repr

/-- A device read that has not returned whole, by its number: what has arrived is under its offset in `got`. -/
structure ReadReq where
  num  : Nat
  fn   : Nat
  world : Bool
  kind : ReadKind
  len  : Nat
  got  : Table HostData
  deriving DecidableEq, Repr

/-- One read request on the link (R192): a piece of the read with a number, at an offset of it. -/
structure ReadPiece where
  num   : Nat
  off   : Nat
  fn    : Nat
  world : Bool
  addr  : Nat
  len   : Nat
  deriving DecidableEq, Repr

/-- Descriptors in flight, reads that have not returned, their requests outstanding under their tags and those that wait for a tag in order, the tags
that timed out with their function, and the counters that name them. `clock` orders what the spec orders by time
(longest waiting, least recently used). `free` is the model's own count of the bytes the spec leaves open that have been given out. -/
structure WorkSt where
  jobs     : List Job
  nextJob  : Nat
  reads    : List ReadReq
  nextRead : Nat
  pieces   : Table ReadPiece
  unsent   : List ReadPiece
  nextTag  : Nat
  timedOut : Table Nat
  clock    : Nat
  free     : Nat
  deriving DecidableEq, Repr

/-! ### Context vault (chapter "Context vault and on-demand loading") -/

/-- Slot states (R289). -/
inductive SlotState where
  | free | loading | resident | evicting
  deriving DecidableEq, Repr

/-- One vault slot with its tag-store entry (R285, R286): state, generation, the 128 bytes of the slot array (none while nothing is placed),
the index entry of OWNER_ID, BLOB_ID and tag prefix (R292), the use order. -/
structure VSlot where
  state   : SlotState
  gen     : Nat
  bytes   : Bytes
  owner   : Nat
  blobId  : Nat
  tag8    : Bytes
  lastUse : Nat
  deriving DecidableEq, Repr

/-- The vault. `fresh` is the number of slots never claimed since chip reset (they head the free list, lowest first);
`freed` is the rest of the free list, longest free first (R293); `waiting` the
descriptors that wait for a place among the loads in flight, in arrival order (R291). -/
structure VaultSt where
  slots     : Table VSlot
  fresh     : Nat
  freed     : List Nat
  ready     : Bool
  maskKey   : Bytes
  checkKey  : Bytes
  reserve   : Nat
  useClock  : Nat
  loads     : Nat
  idHits    : Nat
  evictions : Nat
  blobFails : Nat
  alarms    : Nat
  keysErased : Bool
  waiting   : List Nat
  selfTest  : Bool
  failed    : Bool
  fails     : Nat
  deriving DecidableEq, Repr

/-! ### Stream lanes, session cores, digest pipelines (chapters 13 to 15) -/

/-- Lane states (R318). -/
inductive LaneState where
  | off | selfTest | idle | busy | failed
  deriving DecidableEq, Repr

/-- A key held in a bank or key register, tagged with the context's slot and generation (R304, R322). -/
structure Bank where
  slot : Nat
  gen  : Nat
  key  : Bytes
  deriving DecidableEq, Repr

/-- One stream lane: `bank` serves the running descriptor, `spare` is the idle bank (R304). -/
structure Lane where
  state    : LaneState
  admitted : Bool
  alarms   : Nat
  fails    : Nat
  bank     : Option Bank
  spare    : Option Bank
  running  : Option Nat
  assigned : Option Nat
  deriving DecidableEq, Repr

/-- The stream lanes and their dispatcher (R311, R321). -/
structure StreamSt where
  lanes   : List Lane
  fence   : Nat
  pending : List Nat
  bytes   : Nat
  bytesHi : Nat
  descs   : Nat
  cts     : Nat
  deriving DecidableEq, Repr

/-- Core states as SCE_CORE_STATUS shows them (R349). -/
inductive CoreState where
  | off | selfTest | idle | busy | bound | failed | basic
  deriving DecidableEq, Repr

/-- One session core (R322): its key register, the running part, and the message bound to it (SQ, MSG_ID). `late` says that the running part came to
the core when it was fenced (R324). -/
structure CoreU where
  state    : CoreState
  admitted : Bool
  alarms   : Nat
  fails    : Nat
  key      : Option Bank
  job      : Option Nat
  msg      : Option (Nat × Nat)
  late     : Bool
  deriving DecidableEq, Repr

/-- The running state of one message (R336): nonce or counter block, blocks of counter used, the GHASH, Poly1305, CBC or
CBC-MAC value, the held-back CMAC block, AAD and payload totals. -/
structure CipherSt where
  iv     : Bytes
  blocks : Nat
  acc    : Nat
  tail   : Bytes
  aad    : Nat
  pay    : Nat
  deriving DecidableEq, Repr

/-- One part in the part log (R334): its DST, its FRAG_DST bit, the output bytes written. `area` is the output area that they give, in ranges, `len` its
length; `undef` says that R243 leaves the part's output undefined. -/
structure Part where
  dst   : Nat
  frag  : Bool
  wrote : Nat
  area  : List (Nat × Nat)
  len   : Nat
  undef : Bool
  deriving DecidableEq, Repr

/-- Where an open message is (R335). `opening` is a first part that has passed check 5 and not yet reached a core. -/
inductive MsgState where
  | opening | running (core : Nat) | bound (core : Nat) | parked
  deriving DecidableEq, Repr

/-- A parked-message slot (R336): its number, its use count, the message's state masked, the tag. -/
structure ParkSlot where
  slot  : Nat
  gen   : Nat
  bytes : Bytes
  check : Bytes
  deriving DecidableEq, Repr

/-- An open message of several parts (R331 to R340). `held` is the plaintext in staging (R340); `ended` is when its last
part ended, in microseconds; `wantPark` marks a bound message that waits for a parked-message slot (R336), `doomed` one to be abandoned once its running
part ends (R338); `opener` is the descriptor that opened it. -/
structure Msg where
  dqn     : Nat
  msgId   : Nat
  fn      : Nat
  world   : Bool
  opcode  : Nat
  handle  : Nat
  param   : Nat
  ctx     : Nat × Nat
  state   : MsgState
  cipher  : CipherSt
  hold    : Bool
  held    : Bytes
  parts   : List Part
  ended   : Nat
  wantPark : Bool
  park    : Option ParkSlot
  doomed  : Bool
  opener  : Nat
  deriving DecidableEq, Repr

/-- A tombstone of an abandoned message (R337). -/
structure Tomb where
  dqn    : Nat
  msgId  : Nat
  zeroed : Nat
  ok     : Bool
  deriving DecidableEq, Repr

/-- The session engines and their scheduler (R323, R349). -/
structure SessionSt where
  cores    : List CoreU
  fence    : Nat
  pending  : List Nat
  msgs     : List Msg
  tombs    : List Tomb
  parkUs   : Nat
  abandonMs : Nat
  parkKey  : Bytes
  authFails : Nat
  abandoned : Nat
  parks    : Nat
  deriving DecidableEq, Repr

/-- The register-mode digest interface (R358, R374); `runAlg` and `runLen` are ALG and OUT_LEN at START, `runTail` TAIL at FINAL. -/
structure RegDigest where
  alg     : Nat
  outLen  : Nat
  tail    : Nat
  open_   : Bool
  busy    : Bool
  done    : Bool
  early   : Bool
  error   : Bool
  data    : Bytes
  result  : Bytes
  runAlg  : Nat
  runLen  : Nat
  runTail : Nat
  deriving DecidableEq, Repr

/-- One digest pipeline (R350). -/
structure Pipe where
  job      : Option Nat
  alarms   : Nat
  fails    : Nat
  selfTest : Bool
  failed   : Bool
  deriving DecidableEq, Repr

/-- The digest engine: pipelines 0 to 5, the waiting list, register mode. -/
structure DigestSt where
  pipes   : List Pipe
  pending : List Nat
  rm      : RegDigest
  deriving DecidableEq, Repr

/-- Public-key and random unit states (R374). -/
inductive PkState where
  | idle | busy | selfTest | failed
  deriving DecidableEq, Repr

/-- One public-key unit: its queue of keeper jobs in arrival order with their class (R360), the job it runs. -/
structure PkUnit where
  state   : PkState
  queue   : List (Nat × Nat)
  running : Option Nat
  fails   : Nat
  deriving DecidableEq, Repr

/-- The public-key engine (R360, R374). -/
structure PkeSt where
  mod      : PkUnit
  lat      : PkUnit
  signs    : Nat
  verifies : Nat
  alarms   : Nat
  deriving DecidableEq, Repr

/-- Random-source states (R374). -/
inductive RngState where
  | startup | ready | selfTest | failed
  deriving DecidableEq, Repr

/-- The random source (R368 to R374). `drawn0` and `drawn1` count the bytes each DRBG instance has given: the free values
are read at these counts. `reqs` counts generate requests since the last reseed, `seeded` its time in seconds. -/
structure RngSt where
  state    : RngState
  inst0    : Bool
  inst1    : Bool
  drawn0   : Nat
  drawn1   : Nat
  reqs0    : Nat
  reqs1    : Nat
  seeded0  : Nat
  seeded1  : Nat
  repFails : Nat
  propFails : Nat
  runFails : List Nat
  selfTests : Nat
  fails    : Nat
  reseeds  : Nat
  bytes    : Nat
  bytesHi  : Nat
  raw      : Nat
  alarms   : Nat
  deriving DecidableEq, Repr

/-! ### Key store and BBRAM (chapter "Key hierarchy and persistent key slots") -/

/-- An import session (R280): its number, the bytes its ephemeral keys were drawn from, when it was opened. -/
structure ImportSession where
  sid    : Nat
  seed   : Bytes
  opened : Nat
  deriving DecidableEq, Repr

/-- The key store: the keys of R261 it holds, owner KEKs under OWNER_ID + 4096 x EPOCH, the domain roots of the
accepted epochs with KEY_STATUS.DOMAIN and KEY_DOMAIN (R264, R284), the blob counter (R272). The last four are the model's own, for the readback
of a commit (R275): the number of the next commit of this boot, the commits whose data and whose control word read back wrong, as ROM met them, and the
pair whose commit has failed under the command in hand (64 + i for record i), after which that command commits nothing more. -/
structure KeySt where
  deviceIdCdi : Option Bytes
  mfgCdi      : Option Bytes
  aliasCdi    : Option Bytes
  deviceRoot  : Option Bytes
  recordKey   : Option Bytes
  slotCheck   : Option Bytes
  localRoot   : Option Bytes
  keks        : Table Bytes
  domState    : Nat
  epoch       : Nat
  member      : Nat
  root        : Option Bytes
  prevRoot    : Option (Nat × Bytes)
  blobNext    : Nat
  blobLimit   : Nat
  imp         : Option ImportSession
  nextImport  : Nat
  restarted   : Bool
  checkFails  : Nat
  commits     : Nat
  commitNo    : Nat
  dataBad     : List Nat
  ctlBad      : List Nat
  badPair     : Option Nat
  deriving DecidableEq, Repr

/-- A record pair (R273, R274): control word and the two copies. -/
structure Pair where
  ctl : Word
  a   : Bytes
  b   : Bytes
  deriving DecidableEq, Repr

/-- BBRAM (R271): the tag word, key-slot pairs 0 to 63, records 0 to 4, and the member revocation bitmap as the list of
its set bits. A pair not listed is all zeros. `owner0` is the leaf hash of owner 0's record in the registry of record 3 (the model's own copy, for
RELEASE_DIGEST). -/
structure BbramSt where
  tag    : Word
  slots  : Table Pair
  recs   : Table Pair
  bitmap : List Nat
  owner0 : Option Bytes
  deriving DecidableEq, Repr

/-! ### Event recorder and device registers (chapters 19 and 23) -/

/-- One event cell (R439), with its token bucket (R441). Times are the 63-bit timestamps with INEXACT in bit 63. -/
structure EvCell where
  gen        : Nat
  used       : Bool
  code       : Nat
  count      : Nat
  suppressed : Nat
  min        : Nat
  minTime    : Nat
  max        : Nat
  maxTime    : Nat
  first      : Nat
  last       : Nat
  bins       : Table Nat
  tokens     : Nat
  tokenTime  : Nat
  deriving DecidableEq, Repr

/-- A Harvest held by the keeper (R443, R446). -/
structure Harvest where
  startSeq  : Nat
  endSeq    : Nat
  startTime : Nat
  endTime   : Nat
  clears0   : Nat
  clears1   : Nat
  cells     : Table EvCell
  deriving DecidableEq, Repr

/-- The event recorder (R439 to R450). `rates` are EVR_RATE0 to EVR_RATE7. `tally` counts, for each counter of record 2
(R447), the events not yet committed. -/
structure RecorderSt where
  cells    : Table EvCell
  seq      : Nat
  seqHi    : Nat
  sel      : Nat
  notice   : Nat
  alertSev : Nat
  noticeSev : Nat
  rates    : List Nat
  solstice : Option Harvest
  countsLost : Bool
  tally    : Table Nat
  deriving DecidableEq, Repr

/-- Device interrupt causes and error counts of the DEV window (R506 to R510). -/
structure DevSt where
  irqCause   : Nat
  irqEnable  : Nat
  rsvdWrites : Nat
  discards   : Nat
  deriving DecidableEq, Repr

/-! ### Device state -/

/-- The device-level state (R26), KEYS_LOCKED (R28), the life-cycle STATE in force (R78), and the part number of the
stack (R1), which no reset changes. -/
structure RunSt where
  variant    : Variant
  state      : DevState
  keysLocked : Bool
  lcs        : Nat
  deriving DecidableEq, Repr

/-! ### Pins, resets, power governor (chapters 2 and 20) -/

/-- The straps latched (R50: bits of VALUE as DEV_STRAPS shows them), the levels of input pins, and what drives the
outputs. HOST_RST_N is high exactly while `released` holds and none of the other sources asks for reset (R59). -/
structure PinSt where
  straps     : Nat
  unstable   : Nat
  sbDisabled : Bool
  sysRstLow  : Bool
  hostPwrgd  : Bool
  released   : Bool
  hostPulse  : Bool
  pwrgdHold  : Bool
  winterHold : Bool
  bmcHigh    : Bool
  platCycle  : Bool
  spitAlert  : Bool
  spitCause  : Nat
  sbAlert    : Bool
  deriving DecidableEq, Repr

/-- Why a unit quiesces (R455). -/
inductive Purpose where
  | powerDown | reset
  deriving DecidableEq, Repr

/-- One frame of the record area (R173): its bytes up to the end of the record, and its PERSISTED flag. -/
structure RetFrame where
  frame     : Bytes
  persisted : Bool
  deriving DecidableEq, Repr

/-- The retained region (R453): its header fields, up to four record frames, newest last, the keeper save area. -/
structure RetainedSt where
  magicOk : Bool
  thaw    : Bool
  kind    : Nat
  run     : Nat
  frames  : List RetFrame
  save    : Bytes
  deriving DecidableEq, Repr

/-- The power governor, unit resets and the reset cause (R451 to R472). -/
structure PowerSt where
  tj         : Int
  settling   : Bool
  capLimited : Bool
  avsFault   : Bool
  canarySlow : Bool
  pref       : Nat
  cap        : Nat
  target     : Nat
  goal       : Nat
  avsBusy    : Bool
  avsFrom    : Nat
  measured   : Nat
  unitSel    : Nat
  unitInst   : Nat
  done       : Bool
  result     : Nat
  resetting  : Option UnitId
  quiesce    : List (UnitId × Purpose)
  goalLanes  : List Nat
  goalCores  : List Nat
  restarts   : Nat
  kind       : Nat
  warmRun    : Nat
  avsErrors  : Nat
  decisions  : Nat
  deriving DecidableEq, Repr

/-! ### Keeper (chapter "Equinox dual control, owners and key domains") -/

/-- Who sent an HSM command (R376, R377): a function, or the framed mode of the monitor. -/
inductive Requester where
  | fn (n : Nat) | monitor
  deriving DecidableEq, Repr

/-- Where an HSM command stands: not begun, with a public-key unit, waiting for the descriptors that LCS_ADVANCE drains
(R85), waiting for the keeper switch (R468), or a BOOT_ACTIVATE under way (R119). -/
inductive HsmStage where
  | waiting | engine | lcsDrain | keeperSwitch | activating
  deriving DecidableEq, Repr

/-- An HSM command the keeper holds. One sent by descriptor has that descriptor's id; `world` is its world. -/
structure HsmJob where
  id    : Nat
  req   : Requester
  world : Bool
  block : Bytes
  stage : HsmStage
  note  : Bytes
  deriving DecidableEq, Repr

/-- An open Equinox session (R383 to R386); `record` is the owner record or charter presented, `path` the record's path; `member` says that the
device was a member of a domain when it was opened (R387, R397). -/
structure EqxSession where
  sid       : Nat
  authority : Nat
  opener    : Requester
  nonce     : Bytes
  expiry    : Nat
  record    : Bytes
  path      : Bytes
  member    : Bool
  cmdDigest : Bytes
  tbs       : Bytes
  approved  : List Nat
  failures  : Nat
  deriving DecidableEq, Repr

/-- The outstanding domain offer (R389): its number, kind, the seed its private keys come from, its bytes, when it opened. -/
structure DomainOffer where
  oid    : Nat
  kind   : Nat
  seed   : Bytes
  bytes  : Bytes
  opened : Nat
  deriving DecidableEq, Repr

/-- The keeper: HSM commands in hand, Equinox sessions, the offer, bindings of functions to owners (R382). `update` is the
new keeper image of a live update that has been judged (R468); `stopped` holds while it starts no HSM command. -/
structure KeeperSt where
  hsm      : List HsmJob
  sessions : List EqxSession
  offer    : Option DomainOffer
  bindings : Table Nat
  stopped  : Bool
  update   : Option Bytes
  deriving DecidableEq, Repr

/-! ### Supplies, battery domain, tamper monitor (chapters 3 and 17) -/

/-- One main supply as its detector and its start comparator see it (R63): above 0.10 V, above its good threshold, and the
microsecond of the last rise through each and of the last fall below 0.10 V. -/
structure Rail where
  started   : Bool
  good      : Bool
  startedAt : Nat
  goodAt    : Nat
  lowAt     : Nat
  deriving DecidableEq, Repr

/-- The supplies, the ordering monitor (R67), VBAT (R71). `held` is a latched power-up fault; `newFaults` are the codes not
yet reported to the recorder; the last fields are PWR_SUPPLY_STATUS as the last ROM entry copied it (R77). -/
structure SupplySt where
  ana        : Rail
  core       : Rail
  ucie       : Rail
  io         : Rail
  pgood      : Bool
  held       : Bool
  fault      : Nat
  faultCount : Nat
  newFaults  : List Nat
  vbatMv     : Nat
  vbatSeen   : Bool
  seenReg    : Bool
  faultReg   : Nat
  countReg   : Nat
  deriving DecidableEq, Repr

/-- The tamper monitor (R398 to R415), in the battery domain, with the release nonce (R409) and the alarm stamps (R402);
`xtalAt` is the microsecond from which the crystal is watched. -/
structure TamperSt where
  latched   : Bool
  mask      : Nat
  first     : Nat
  lastCause : Nat
  frostTime : Nat
  frostCount : Nat
  cfg       : Word
  cfgReq    : Word
  stamps    : List Nat
  digest    : Bytes
  nonce     : Option (Bytes × Nat)
  releasing : Bool
  inputs    : Nat
  xtalAt    : Nat
  deriving DecidableEq, Repr

/-! ### Fuses and life cycle (chapter 4) -/

/-- OTP (R93): the cells as words (a word not listed is 0), the shadow of the last ROM entry, what ROM found at that entry
(R97), the vault die's own identity and the identity as read (R96), the token nonce with its expiry in seconds (R89), and whether the
chip reset of R85 is due. -/
structure OtpSt where
  cells      : Table Nat
  shadow     : Table Nat
  torn       : Bool
  wiped      : Bool
  mismatch   : Bool
  vaultDie   : List Nat
  vaultRd    : List Nat
  nonce      : Option (Bytes × Nat)
  resetDue   : Bool
  deriving DecidableEq, Repr

/-! ### Boot and Thaw (chapter 5) -/

/-- The outcome of one position of the source walk, as BOOT_WALK_LOG shows it (R124). -/
structure WalkLog where
  source  : Nat
  tried   : Bool
  outcome : Nat
  slotA   : Nat
  slotB   : Nat
  deriving DecidableEq, Repr

/-- The outcome of one image class, as BOOT_CLASS_STATUS shows it (R124), where its slots stand on the port, and the SEQ of the slot accepted. -/
structure ClassSt where
  outcome  : Nat
  accepted : Bool
  slot     : Nat
  fallback : Bool
  required : Bool
  base     : Nat
  imageLen : Nat
  version  : Nat
  keyEcdsa : Nat
  keyMldsa : Nat
  keyLms   : Nat
  mfgKey   : Bool
  seq      : Nat
  deriving DecidableEq, Repr

/-- One entry of the measurement set (R166): the class, the outcome of R111, the manifest header (empty when no candidate was accepted),
KEY_INDEX per algorithm, where it came from, and whether class 4 contents were rejected. -/
structure Measure where
  cls      : Nat
  outcome  : Nat
  header   : Bytes
  keys     : List (Option Nat)
  source   : Nat
  slot     : Nat
  fallback : Bool
  required : Bool
  rejected : Bool
  deriving DecidableEq, Repr

/-- What the walk waits for: nothing, SFDP of a port (R102), the end of a listen window. -/
inductive WalkWait where
  | none | sfdp | listen
  deriving DecidableEq, Repr

/-- An offer being received over Thaw (R121, R122): the transport that made it, its length and image count, the bytes taken, the images still to
come; of the image now arriving its manifest so far, its bytes so far where staging holds them (class 0 for ROM), how many of its bytes have
come, and the slot it is written to (port, class, slot); the outcome of the image that failed (0 none); when the last chunk came. -/
structure ThawOffer where
  transport : Nat
  length    : Nat
  images    : Nat
  taken     : Nat
  left      : Nat
  head      : Bytes
  image     : Bytes
  come      : Nat
  slot      : Option (Nat × Nat × Nat)
  code      : Nat
  lastAt    : Nat
  deriving DecidableEq, Repr

/-- BOOT registers, the walk, the directory ROM judged, the measurement set, Thaw (R98 to R124). `port` is the port whose directory serves the
platform classes, `firstDir` the first port of the walk with a valid directory and that directory; `frozenSet` says that the measurement set is
frozen. -/
structure BootSt where
  thawReason  : Nat
  mfgKey      : Bool
  filterArmed : Bool
  bmcReleased : Bool
  hostReleased : Bool
  persisted   : Bool
  recordHold  : Bool
  katFail     : Bool
  noTransport : Bool
  fallback    : Bool
  slot        : Nat
  source      : Nat
  romLock     : Bool
  udsClosed   : Bool
  order       : List Nat
  pos         : Nat
  wait        : WalkWait
  logs        : List WalkLog
  classes     : Table ClassSt
  port        : Option Nat
  directory   : Bytes
  firstDir    : Option (Nat × Bytes)
  measures    : List Measure
  frozenSet   : Bool
  offer       : Option ThawOffer
  lastOutcome : Nat
  deriving DecidableEq, Repr

/-! ### Flash interposer (chapter 6) -/

/-- A region rule (R130). -/
structure FlashRule where
  base     : Nat
  size     : Nat
  rights   : Nat
  valid    : Bool
  verified : Bool
  append   : Bool
  cls      : Nat
  ledger   : Nat
  deriving DecidableEq, Repr

/-- Who asks a port for something (R132). -/
inductive FlashReq where
  | keeper | host | spit
  deriving DecidableEq, Repr

/-- What a flash operation does: a 4 KiB fill of the verified block cache, a read that is never cached, a program, an erase
(4 KiB or 64 KiB). -/
inductive FlashKind where
  | fill | read | program | erase4K | erase64K
  deriving DecidableEq, Repr

/-- Who waits for an operation: a boot-window read, the mailbox, a SPIT read in octal mode, the BOOT_ACTIVATE of an HSM command. -/
inductive FlashWaiter where
  | bootWindow (addr len : Nat) | mailbox (addr len : Nat) | spit (addr len : Nat) | keeper (job : Nat)
  deriving DecidableEq, Repr

/-- A flash operation that waits or runs (R128): its number in order of arrival, its rank, who waits for it; a read-ahead fill has nobody. -/
structure FlashOp where
  id      : Nat
  kind    : FlashKind
  addr    : Nat
  len     : Nat
  data    : Bytes
  rank    : Nat
  waiters : List FlashWaiter
  deriving DecidableEq, Repr

/-- What discovery has found at a chip select (R126): not looked at yet, absent, or a device with its SFDP. -/
inductive ChipSel where
  | unseen | absent | found (sfdp : SfdpView)
  deriving DecidableEq, Repr

/-- One flash port: the chip selects as discovered (R126), the protocol mode, the rule table, the ledger with the digest of each index, the append
pointer (R151), the slots (base, size) that R118 denies to every requester, operations waiting, running and suspended (R129). -/
structure FlashPort where
  mode    : Nat
  cs0     : ChipSel
  cs1     : ChipSel
  rules   : Table FlashRule
  ledger  : Table Bytes
  ptr     : Nat
  denied  : List (Nat × Nat)
  queue   : List FlashOp
  running : Option FlashOp
  paused  : Option FlashOp
  deriving DecidableEq, Repr

/-- How far a BOOT_ACTIVATE has come (R119): it waits for staging (R470); the directory of a port, the manifest or the marker of a slot, or the
image is being read; the marker is being programmed, or read back. -/
inductive ActStep where
  | room | dir | manifest (slot : Nat) | marker (slot : Nat) | image | program | readback
  deriving DecidableEq, Repr

/-- A BOOT_ACTIVATE under way: its command, port and class; the directory; the slots still to be read and those closed to writers (base, size); the
manifests and valid SEQ values read so far; the slot chosen, its image so far, its marker. -/
structure Activation where
  job       : Nat
  port      : Nat
  cls       : Nat
  step      : ActStep
  dir       : Bytes
  toRead    : List Nat
  closed    : List (Nat × Nat)
  manifests : Table Bytes
  seqs      : Table Nat
  slot      : Nat
  image     : Bytes
  mark      : Bytes
  deriving DecidableEq, Repr

/-- A visible line of the verified block cache (R139). -/
structure CacheLine where
  port    : Nat
  block   : Nat
  data    : Bytes
  lastUse : Nat
  deriving DecidableEq, Repr

/-- The interposer (R154): FLT_STATUS, the two ports, cache, suspect blocks, counters, class readers and writers, the SPIT
target (R146 to R150) and the mailbox (R145). `fetchErrors` counts the fills that met a flash read error (R140), `acts` are the activations under
way (R119). `buffer` lists the mailbox bytes that are not 0. `allow` is the allow-list of 256
4-byte entries; an entry not listed is 0. -/
structure FlashSt where
  mode           : Nat
  dirPort        : Nat
  policyRejected : Bool
  policyImage    : Bool
  solstice       : Bool
  fla            : FlashPort
  flb            : FlashPort
  cache          : List CacheLine
  useClock       : Nat
  nextOp         : Nat
  suspects       : List (Nat × Nat)
  suspectCount   : Nat
  fetchErrors    : Nat
  refuseCount    : Nat
  lastEvent      : Nat
  readers        : List Nat
  writers        : List Nat
  allow          : Table Nat
  spitPort       : Nat
  spitBase       : Nat
  spitSize       : Nat
  spitWel        : Bool
  spitRstEn      : Bool
  spitBusy       : Bool
  spitErr        : Nat
  mbxAddr        : Nat
  mbxLen         : Nat
  mbxCmd         : Nat
  mbxBusy        : Bool
  mbxOverrun     : Bool
  mbxResult      : Nat
  buffer         : List (Nat × Byte)
  acts           : List Activation
  deriving DecidableEq, Repr

/-! ### Solstice records, SPDM, TDISP (chapters 7 and 8) -/

/-- How far an SPDM connection has come (R179): nothing, version, capabilities, algorithms agreed. -/
inductive SpdmPhase where
  | none | version | capabilities | ready
  deriving DecidableEq, Repr

/-- One SPDM connection: what the signed transcripts hold, and whether the next request gets RequestResynch (R181). -/
structure SpdmConn where
  phase   : SpdmPhase
  msgA    : Bytes
  msgB    : Bytes
  msgL    : Bytes
  resynch : Bool
  deriving DecidableEq, Repr

/-- The keys and initialization vectors of a secured session, of requests and of responses (R195). -/
structure SecKeys where
  reqKey : Bytes
  reqIv  : Bytes
  rspKey : Bytes
  rspIv  : Bytes
  deriving DecidableEq, Repr

/-- A secured session over DOE (R195): its number, whether FINISH has ended the handshake, whether it ends with the response being sent, its
handshake secret with the transcript hash, its transcript, the keys in use with the records counted each way, and the keys that the next
response hands over to. -/
structure SpdmSession where
  sid     : Nat
  up      : Bool
  ending  : Bool
  secret  : Bytes
  trans   : Bytes
  keys    : SecKeys
  reqSeq  : Nat
  rspSeq  : Nat
  next    : Option SecKeys
  deriving DecidableEq, Repr

/-- The record path. `aliasOf` is what the Alias certificates state: keeper digest, SEC_VERSION, and the flags notSecure, recovery and
debug as a mask (R160). `port`, `erase` and
`nextSeq` are what the last scan or append left: 1 FLA, 2 FLB or 0 none; the erase size; the next RING_SEQ. `made` says that a record exists at this boot; `nonces` are the START nonces of locked TDIs, each followed by the 8-byte MMIO reporting offset of its lock request. -/
structure RecordSt where
  aliasOf  : Option (Bytes × Nat × Nat)
  prevKid  : Bytes
  made     : Bool
  port     : Nat
  erase    : Nat
  nextSeq  : Nat
  mctp     : SpdmConn
  doe      : SpdmConn
  sessions : List SpdmSession
  nextSid  : Nat
  nonces   : Table Bytes
  deriving DecidableEq, Repr

/-! ### Watchdogs (chapter 18) -/

/-- One watchdog instance. `cfg` and `hostCfg` are WDG_CFG and WDG_HOSTCFG as read back; `begun` is the microsecond at which the
period began, `done` the slots checked in in it, `seen` those checked in since the healthy run began (R429); `await` is the moment from which
the first write after a keeper restart is waited for (R428); `hard` the start of the hard timer (R425). -/
structure WdgInst where
  cfg      : Nat
  hostCfg  : Nat
  hostSet  : Bool
  armed    : Bool
  boot     : Bool
  begun    : Nat
  window   : Bool
  done     : Nat
  seen     : Nat
  verdict  : Nat
  dups     : Nat
  await    : Option Nat
  hard     : Option Nat
  deriving DecidableEq, Repr

/-- What a watchdog bite does (R426, R427). -/
inductive WdgAction where
  | keeperRestart | chipRestart | winter | hostReset | powerCycle | recoveryBoot | trap | countOnly
  deriving DecidableEq, Repr

/-- A cause of a bite (R422): of WDG_P or WDG_D; KIND 1 EARLY, 2 WRONG_KEY, 3 MISSING; SLOT and VALUE as WDG_LAST_CAUSE shows them. -/
structure WdgCause where
  isP   : Bool
  kind  : Nat
  slot  : Nat
  value : Nat
  deriving DecidableEq, Repr

/-- The watchdogs. `runStart` is the second at which the healthy run began, `healthy` the latch of R429, `restarted` the
keeper restart since chip reset (R426), `owed` an action that waits for a pin pulse to end (R434), `restartDue` a watchdog
chip restart that follows a power-cycle pulse (R427); `causes` are those of the present moment, not resolved yet (R423). -/
structure WdgSt where
  d          : WdgInst
  p          : WdgInst
  countsLost : Bool
  healthy    : Bool
  runStart   : Option Nat
  restarted  : Bool
  owed       : List WdgAction
  causes     : List WdgCause
  restartDue : Bool
  deriving DecidableEq, Repr

/-! ### Basic level (chapter 21) -/

/-- A lock with its lease (R474): the holder's token, the microsecond of the last renewal, the sticky bits. -/
structure LegLock where
  holder  : Option Word
  renewed : Nat
  busy    : Bool
  notHeld : Bool
  expired : Bool
  deriving DecidableEq, Repr

/-- The set-up registers of the session sub-window (R480): OPCODE of LEG_SC_CTRL, HANDLE, PARAM, AAD_LEN, LEN, IV0 to IV3, TAG0 to TAG3. -/
structure LegRegs where
  opcode : Nat
  handle : Nat
  param  : Nat
  aadLen : Nat
  len    : Nat
  iv     : Bytes
  tag    : Bytes
  deriving DecidableEq, Repr

/-- The three locks and the session cipher sub-window (R479 to R483). `core` is the reserved core, `startDue` a START that
waits for it; `input` the bytes written, `given` the output produced, `taken` how much of it has been read; `key` the
context's slot and generation with its key. -/
structure BasicSt where
  digest   : LegLock
  session  : LegLock
  rng      : LegLock
  regs     : LegRegs
  msg      : LegRegs
  core     : Option Nat
  startDue : Bool
  busy     : Bool
  done     : Bool
  zeroed   : Bool
  result   : Nat
  detail   : Nat
  key      : Option (Nat × Nat × Bytes)
  input    : Bytes
  given    : Bytes
  taken    : Nat
  deriving DecidableEq, Repr

/-! ### Monitor and sideband port (chapters 2, 22 and 24) -/

/-- UART modes (R489). -/
inductive MonMode where
  | autobaud | line | framed
  deriving DecidableEq, Repr

/-- The monitor (R500). `fresh` holds between the lock of the rate and the next character (R489); `running` is a request whose reply is
still owed: its code, TAG and the HSM job; a break drops the reply by clearing `reply`. -/
structure MonSt where
  baud      : Nat
  mode      : MonMode
  fresh     : Bool
  owner     : Nat
  debugOpen : Bool
  running   : Option (Nat × Nat × Nat)
  reply     : Bool
  framesOk  : Nat
  framesBad : Nat
  refused   : Nat
  unlocks   : Nat
  failed    : Nat
  deriving DecidableEq, Repr

/-- The sideband port (R51, R521): the I3C dynamic address, and whether the module 0 sideband has come up. -/
structure SidebandSt where
  dynAddr : Option Nat
  up      : Bool
  deriving DecidableEq, Repr

/-! ### The block -/

/-- Everything the spec gives the device but the queue of waiting commands: one structure per unit. -/
structure Block where
  run   : RunSt
  time  : TimeSt
  link  : LinkSt
  q     : QueueSt
  work  : WorkSt
  vlt   : VaultSt
  ste   : StreamSt
  sce   : SessionSt
  dge   : DigestSt
  pke   : PkeSt
  rng   : RngSt
  key   : KeySt
  bbram : BbramSt
  evr   : RecorderSt
  dev   : DevSt
  pins  : PinSt
  pwr   : PowerSt
  kept  : RetainedSt
  kpr   : KeeperSt
  sup   : SupplySt
  tmp   : TamperSt
  otp   : OtpSt
  boot  : BootSt
  flt   : FlashSt
  rcd   : RecordSt
  wdg   : WdgSt
  leg   : BasicSt
  mon   : MonSt
  sb    : SidebandSt
  out   : List Out
  deriving DecidableEq, Repr

/-- The machine: the block, and the commands waiting, first in first out. -/
structure State where
  blk     : Block
  pending : List Instr
  deriving DecidableEq, Repr

/-! ### Changing one unit of the block -/

/-- The block with its `run` changed. -/
def Block.onRun (b : Block) (f : RunSt → RunSt) : Block := { b with run := f b.run }

/-- The block with its `time` changed. -/
def Block.onTime (b : Block) (f : TimeSt → TimeSt) : Block := { b with time := f b.time }

/-- The block with its `link` changed. -/
def Block.onLink (b : Block) (f : LinkSt → LinkSt) : Block := { b with link := f b.link }

/-- The block with its `q` changed. -/
def Block.onQ (b : Block) (f : QueueSt → QueueSt) : Block := { b with q := f b.q }

/-- The block with its `work` changed. -/
def Block.onWork (b : Block) (f : WorkSt → WorkSt) : Block := { b with work := f b.work }

/-- The block with its `vlt` changed. -/
def Block.onVlt (b : Block) (f : VaultSt → VaultSt) : Block := { b with vlt := f b.vlt }

/-- The block with its `ste` changed. -/
def Block.onSte (b : Block) (f : StreamSt → StreamSt) : Block := { b with ste := f b.ste }

/-- The block with its `sce` changed. -/
def Block.onSce (b : Block) (f : SessionSt → SessionSt) : Block := { b with sce := f b.sce }

/-- The block with its `dge` changed. -/
def Block.onDge (b : Block) (f : DigestSt → DigestSt) : Block := { b with dge := f b.dge }

/-- The block with its `pke` changed. -/
def Block.onPke (b : Block) (f : PkeSt → PkeSt) : Block := { b with pke := f b.pke }

/-- The block with its `rng` changed. -/
def Block.onRng (b : Block) (f : RngSt → RngSt) : Block := { b with rng := f b.rng }

/-- The block with its `key` changed. -/
def Block.onKey (b : Block) (f : KeySt → KeySt) : Block := { b with key := f b.key }

/-- The block with its `bbram` changed. -/
def Block.onBbram (b : Block) (f : BbramSt → BbramSt) : Block := { b with bbram := f b.bbram }

/-- The block with its `evr` changed. -/
def Block.onEvr (b : Block) (f : RecorderSt → RecorderSt) : Block := { b with evr := f b.evr }

/-- The block with its `dev` changed. -/
def Block.onDev (b : Block) (f : DevSt → DevSt) : Block := { b with dev := f b.dev }

/-- The block with its `pins` changed. -/
def Block.onPins (b : Block) (f : PinSt → PinSt) : Block := { b with pins := f b.pins }

/-- The block with its `pwr` changed. -/
def Block.onPwr (b : Block) (f : PowerSt → PowerSt) : Block := { b with pwr := f b.pwr }

/-- The block with its `kept` changed. -/
def Block.onKept (b : Block) (f : RetainedSt → RetainedSt) : Block := { b with kept := f b.kept }

/-- The block with its `kpr` changed. -/
def Block.onKpr (b : Block) (f : KeeperSt → KeeperSt) : Block := { b with kpr := f b.kpr }

/-- The block with its `sup` changed. -/
def Block.onSup (b : Block) (f : SupplySt → SupplySt) : Block := { b with sup := f b.sup }

/-- The block with its `tmp` changed. -/
def Block.onTmp (b : Block) (f : TamperSt → TamperSt) : Block := { b with tmp := f b.tmp }

/-- The block with its `otp` changed. -/
def Block.onOtp (b : Block) (f : OtpSt → OtpSt) : Block := { b with otp := f b.otp }

/-- The block with its `boot` changed. -/
def Block.onBoot (b : Block) (f : BootSt → BootSt) : Block := { b with boot := f b.boot }

/-- The block with its `flt` changed. -/
def Block.onFlt (b : Block) (f : FlashSt → FlashSt) : Block := { b with flt := f b.flt }

/-- The block with its `rcd` changed. -/
def Block.onRcd (b : Block) (f : RecordSt → RecordSt) : Block := { b with rcd := f b.rcd }

/-- The block with its `wdg` changed. -/
def Block.onWdg (b : Block) (f : WdgSt → WdgSt) : Block := { b with wdg := f b.wdg }

/-- The block with its `leg` changed. -/
def Block.onLeg (b : Block) (f : BasicSt → BasicSt) : Block := { b with leg := f b.leg }

/-- The block with its `mon` changed. -/
def Block.onMon (b : Block) (f : MonSt → MonSt) : Block := { b with mon := f b.mon }

/-- The block with its `sb` changed. -/
def Block.onSb (b : Block) (f : SidebandSt → SidebandSt) : Block := { b with sb := f b.sb }

/-- The block with its `out` changed. -/
def Block.onOut (b : Block) (f : (List Out) → (List Out)) : Block := { b with out := f b.out }

/-! ### After chip reset: each unit by itself. `lanes`, `cores` and the like are the variant's figures -/

/-- PF0's configuration registers after a link or chip reset (PRESUMED, assumption 19: PCI Express reset values). -/
def PciCfg.reset : PciCfg :=
  { bar0 := 0, bar2 := 0, errEnable := 0, aerMask := 0, aerSev := 0x00462030, aerCorMask := 0x2000, sriovCtl := 0, pageSize := 1, acs := 0,
    doeIn := [], doeOut := [], doeError := false, doeIrq := false }

/-- Link after chip reset: DOWN, the host held in reset (R206), PCI Express defaults (R192; sizes PRESUMED, assumption 19). -/
def LinkSt.reset : LinkSt :=
  { phase := .down, rate := none, w0 := .none, w1 := .none, left0 := false, left1 := false, repaired := 0, writeCheck := false,
    retrains := 0, dmaErrors := 0, badAccess := 0, badAccAddr := 0, refclk := true, numVfs := 0, vfEnable := false, vfBar := 0,
    maxPayload := 128, maxReadReq := 512, cplTimeout := 0, relaxedOrd := true, pwrgdMsg := false, hsPending := none,
    hsNoAck := false, hsResends := 0, fns := [], cfg := PciCfg.reset, held := [] }

/-- The admin set-up registers after chip reset (R234). -/
def AdminRegs.reset : AdminRegs :=
  { sqBase := 0, cqBase := 0, shadow := 0, cfg := 0, enable := false, ready := false, cfgError := false }

/-- No queue exists after chip reset. -/
def QueueSt.reset : QueueSt :=
  { sqs := [], cqs := [], admin := AdminRegs.reset, quotas := [], lastAdm := 0, lastIo := 0, turnLeft := 0, qerrKind := 0, qerrNum := 0,
    qerrCount := 0 }

/-- Nothing in flight after chip reset. -/
def WorkSt.reset : WorkSt := { jobs := [], nextJob := 0, reads := [], nextRead := 0, pieces := [], unsent := [], nextTag := 0, timedOut := [], clock := 0, free := 0 }

/-- The vault after chip reset: every slot free, lowest first (R527), VLT_CFG.RESERVE at its reset value (R303), its mask and check
keys not yet drawn. -/
def VaultSt.reset (reserve : Nat) : VaultSt :=
  { slots := [], fresh := 0, freed := [], ready := false, maskKey := [], checkKey := [], reserve := reserve, useClock := 0, loads := 0,
    idHits := 0, evictions := 0, blobFails := 0, alarms := 0, keysErased := false, waiting := [], selfTest := false, failed := false,
    fails := 0 }

/-- A lane after chip reset: OFF, no keys. -/
def Lane.reset : Lane :=
  { state := .off, admitted := false, alarms := 0, fails := 0, bank := none, spare := none, running := none, assigned := none }

/-- The stream lanes after chip reset (R321). -/
def StreamSt.reset (lanes : Nat) : StreamSt :=
  { lanes := List.replicate lanes Lane.reset, fence := 0, pending := [], bytes := 0, bytesHi := 0, descs := 0, cts := 0 }

/-- A core after chip reset. -/
def CoreU.reset : CoreU := { state := .off, admitted := false, alarms := 0, fails := 0, key := none, job := none, msg := none, late := false }

/-- The session engines after chip reset (R349). -/
def SessionSt.reset (cores : Nat) : SessionSt :=
  { cores := List.replicate cores CoreU.reset, fence := 0, pending := [], msgs := [], tombs := [], parkUs := 50, abandonMs := 2000,
    parkKey := [], authFails := 0, abandoned := 0, parks := 0 }

/-- The register mode after chip reset (R374). -/
def RegDigest.reset : RegDigest :=
  { alg := 0, outLen := 0, tail := 0, open_ := false, busy := false, done := false, early := false, error := false, data := [],
    result := [], runAlg := 0, runLen := 0, runTail := 0 }

/-- The digest engine after chip reset. -/
def DigestSt.reset : DigestSt :=
  { pipes := List.replicate 6 { job := none, alarms := 0, fails := 0, selfTest := false, failed := false }, pending := [],
    rm := RegDigest.reset }

/-- A public-key unit after chip reset. -/
def PkUnit.reset : PkUnit := { state := .idle, queue := [], running := none, fails := 0 }

/-- The public-key engine after chip reset. -/
def PkeSt.reset : PkeSt := { mod := PkUnit.reset, lat := PkUnit.reset, signs := 0, verifies := 0, alarms := 0 }

/-- The random source after chip reset (R374), given the bytes each instance has drawn so far. -/
def RngSt.reset (drawn0 drawn1 raw : Nat) : RngSt :=
  { state := .startup, inst0 := false, inst1 := false, drawn0 := drawn0, drawn1 := drawn1, reqs0 := 0, reqs1 := 0, seeded0 := 0,
    seeded1 := 0, repFails := 0, propFails := 0, runFails := [], selfTests := 0, fails := 0, reseeds := 0, bytes := 0, bytesHi := 0,
    raw := raw, alarms := 0 }

/-- The key store after chip reset: it holds no key (R452). -/
def KeySt.reset : KeySt :=
  { deviceIdCdi := none, mfgCdi := none, aliasCdi := none, deviceRoot := none, recordKey := none, slotCheck := none, localRoot := none,
    keks := [], domState := 0, epoch := 0, member := 0, root := none, prevRoot := none, blobNext := 0, blobLimit := 0, imp := none,
    nextImport := 1, restarted := false, checkFails := 0, commits := 0, commitNo := 0, dataBad := [], ctlBad := [],
    badPair := none }

/-- BBRAM that holds nothing. -/
def BbramSt.blank : BbramSt := { tag := 0, slots := [], recs := [], bitmap := [], owner0 := none }

/-- The recorder after chip reset (R450). -/
def RecorderSt.reset : RecorderSt :=
  { cells := [], seq := 0, seqHi := 0, sel := 0, notice := 0, alertSev := 6, noticeSev := 4,
    rates := List.replicate 6 0x401 ++ List.replicate 2 0x1010, solstice := none, countsLost := false, tally := [] }

/-- The DEV window after chip reset (R506). -/
def DevSt.reset : DevSt := { irqCause := 0, irqEnable := 0, rsvdWrites := 0, discards := 0 }

/-- The pins in STATE RESET (R46, R54). Levels of inputs stay as the board holds them. -/
def PinSt.reset (sysRstLow hostPwrgd : Bool) : PinSt :=
  { straps := 0, unstable := 0, sbDisabled := false, sysRstLow := sysRstLow, hostPwrgd := hostPwrgd, released := false,
    hostPulse := false, pwrgdHold := false, winterHold := false, bmcHigh := false, platCycle := false, spitAlert := false,
    spitCause := 0, sbAlert := false }

/-- The power governor after chip reset (R472): PWR_STATUS.TJ reads 0 (-64 °C) until its sensors are read, PWR_CAP is at the variant's top value, no
unit is admitted. -/
def PowerSt.reset (cap kind : Nat) : PowerSt :=
  { tj := -64, settling := false, capLimited := false, avsFault := false, canarySlow := false, pref := 0, cap := cap, target := 750,
    goal := 750, avsBusy := false, avsFrom := 0, measured := 0, unitSel := 0, unitInst := 0, done := false, result := 0, resetting := none,
    quiesce := [], goalLanes := [], goalCores := [], restarts := 0, kind := kind, warmRun := 0, avsErrors := 0, decisions := 0 }

/-- The retained region after its sweep (R453). -/
def RetainedSt.swept (kind : Nat) : RetainedSt := { magicOk := true, thaw := false, kind := kind, run := 0, frames := [], save := [] }

/-- The keeper after chip reset. -/
def KeeperSt.reset : KeeperSt := { hsm := [], sessions := [], offer := none, bindings := [], stopped := false, update := none }

/-- A supply that has been good since the count began. -/
def Rail.good_ : Rail := { started := true, good := true, startedAt := 0, goodAt := 0, lowAt := 0 }

/-- Supplies in order, VBAT at 3.0 V. -/
def SupplySt.initial : SupplySt :=
  { ana := Rail.good_, core := Rail.good_, ucie := Rail.good_, io := Rail.good_, pgood := true, held := false, fault := 0,
    faultCount := 0, newFaults := [], vbatMv := 3000, vbatSeen := false, seenReg := false, faultReg := 0, countReg := 0 }

/-- TMP_CFG when the battery domain is powered (R400, R415). -/
def tmpCfgDefault : Word := 0x03C1003F

/-- The tamper monitor when the battery domain is powered. -/
def TamperSt.initial : TamperSt :=
  { latched := false, mask := 0, first := 0, lastCause := 0, frostTime := 0, frostCount := 0, cfg := tmpCfgDefault,
    cfgReq := tmpCfgDefault, stamps := [], digest := List.replicate 48 0, nonce := none, releasing := false, inputs := 0, xtalAt := 0 }

/-- BOOT after chip reset. -/
def BootSt.reset : BootSt :=
  { thawReason := 0, mfgKey := false, filterArmed := false, bmcReleased := false, hostReleased := false, persisted := false,
    recordHold := false, katFail := false, noTransport := false, fallback := false, slot := 0, source := 0, romLock := false,
    udsClosed := false, order := [], pos := 0, wait := .none, logs := [], classes := [], port := none, directory := [], firstDir := none, measures := [],
    frozenSet := false, offer := none, lastOutcome := 0 }

/-- A flash port after chip reset. -/
def FlashPort.reset : FlashPort :=
  { mode := 0, cs0 := .unseen, cs1 := .unseen, rules := [], ledger := [], ptr := 0, denied := [], queue := [], running := none, paused := none }

/-- The interposer after chip reset (R154). -/
def FlashSt.reset : FlashSt :=
  { mode := 0, dirPort := 0, policyRejected := false, policyImage := false, solstice := false, fla := FlashPort.reset,
    flb := FlashPort.reset, cache := [], useClock := 0, nextOp := 0, suspects := [], suspectCount := 0, fetchErrors := 0, refuseCount := 0, lastEvent := 0,
    readers := [], writers := [], allow := [], spitPort := 0xFF, spitBase := 0, spitSize := 0, spitWel := false, spitRstEn := false,
    spitBusy := false, spitErr := 0, mbxAddr := 0, mbxLen := 0, mbxCmd := 0, mbxBusy := false, mbxOverrun := false, mbxResult := 0,
    buffer := [], acts := [] }

/-- An SPDM connection nothing has been sent on. -/
def SpdmConn.reset : SpdmConn := { phase := .none, msgA := [], msgB := [], msgL := [], resynch := false }

/-- The record path after chip reset. -/
def RecordSt.reset : RecordSt :=
  { aliasOf := none, prevKid := [], made := false, port := 0, erase := 0, nextSeq := 1, mctp := SpdmConn.reset, doe := SpdmConn.reset,
    sessions := [], nextSid := 0xFF01, nonces := [] }

/-- A watchdog instance after chip reset: off (R417). -/
def WdgInst.reset : WdgInst :=
  { cfg := 0, hostCfg := 0, hostSet := false, armed := false, boot := false, begun := 0, window := false, done := 0, seen := 0,
    verdict := 0, dups := 0, await := none, hard := none }

/-- The watchdogs after chip reset. -/
def WdgSt.reset : WdgSt :=
  { d := WdgInst.reset, p := WdgInst.reset, countsLost := false, healthy := false, runStart := none, restarted := false, owed := [],
    causes := [], restartDue := false }

/-- A lock that nobody holds. -/
def LegLock.reset : LegLock := { holder := none, renewed := 0, busy := false, notHeld := false, expired := false }

/-- The set-up registers of the session sub-window after chip reset. -/
def LegRegs.reset : LegRegs :=
  { opcode := 0, handle := 0, param := 0, aadLen := 0, len := 0, iv := List.replicate 16 0, tag := List.replicate 16 0 }

/-- The basic level after chip reset. -/
def BasicSt.reset : BasicSt :=
  { digest := LegLock.reset, session := LegLock.reset, rng := LegLock.reset, regs := LegRegs.reset, msg := LegRegs.reset, core := none, startDue := false, busy := false, done := false, zeroed := false,
    result := 0, detail := 0, key := none, input := [], given := [], taken := 0 }

/-- The monitor after chip reset (R500). -/
def MonSt.reset : MonSt :=
  { baud := 0, mode := .autobaud, fresh := false, owner := 0, debugOpen := false, running := none, reply := true, framesOk := 0,
    framesBad := 0, refused := 0, unlocks := 0, failed := 0 }

/-- The sideband port after chip reset. -/
def SidebandSt.reset : SidebandSt := { dynAddr := none, up := false }

/-- A word of OTP as Krazenal ships a JT-H48F (R93, R526): state PROVISION, CONFIG0 with VARIANT and TEST_ACCESS_OFF, root keys 0 and 8
for classes 0 and 1; hashes, identities and the unique device secret are the die's own. -/
def shippedOtp : Table Nat :=
  [(0x000, 0x00FFFFFF)] ++
  (List.range 6).map (fun i => (0x002 + i, (Config.otpField (0x002 + i)).toNat)) ++
  [(0x008, 0x04000001)] ++
  (List.range 8).map (fun i => (0x010 + i, (Config.otpField (0x010 + i)).toNat)) ++
  (List.range 52).map (fun i => (0x018 + i, if i % 13 = 12 then 0 else (Config.otpField (0x018 + i)).toNat)) ++
  (List.range 12).map (fun i => (0x050 + i, (Config.otpField (0x050 + i)).toNat)) ++ [(0x05C, 0x03)] ++
  (List.range 12).map (fun i => (0x0B8 + i, (Config.otpField (0x0B8 + i)).toNat)) ++ [(0x0C4, 0x03)]

/-- OTP as shipped, before the first ROM entry has read it. -/
def OtpSt.shipped : OtpSt :=
  { cells := shippedOtp, shadow := [], torn := false, wiped := false, mismatch := false,
    vaultDie := (List.range 3).map (fun i => (Config.otpField (0x005 + i)).toNat), vaultRd := [0, 0, 0], nonce := none,
    resetDue := false }

/-- The block right after a power-on reset of a JT-H48F as shipped (R26, R452, R526): STATE RESET, supplies good, ROM not yet
entered; BBRAM blank; the seconds count at 0. -/
def Block.reset : Block :=
  { run := { variant := .jtH48F, state := .reset, keysLocked := false, lcs := 2 }
    time := { secs := 0, subsec := 0, usec := 0, phase := 0, mono := 0 }
    link := LinkSt.reset
    q := QueueSt.reset
    work := WorkSt.reset
    vlt := VaultSt.reset 64
    ste := StreamSt.reset 8
    sce := SessionSt.reset 64
    dge := DigestSt.reset
    pke := PkeSt.reset
    rng := RngSt.reset 0 0 0
    key := KeySt.reset
    bbram := BbramSt.blank
    evr := RecorderSt.reset
    dev := DevSt.reset
    pins := PinSt.reset false true
    pwr := PowerSt.reset 440 1
    kept := RetainedSt.swept 1
    kpr := KeeperSt.reset
    sup := SupplySt.initial
    tmp := TamperSt.initial
    otp := OtpSt.shipped
    boot := BootSt.reset
    flt := FlashSt.reset
    rcd := RecordSt.reset
    wdg := WdgSt.reset
    leg := BasicSt.reset
    mon := MonSt.reset
    sb := SidebandSt.reset
    out := [] }

/-- The machine right after reset: no command waits. -/
def State.reset : State := { blk := Block.reset, pending := [] }

end Sys2Proof.Machine
end

