-- ==== Sys2Proof/Machine/Ops.lean ====
section
/-! DEFINITION. The named operations every unit shares: time, what leaves the block, functions and MSI-X, device interrupts,
device reads of host memory, ignored writes. -/

namespace Sys2Proof.Machine

/-! ### Variants (R1, R17, R508) -/

/-- Stream lanes carried (R1). -/
def lanesOf : Variant → Nat
  | .jtH48F => 8
  | .jtH48S => 4
  | .jtH48B => 0

/-- Session cores carried (R1). -/
def coresOf : Variant → Nat
  | .jtH48F => 64
  | .jtH48S => 32
  | .jtH48B => 0

/-- Vault slots (R285). -/
def slotsOf : Variant → Nat
  | .jtH48F => 1048576
  | .jtH48S => 16384
  | .jtH48B => 4096

/-- Parked-message slots (R17). -/
def parkedOf : Variant → Nat
  | .jtH48F => 65536
  | .jtH48S => 2048
  | .jtH48B => 0

/-- Part-log entries (R334). -/
def partLogOf : Variant → Nat
  | .jtH48F => 262144
  | .jtH48S => 16384
  | .jtH48B => 0

/-- Ledger blocks per flash port (R1). -/
def ledgerOf : Variant → Nat
  | .jtH48F => 131072
  | .jtH48S => 16384
  | .jtH48B => 16384

/-- Release-on-verify limit of one message (R341, SCE_HOLD_LIMIT). -/
def holdLimitOf : Variant → Nat
  | .jtH48F => 16777216
  | .jtH48S => 1048576
  | .jtH48B => 0

/-- The staging pool (R1, R17). -/
def stagingPoolOf : Variant → Nat
  | .jtH48F => 33554432
  | .jtH48S | .jtH48B => 2097152

/-- Staging open to image verification (R470). -/
def imageShareOf : Variant → Nat
  | .jtH48F => 4194304
  | .jtH48S | .jtH48B => 2097152

/-- Staging open to release-on-verify (R341, R470). -/
def holdAccountOf : Variant → Nat
  | .jtH48F => 29360128
  | .jtH48S => 2097152
  | .jtH48B => 0

/-- DEV_STATUS.STATE (R26). -/
def stateCode : DevState → Nat
  | .reset => 0
  | .rom => 1
  | .keeperBoot => 2
  | .service => 3
  | .thaw => 4
  | .winter => 5
  | .frozen => 6

/-! ### Time (R23) -/

/-- The timestamp of an event (R439): seconds in bits 62 to 15, sub-seconds in 14 to 0. -/
def stamp (b : Block) : Nat := b.time.secs * 32768 + b.time.subsec

/-- A microsecond passes (R23): the crystal goes on while the battery domain has a supply, VBAT within its range or VDD_ANA (R71); the 1 MHz
reference exists while VDD_ANA is good. -/
def tick (b : Block) : Block :=
  let bat := b.sup.ana.good || decide (2400 ≤ b.sup.vbatMv)
  b.onTime (fun t =>
    let ph := t.phase + 32768
    let sub := t.subsec + ph / 1000000
    { mono := t.mono + 1
      usec := if b.sup.ana.good then t.usec + 1 else t.usec
      phase := if bat then ph % 1000000 else t.phase
      subsec := if bat then sub % 32768 else t.subsec
      secs := if bat then (t.secs + sub / 32768) % 2 ^ 48 else t.secs })

/-- Quiesce has been asked of a unit (R455). -/
def quiescing (b : Block) (u : UnitId) : Bool := b.pwr.quiesce.any (fun q => q.1 == u)

/-- The next value of the clock that orders what the spec orders by time. -/
def bumpClock (b : Block) : Block := b.onWork (fun w => { w with clock := w.clock + 1 })

/-! ### Functions (R187 to R197) -/

/-- A function as chip reset leaves it: nothing enabled, an empty MSI-X table, CONFIG_UNLOCKED. -/
def FnState.fresh : FnState :=
  { bme := false, cmd := 0, d3hot := false, msixEnable := false, funcMask := false, msix := [], pba := [], resets := 0,
    tdi := .configUnlocked,
    aer := { correctable := 0, poisoned := false, unsupported := false, abort := false, timeout := false,
             unexpected := false, advisory := false } }

/-- What the device holds for a function. -/
def fnOf (b : Block) (fn : Nat) : FnState := tgetD FnState.fresh b.link.fns fn

/-- The block with one function's state changed. -/
def onFn (b : Block) (fn : Nat) (f : FnState → FnState) : Block :=
  b.onLink (fun l => { l with fns := tmod FnState.fresh f l.fns fn })

/-- PF0, or a VF enabled through NumVFs and VF Enable (R188). -/
def fnEnabled (b : Block) (fn : Nat) : Bool :=
  fn == 0 || (b.link.vfEnable && decide (fn ≤ b.link.numVfs) && decide (fn ≤ 255))

/-- A function that may issue no request: Bus Master Enable clear, or D3hot (R203). -/
def fnHalted (b : Block) (fn : Nat) : Bool := !(fnOf b fn).bme || (fnOf b fn).d3hot

/-- The world a function's requests run in (R197). -/
def worldOf (b : Block) (fn : Nat) : Bool := decide (fn ≠ 0) && decide ((fnOf b fn).tdi = Tdi.run)

/-- The MSI-X entry of a vector; an entry never written is masked (PRESUMED, assumption 19, the PCI Express reset value). -/
def msixEntry (f : FnState) (vec : Nat) : MsixEntry := tgetD { addr := 0, data := 0, mask := true } f.msix vec

/-! ### What leaves the block -/

/-- A number no function has, for what waits on the link alone. -/
def noFn : Nat := 256

/-- Send something over the host link on behalf of a function, or hold it back: the link is not ACTIVE (R40, R185), or the
function's requests are halted (R203). -/
def emit (fn : Nat) (o : Out) (b : Block) : Block :=
  if b.link.phase = .active ∧ (fn = noFn ∨ fnHalted b fn = false) then { b with out := b.out ++ [o] }
  else b.onLink (fun l => { l with held := l.held ++ [(fn, o)] })

/-- Send something that does not travel over the host link. -/
def send (o : Out) (b : Block) : Block := { b with out := b.out ++ [o] }

/-- Send an MCTP message, its type in front, fragmented into packets (R178) of the 64-byte baseline transmission unit (PRESUMED, assumption 18, DSP0236). -/
def mctpSend (type : Nat) (body : Bytes) (b : Block) : Block :=
  let ps := chunks 64 (lePut 1 type ++ body)
  { b with out := b.out ++ (List.range ps.length).map (fun i => .mctp (i == 0) (i + 1 == ps.length) (i % 4) (ps.getD i [])) }

/-- Send a read request that waits, under a free 10-bit tag, or let it go on waiting: the link or its function carries no request, or 768 are
outstanding (R192). The tags are 256 to 1,023, those PCI Express gives a 10-bit requester (PRESUMED, assumption 2). -/
def sendPiece (b : Block) (p : ReadPiece) : Block :=
  let free (k : Nat) : Bool := (tget b.work.pieces (256 + k % 768)).isNone
  match lowestFrom free b.work.nextTag 768 with
  | some k =>
    if b.link.phase = .active ∧ fnHalted b p.fn = false then
      let tag := 256 + k % 768
      { b.onWork (fun w => { w with
          pieces := tset w.pieces tag p, nextTag := (k + 1) % 768, timedOut := tdel w.timedOut tag }) with
        out := b.out ++ [.hostRead tag p.fn p.world p.addr p.len] }
    else b.onWork (fun w => { w with unsent := w.unsent ++ [p] })
  | none => b.onWork (fun w => { w with unsent := w.unsent ++ [p] })

/-- Send the read requests that wait and may leave, in order. -/
def pumpReads (b : Block) : Block := b.work.unsent.foldl sendPiece (b.onWork (fun w => { w with unsent := [] }))

/-- Send what was held back and may leave now, in order, and the reads after it. -/
def flushHeld (b : Block) : Block :=
  let go (p : Nat × Out) : Bool := decide (b.link.phase = .active) && (p.1 == noFn || !fnHalted b p.1)
  pumpReads { b.onLink (fun l => { l with held := l.held.filter (fun p => !go p) }) with
    out := b.out ++ (b.link.held.filter go).map (·.2) }

/-- Drop what is held back for some functions (R39: their queues end). -/
def dropHeld (fns : Nat → Bool) (b : Block) : Block :=
  b.onLink (fun l => { l with held := l.held.filter (fun p => !fns p.1) })

/-- Answer a host request to a BAR (R201); it waits while the link cannot carry it. -/
def reply (fn : Nat) (st : CplStatus) (data : Bytes) (b : Block) : Block := emit noFn (.completion fn st data) b

/-! ### MSI-X (R193, R194) -/

/-- Send the message of a vector that may be sent. -/
def msixSend (fn vec : Nat) (b : Block) : Block :=
  let e := msixEntry (fnOf b fn) vec
  emit fn (.msix fn e.addr e.data) b

/-- A message is owed on a vector: sent, or left pending when the vector or the function is masked; none while MSI-X Enable
is clear (R194). -/
def msixOwe (fn vec : Nat) (b : Block) : Block :=
  let f := fnOf b fn
  if f.msixEnable = false then b
  else if f.funcMask || (msixEntry f vec).mask then
    onFn b fn (fun f => { f with pba := if f.pba.contains vec then f.pba else f.pba ++ [vec] })
  else msixSend fn vec b

/-- Send the one merged message of a vector that has just become unmasked with its pending bit set, and clear the bit. -/
def msixRelease (fn vec : Nat) (b : Block) : Block :=
  let f := fnOf b fn
  if f.msixEnable && f.pba.contains vec && !f.funcMask && !(msixEntry f vec).mask then
    msixSend fn vec (onFn b fn (fun f => { f with pba := f.pba.filter (· != vec) }))
  else b

/-! ### Device interrupts (R509) and ignored writes (R13) -/

/-- Cause bits of DEV_IRQ_CAUSE (R506). -/
def irqQueueError : Nat := 0
def irqRecorder : Nat := 1
def irqEngineAlarm : Nat := 2
def irqFlash : Nat := 3
def irqMailbox : Nat := 4
def irqUnitReset : Nat := 5
def irqGovernor : Nat := 6
def irqLink : Nat := 7
def irqDmaError : Nat := 8
def irqBadAccess : Nat := 9
def irqKeysLocked : Nat := 10
def irqFrozen : Nat := 11

/-- Set a cause bit; a message is owed on PF0 vector 0 when the bit rises while its enable is 1 (R509). -/
def raiseIrq (i : Nat) (b : Block) : Block :=
  if bit b.dev.irqCause i then b
  else
    let b := b.onDev (fun d => { d with irqCause := d.irqCause ||| 2 ^ i })
    if bit b.dev.irqEnable i then msixOwe 0 0 b else b

/-- Count an ignored write in DEV_RSVD_WRITES (R13); the count raises BAD_ACCESS. -/
def rsvdWrite (b : Block) : Block :=
  raiseIrq irqBadAccess (b.onDev (fun d => { d with rsvdWrites := sat32 (d.rsvdWrites + 1) }))

/-- Count descriptors ended without a completion in DEV_RESET_DISCARDS (R203). -/
def discard (n : Nat) (b : Block) : Block := b.onDev (fun d => { d with discards := sat32 (d.discards + n) })

/-- Record an AER event of a function (R201). -/
def noteAer (fn : Nat) (f : Aer → Aer) (b : Block) : Block := onFn b fn (fun s => { s with aer := f s.aer })

/-- The uncorrectable errors R201 names, by their bit in AER's uncorrectable status (PRESUMED, assumption 19 from PCI Express). -/
def aerPoisoned : Nat := 12
def aerTimeout : Nat := 14
def aerAbort : Nat := 15
def aerUnexpected : Nat := 16
def aerUnsupported : Nat := 20

/-- Latch an uncorrectable error. -/
def aerSet (i : Nat) (a : Aer) : Aer :=
  { a with
    poisoned := a.poisoned || i == aerPoisoned, timeout := a.timeout || i == aerTimeout, abort := a.abort || i == aerAbort
    unexpected := a.unexpected || i == aerUnexpected, unsupported := a.unsupported || i == aerUnsupported }

/-- An uncorrectable error that the device recovers from (R201): latched, and reported as Advisory Non-Fatal through ERR_COR while its severity
bit says non-fatal; masks and reporting enables as PCI Express has them (PRESUMED, assumption 19). ERR_FATAL is never signalled. -/
def advise (fn i : Nat) (b : Block) : Block :=
  let c := b.link.cfg
  let b := noteAer fn (fun a => { aerSet i a with advisory := a.advisory || !bit c.aerSev i }) b
  if bit c.aerSev i || bit c.aerMask i || bit c.aerCorMask 13 || !bit c.errEnable 0 || (i == aerUnsupported && !bit c.errEnable 3) then b
  else emit noFn (.errCor fn) b

/-- A correctable error (R201): latched under its bit of the correctable status, and reported through ERR_COR unless masked. -/
def correctable (fn i : Nat) (b : Block) : Block :=
  let c := b.link.cfg
  let b := noteAer fn (fun a => { a with correctable := a.correctable ||| 2 ^ i }) b
  if bit c.aerCorMask i || !bit c.errEnable 0 then b else emit noFn (.errCor fn) b

/-! ### Device reads of host memory -/

/-- The pieces of a range that end at multiples of a power of two, each with its address and length: none is longer than it. -/
def alignedPieces (m a l : Nat) : List (Nat × Nat) :=
  if l = 0 then []
  else (List.range ((a + l - 1) / m + 1 - a / m)).map (fun i =>
    let lo := max a (m * (a / m + i))
    (lo, min (a + l) (m * (a / m + i + 1)) - lo))

/-- The requests of a read: its ranges in stream order from an offset on, cut to requests already. -/
def requestsOf (num fn : Nat) (world : Bool) : Nat → List (Nat × Nat) → List ReadPiece
  | _, [] => []
  | off, (a, l) :: rest => { num := num, off := off, fn := fn, world := world, addr := a, len := l } :: requestsOf num fn world (off + l) rest

/-- The longest read request: Max Read Request Size, at most 4,096 B (R192). -/
def readLimit (b : Block) : Nat := max 128 (min 4096 b.link.maxReadReq)

/-- The longest posted write: Max Payload Size, at most 512 B (R192). -/
def writeLimit (b : Block) : Nat := max 128 (min 512 b.link.maxPayload)

/-- Issue a device read of host ranges, in the world given: requests of at most the Max Read Request Size, none across a 4 KiB boundary of host
addresses (R192, R313). -/
def issueRead (fn : Nat) (world : Bool) (kind : ReadKind) (segs : List (Nat × Nat)) (b : Block) : Block :=
  let num := b.work.nextRead
  let req : ReadReq := { num := num, fn := fn, world := world, kind := kind, len := (segs.map (·.2)).sum, got := [] }
  let ps := requestsOf num fn world 0 (segs.flatMap (fun r => alignedPieces (readLimit b) r.1 r.2))
  pumpReads (b.onWork (fun w => { w with nextRead := num + 1, reads := w.reads ++ [req], unsent := w.unsent ++ ps }))

/-- The descriptor with an id. -/
def jobOf (b : Block) (id : Nat) : Option Job := b.work.jobs.find? (fun j => j.id == id)

/-- Change the descriptor with an id. -/
def onJob (b : Block) (id : Nat) (f : Job → Job) : Block :=
  b.onWork (fun w => { w with jobs := w.jobs.map (fun j => if j.id = id then f j else j) })

/-- Forget the reads some predicate names: their requests not yet sent are not sent, what the others bring is dropped. -/
def dropReads (p : ReadReq → Bool) (b : Block) : Block :=
  b.onWork (fun w =>
    let gone := (w.reads.filter p).map (·.num)
    { w with reads := w.reads.filter (fun r => !p r), unsent := w.unsent.filter (fun q => !gone.contains q.num) })

end Sys2Proof.Machine
end

