-- ==== Sys2Proof/Machine/Bbram.lean ====
section
/-! DEFINITION. BBRAM record pairs: where copies stand, CHECK, judging a pair, committing and erasing one (R271 to R275). -/

namespace Sys2Proof.Machine

/-- A pair that holds nothing but zeros. -/
def Pair.empty : Pair := { ctl := 0, a := [], b := [] }

/-- What a pair is judged to be (R274): a VALID one gives its GEN and the bytes of the selected copy. -/
inductive PairState where
  | empty | valid (gen : Nat) (copy : Bytes) | corrupt
  deriving DecidableEq, Repr

/-- Length of a copy of record `i` (R271). -/
def recLen (i : Nat) : Nat :=
  if i = 2 then 256 else if i = 3 then 128 else if i = 4 then 32 else 64

/-- BBRAM offset of copy A (sel 0) or B (sel 1) of record `i` (R271). -/
def recOff (i sel : Nat) : Nat :=
  (if i = 0 then 0x3200 else if i = 1 then 0x3280 else if i = 2 then 0x3300 else if i = 3 then 0x3500 else 0x3E00)
    + sel * recLen i

/-- BBRAM offset of a key-slot copy (R271). -/
def slotOff (i sel : Nat) : Nat := 0x200 + 192 * i + 96 * sel

/-- CHECK of a copy (R273). -/
def bbCheck (key : Bytes) (off : Nat) (body : Bytes) : Bytes :=
  kmac256 key (lePut 2 off ++ body) 16 (ascii "JKH BBRAM")

/-- A control word (R274). -/
def ctlWord (gen sel : Nat) : Word :=
  let lo := (gen % 256) * 256 + sel % 2
  word ((0xFFFF - lo) * 65536 + lo)

/-- A control word is well formed (R274). -/
def ctlOk (w : Word) : Bool :=
  let lo := w.toNat % 65536
  decide (w.toNat / 65536 = 0xFFFF - lo) && decide (bits lo 7 1 = 0)

/-- Judge a pair (R274) under a key; `genAt` is where the copy holds its GEN, `off` gives a copy's offset. -/
def judgePair (key : Bytes) (off : Nat → Nat) (n genAt : Nat) (p : Pair) : PairState :=
  if p.ctl = 0 then .empty
  else
    let sel := p.ctl.toNat % 2
    let gen := bits p.ctl.toNat 15 8
    let copy := if sel = 0 then p.a else p.b
    if ctlOk p.ctl && decide (copy.length = n) &&
        decide (bbCheck key (off sel) (copy.take (n - 16)) = copy.drop (n - 16)) &&
        decide ((byteAt copy genAt).toNat = gen) then
      .valid gen copy
    else .corrupt

/-- The pair after a commit (R275): the other copy takes the next GEN, and the control word selects it. `body` gives the
bytes before CHECK for a GEN. -/
def commitPair (key : Bytes) (off : Nat → Nat) (body : Nat → Bytes) (p : Pair) : Pair :=
  let gen := if p.ctl = 0 then 1 else (bits p.ctl.toNat 15 8 + 1) % 256
  let sel := if p.ctl = 0 then 0 else 1 - p.ctl.toNat % 2
  let bd := body gen
  let copy := bd ++ bbCheck key (off sel) bd
  if sel = 0 then { p with a := copy, ctl := ctlWord gen 0 } else { p with b := copy, ctl := ctlWord gen 1 }

/-- The record key, or nothing derived. -/
def recordKey (b : Block) : Bytes := b.key.recordKey.getD []

/-- The slot check key, or nothing derived. -/
def slotCheckKey (b : Block) : Bytes := b.key.slotCheck.getD []

/-- The state of record `i`. -/
def recState (b : Block) (i : Nat) : PairState :=
  judgePair (recordKey b) (recOff i) (recLen i) 0 (tgetD Pair.empty b.bbram.recs i)

/-- The payload of record `i` when it is VALID: the bytes between GEN and CHECK. -/
def recPayload (b : Block) (i : Nat) : Option Bytes :=
  match recState b i with
  | .valid _ c => some ((c.drop 1).take (recLen i - 17))
  | _ => none

/-- Count a commit (KEY_COMMITS). -/
def countCommit (b : Block) : Block := b.onKey (fun k => { k with commits := sat32 (k.commits + 1) })

/-- One commit (R275): `f` is the pair after it, `put` stores the pair, `n` is the pair's number. With data that does not read back, the pair stands as
before; a control word that does not read back holds what it holds. After either, nothing more is committed until the failure has been answered. -/
def commitAs (n : Nat) (f : Pair) (put : Pair → Block → Block) (b : Block) : Block :=
  let k := b.key.commitNo
  if b.key.badPair.isSome then b
  else
    let b := b.onKey (fun x => { x with commitNo := k + 1 })
    if b.key.dataBad.contains k then b.onKey (fun x => { x with badPair := some n })
    else if b.key.ctlBad.contains k then
      (put { f with ctl := Config.strayWord k } b).onKey (fun x => { x with badPair := some n })
    else countCommit (put f b)

/-- A commit that no HSM command waits for: whatever failed before it, and its own failure, stay apart. -/
def commitAlone (f : Block → Block) (b : Block) : Block :=
  (f (b.onKey (fun k => { k with badPair := none }))).onKey (fun k => { k with badPair := b.key.badPair })

/-- Commit a payload into record `i` (R275); a CORRUPT record is erased and taken as EMPTY first. -/
def commitRec (i : Nat) (payload : Bytes) (b : Block) : Block :=
  let p0 := tgetD Pair.empty b.bbram.recs i
  let p := if recState b i = .corrupt then Pair.empty else p0
  let body (g : Nat) : Bytes := [BitVec.ofNat 8 g] ++ slice payload 0 (recLen i - 17)
  commitAs (64 + i) (commitPair (recordKey b) (recOff i) body p) (fun q b => b.onBbram (fun m => { m with recs := tset m.recs i q })) b

/-- The slot stream of a key slot and GEN (R261, R273): 64 bytes. -/
def slotStream (b : Block) (slot gen : Nat) : Bytes :=
  kdf (b.key.deviceRoot.getD []) "JKH slot stream" [BitVec.ofNat 8 slot, BitVec.ofNat 8 gen] 64

/-- The state of a key slot. -/
def slotState (b : Block) (i : Nat) : PairState :=
  judgePair (slotCheckKey b) (slotOff i) 96 0x40 (tgetD Pair.empty b.bbram.slots i)

/-- The key and the ATTR of a VALID key slot, the key without its stream (R273). -/
def slotKey (b : Block) (i : Nat) : Option (Bytes × Bytes) :=
  match slotState b i with
  | .valid g c =>
    let attr := (c.drop 0x40).take 16
    some ((xorBytes (c.take 64) (slotStream b i g)).take (byteAt attr 3).toNat, attr)
  | _ => none

/-- Commit a key and its ATTR (GEN ignored) into a key slot (R275). -/
def commitSlot (i : Nat) (key attr : Bytes) (b : Block) : Block :=
  let p := tgetD Pair.empty b.bbram.slots i
  let body (g : Nat) : Bytes :=
    xorBytes (slice key 0 64) (slotStream b i g) ++ [BitVec.ofNat 8 g] ++ slice (attr.drop 1) 0 15
  commitAs i (commitPair (slotCheckKey b) (slotOff i) body p) (fun q b => b.onBbram (fun m => { m with slots := tset m.slots i q })) b

/-- Erase a key slot: both copies zeroed, then the control word (R275). -/
def eraseSlot (i : Nat) (b : Block) : Block :=
  if b.key.badPair.isSome then b else countCommit (b.onBbram (fun m => { m with slots := tdel m.slots i }))

/-- Erase record `i`. -/
def eraseRec (i : Nat) (b : Block) : Block := b.onBbram (fun m => { m with recs := tdel m.recs i })

end Sys2Proof.Machine
end

