-- ==== Sys2Proof/Machine/Sha2.lean ====
section
/-! DEFINITION. SHA-256, SHA-384 and SHA-512 (PRESUMED, assumption 16, FIPS 180-4: the spec names the standard). -/

namespace Sys2Proof.Machine

/-- The round constants of SHA-256, first one most significant. -/
def sha256K : Nat := 0x428A2F9871374491B5C0FBCFE9B5DBA53956C25B59F111F1923F82A4AB1C5ED5D807AA9812835B01243185BE550C7DC372BE5D7480DEB1FE9BDC06A7C19BF174E49B69C1EFBE47860FC19DC6240CA1CC2DE92C6F4A7484AA5CB0A9DC76F988DA983E5152A831C66DB00327C8BF597FC7C6E00BF3D5A7914706CA63511429296727B70A852E1B21384D2C6DFC53380D13650A7354766A0ABB81C2C92E92722C85A2BFE8A1A81A664BC24B8B70C76C51A3D192E819D6990624F40E3585106AA07019A4C1161E376C082748774C34B0BCB5391C0CB34ED8AA4A5B9CCA4F682E6FF3748F82EE78A5636F84C878148CC7020890BEFFFAA4506CEBBEF9A3F7C67178F2

/-- The round constants of SHA-512 and SHA-384, first one most significant. -/
def sha512K : Nat := 0x428A2F98D728AE227137449123EF65CDB5C0FBCFEC4D3B2FE9B5DBA58189DBBC3956C25BF348B53859F111F1B605D019923F82A4AF194F9BAB1C5ED5DA6D8118D807AA98A303024212835B0145706FBE243185BE4EE4B28C550C7DC3D5FFB4E272BE5D74F27B896F80DEB1FE3B1696B19BDC06A725C71235C19BF174CF692694E49B69C19EF14AD2EFBE4786384F25E30FC19DC68B8CD5B5240CA1CC77AC9C652DE92C6F592B02754A7484AA6EA6E4835CB0A9DCBD41FBD476F988DA831153B5983E5152EE66DFABA831C66D2DB43210B00327C898FB213FBF597FC7BEEF0EE4C6E00BF33DA88FC2D5A79147930AA72506CA6351E003826F142929670A0E6E7027B70A8546D22FFC2E1B21385C26C9264D2C6DFC5AC42AED53380D139D95B3DF650A73548BAF63DE766A0ABB3C77B2A881C2C92E47EDAEE692722C851482353BA2BFE8A14CF10364A81A664BBC423001C24B8B70D0F89791C76C51A30654BE30D192E819D6EF5218D69906245565A910F40E35855771202A106AA07032BBD1B819A4C116B8D2D0C81E376C085141AB532748774CDF8EEB9934B0BCB5E19B48A8391C0CB3C5C95A634ED8AA4AE3418ACB5B9CCA4F7763E373682E6FF3D6B2B8A3748F82EE5DEFB2FC78A5636F43172F6084C87814A1F0AB728CC702081A6439EC90BEFFFA23631E28A4506CEBDE82BDE9BEF9A3F7B2C67915C67178F2E372532BCA273ECEEA26619CD186B8C721C0C207EADA7DD6CDE0EB1EF57D4F7FEE6ED17806F067AA72176FBA0A637DC5A2C898A6113F9804BEF90DAE1B710B35131C471B28DB77F523047D8432CAAB7B40C724933C9EBE0A15C9BEBC431D67C49C100D4C4CC5D4BECB3E42B6597F299CFC657E2A5FCB6FAB3AD6FAEC6C44198C4A475817

/-- Next message-schedule word of SHA-256, from the words so far (latest first). -/
def sha256Next (rev : List (BitVec 32)) : BitVec 32 :=
  let w (i : Nat) := rev.getD (i - 1) 0
  let s0 := (w 15).rotateRight 7 ^^^ (w 15).rotateRight 18 ^^^ ((w 15) >>> 3)
  let s1 := (w 2).rotateRight 17 ^^^ (w 2).rotateRight 19 ^^^ ((w 2) >>> 10)
  w 16 + s0 + w 7 + s1

/-- Next message-schedule word of SHA-512. -/
def sha512Next (rev : List (BitVec 64)) : BitVec 64 :=
  let w (i : Nat) := rev.getD (i - 1) 0
  let s0 := (w 15).rotateRight 1 ^^^ (w 15).rotateRight 8 ^^^ ((w 15) >>> 7)
  let s1 := (w 2).rotateRight 19 ^^^ (w 2).rotateRight 61 ^^^ ((w 2) >>> 6)
  w 16 + s0 + w 7 + s1

/-- One round of SHA-256 on the eight working variables. -/
def sha256Round (v : List (BitVec 32)) (kw : BitVec 32) : List (BitVec 32) :=
  match v with
  | [a, b, c, d, e, f, g, h] =>
    let t1 := h + (e.rotateRight 6 ^^^ e.rotateRight 11 ^^^ e.rotateRight 25) + ((e &&& f) ^^^ (~~~e &&& g)) + kw
    let t2 := (a.rotateRight 2 ^^^ a.rotateRight 13 ^^^ a.rotateRight 22) + ((a &&& b) ^^^ (a &&& c) ^^^ (b &&& c))
    [t1 + t2, a, b, c, d + t1, e, f, g]
  | x => x

/-- One round of SHA-512. -/
def sha512Round (v : List (BitVec 64)) (kw : BitVec 64) : List (BitVec 64) :=
  match v with
  | [a, b, c, d, e, f, g, h] =>
    let t1 := h + (e.rotateRight 14 ^^^ e.rotateRight 18 ^^^ e.rotateRight 41) + ((e &&& f) ^^^ (~~~e &&& g)) + kw
    let t2 := (a.rotateRight 28 ^^^ a.rotateRight 34 ^^^ a.rotateRight 39) + ((a &&& b) ^^^ (a &&& c) ^^^ (b &&& c))
    [t1 + t2, a, b, c, d + t1, e, f, g]
  | x => x

/-- The compression function of SHA-256 on one 64-byte block. -/
def sha256Block (h : List (BitVec 32)) (blk : Bytes) : List (BitVec 32) :=
  let w0 := (chunks 4 blk).map (fun b => BitVec.ofNat 32 (beNat b))
  let w := ((List.range 48).foldl (fun rev _ => sha256Next rev :: rev) w0.reverse).reverse
  let v := (w.zipIdx).foldl (fun v (p : BitVec 32 × Nat) =>
    sha256Round v (p.1 + BitVec.ofNat 32 (sha256K >>> (32 * (63 - p.2))))) h
  List.zipWith (· + ·) h v

/-- The compression function of SHA-512 on one 128-byte block. -/
def sha512Block (h : List (BitVec 64)) (blk : Bytes) : List (BitVec 64) :=
  let w0 := (chunks 8 blk).map (fun b => BitVec.ofNat 64 (beNat b))
  let w := ((List.range 64).foldl (fun rev _ => sha512Next rev :: rev) w0.reverse).reverse
  let v := (w.zipIdx).foldl (fun v (p : BitVec 64 × Nat) =>
    sha512Round v (p.1 + BitVec.ofNat 64 (sha512K >>> (64 * (79 - p.2))))) h
  List.zipWith (· + ·) h v

/-- The padding of a message of `n` bytes to whole blocks of `blk` bytes with a length field of `lf` bytes. -/
def shaPad (blk lf n : Nat) : Bytes :=
  [0x80] ++ zeros ((2 * blk - lf - 1 - n % blk) % blk) ++ bePut lf (8 * n)

/-- SHA-256. -/
def sha256 (m : Bytes) : Bytes :=
  let h0 : List (BitVec 32) := [0x6A09E667, 0xBB67AE85, 0x3C6EF372, 0xA54FF53A, 0x510E527F, 0x9B05688C, 0x1F83D9AB, 0x5BE0CD19]
  ((chunks 64 (m ++ shaPad 64 8 m.length)).foldl sha256Block h0).flatMap (fun x => bePut 4 x.toNat)

/-- SHA-512 from an initial value. -/
def sha512From (h0 : List (BitVec 64)) (m : Bytes) : Bytes :=
  ((chunks 128 (m ++ shaPad 128 16 m.length)).foldl sha512Block h0).flatMap (fun x => bePut 8 x.toNat)

/-- SHA-512. -/
def sha512 (m : Bytes) : Bytes := sha512From [0x6A09E667F3BCC908, 0xBB67AE8584CAA73B, 0x3C6EF372FE94F82B, 0xA54FF53A5F1D36F1, 0x510E527FADE682D1, 0x9B05688C2B3E6C1F, 0x1F83D9ABFB41BD6B, 0x5BE0CD19137E2179] m

/-- SHA-384. -/
def sha384 (m : Bytes) : Bytes := (sha512From [0xCBBB9D5DC1059ED8, 0x629A292A367CD507, 0x9159015A3070DD17, 0x152FECD8F70E5939, 0x67332667FFC00B31, 0x8EB44A8768581511, 0xDB0C2E0D64F98FA7, 0x47B5481DBEFA4FA4] m).take 48

end Sys2Proof.Machine
end

