-- ==== Sys2Proof/Machine/Domain.lean ====
section
/-! DEFINITION. Record 3 of BBRAM, the revocation bitmap, the owner registry tree, changes of domain roots (R277, R379, R380, R387, R388,
R392). -/

namespace Sys2Proof.Machine

/-! ### The registry tree (R380) -/

/-- A node over two children. -/
def treeNode (l r : Bytes) : Bytes := sha384 (0x01 :: (l ++ r))

/-- The leaf of an owner record or tombstone. -/
def treeLeaf (rec : Bytes) : Bytes := sha384 (0x00 :: rec)

/-- The root that a leaf and its path lead to. -/
def pathRoot (id : Nat) (leaf path : Bytes) : Bytes :=
  (List.range 12).foldl (fun n k =>
    let s := slice path (48 * k) 48
    if bit id k then treeNode s n else treeNode n s) leaf

/-- The root of the empty tree. -/
def emptyRoot : Bytes := (List.range 12).foldl (fun e _ => treeNode e e) (zeros 48)

/-! ### Owner records and charters (R379, R387) -/

/-- FN_MASK of a record has the bit of a function. -/
def recFn (r : Bytes) (fn : Nat) : Bool := bit (leAt r 0x10 32) fn

/-- OFFICER[i] of a record. -/
def recOfficer (r : Bytes) (i : Nat) : Bytes := slice r (0x30 + 48 * i) 48

/-- The officers' entries: non-zero and distinct below OFFICERS, zero from there. -/
def officersOk (r : Bytes) : Bool :=
  let n := leAt r 6 1
  let hs := (List.range n).map (recOfficer r)
  decide (2 ≤ n) && decide (n ≤ 16) && decide (2 ≤ leAt r 7 1) && decide (leAt r 7 1 ≤ n) &&
    hs.all (fun h => h != zeros 48) && hs.Nodup && allZero r (0x30 + 48 * n) (768 - 48 * n)

/-- A well-formed live owner record. -/
def recordOk (r : Bytes) : Bool :=
  decide (r.length = 816) && leAt r 0 4 == 0x4A4F5231 && decide (leAt r 4 2 ≤ 4095) && officersOk r && decide (1 ≤ leAt r 8 4) &&
    allZero r 0x0C 4 && (recFn r 0 == decide (leAt r 4 2 = 0))

/-- A well-formed tombstone. -/
def tombOk (r : Bytes) : Bool :=
  decide (r.length = 816) && leAt r 0 4 == 0x4A4F5231 && decide (leAt r 4 2 ≤ 4095) && allZero r 6 2 && allZero r 0x0E 802

/-- The tombstone of a live record in an epoch. -/
def tombstoneOf (r : Bytes) (epoch : Nat) : Bytes :=
  r.take 6 ++ zeros 2 ++ lePut 4 (leAt r 8 4 + 1) ++ lePut 2 epoch ++ zeros 802

/-- A well-formed domain charter. -/
def charterOk (r : Bytes) : Bool :=
  decide (r.length = 816) && leAt r 0 4 == 0x4A444331 && leAt r 4 2 == 0x1000 && officersOk r && leAt r 8 4 == 1 && allZero r 0x0C 4

/-- DOMAIN_ID of a charter. -/
def domainIdOf (charter : Bytes) : Bytes := (sha384 charter).take 16

/-! ### The bitmap (R277) -/

/-- The 2,048 bytes of a bitmap from its set bits. -/
def bitmapBytes (bs : List Nat) : Bytes :=
  lePut 2048 (bs.foldl (fun n b => n ||| 2 ^ b) 0)

/-- The set bits of 2,048 bytes. -/
def bitmapBits (bs : Bytes) : List Nat := (List.range 16384).filter (fun i => bit (byteAt bs (i / 8)).toNat (i % 8))

/-- BITMAP_CHECK. -/
def bitmapCheck (b : Block) (bs : List Nat) : Bytes := bbCheck (recordKey b) 0x3600 (bitmapBytes bs)

/-! ### Record 3 (R388) -/

/-- Record 3 written without a registry: the local domain, an empty registry. -/
def domFresh (b : Block) : Bytes := zeros 0x20 ++ bitmapCheck b [] ++ emptyRoot ++ zeros 16

/-- The bytes of record 3 before CHECK, GEN as 0. -/
def domRec (b : Block) : Bytes :=
  match recPayload b 3 with
  | some p => 0 :: p
  | none => domFresh b

def domMember (d : Bytes) : Bool := bit (leAt d 1 1) 0
def domPrevValid (d : Bytes) : Bool := bit (leAt d 1 1) 1
def domStale (d : Bytes) : Bool := bit (leAt d 1 1) 2
def domOp (d : Bytes) : Nat := leAt d 2 1
def domEpoch (d : Bytes) : Nat := leAt d 4 2
def domPrev (d : Bytes) : Nat := leAt d 6 2
def domIndex (d : Bytes) : Nat := leAt d 8 2
def domPending (d : Bytes) : Nat := leAt d 0x0A 2
def domSeq (d : Bytes) : Nat := leAt d 0x0C 4
def domId (d : Bytes) : Bytes := slice d 0x10 16
def domCheck (d : Bytes) : Bytes := slice d 0x20 16
def domRoot (d : Bytes) : Bytes := slice d 0x30 48
def domOwners (d : Bytes) : Nat := leAt d 0x60 2

/-- FLAGS with one bit set or cleared. -/
def domFlag (i : Nat) (v : Bool) (d : Bytes) : Bytes :=
  let f := leAt d 1 1
  patch d 1 (lePut 1 ((if bit f i then f - 2 ^ i else f) + flag v i))

/-- Commit record 3. -/
def commitDom (d : Bytes) (b : Block) : Block := commitRec 3 (d.drop 1) b

/-- Set one bit of the revocation bitmap by its journal. -/
def setRevoked (i : Nat) (b : Block) : Block :=
  let b := commitDom (patch (domRec b) 0x0A (lePut 2 (0x8000 + i))) b
  let bs := if b.bbram.bitmap.contains i then b.bbram.bitmap else b.bbram.bitmap ++ [i]
  let b := b.onBbram (fun m => { m with bitmap := bs })
  commitDom (patch (patch (domRec b) 0x0A (zeros 2)) 0x20 (bitmapCheck b bs)) b

/-- Zero the bitmap, with its check fresh in the record given, and commit that. -/
def zeroBitmap (d : Bytes) (b : Block) : Block :=
  commitDom (patch d 0x20 (bitmapCheck b [])) (b.onBbram (fun m => { m with bitmap := [] }))

/-! ### Domain roots in slots 0 to 3 (R264, R278, R392) -/

/-- What the key store holds of the domain, from slots 0 and 1 and record 3 (R264). -/
def refreshDomain (b : Block) : Block :=
  let d := domRec b
  match slotState b 0, slotKey b 0 with
  | .corrupt, _ => b.onKey (fun k => { k with domState := 2, epoch := 0, member := 0, root := none, prevRoot := none })
  | _, none => b.onKey (fun k => { k with domState := 0, epoch := 0, member := 0, root := none, prevRoot := none })
  | _, some (r, _) =>
    let prev := if domPrevValid d then (slotKey b 1).map (fun p => (domPrev d, p.1)) else none
    b.onKey (fun k => { k with domState := 1, epoch := domEpoch d, member := domIndex d, root := some r, prevRoot := prev })

/-- The ATTR of slots 2 and 3. -/
def rootAttr (b : Block) : Bytes :=
  [0x00, 0x08, 0x00, 0x20, 0x20, 0x00, 0x00, 0x00] ++ lePut 1 (2 ^ b.run.lcs) ++ [0x01, 0x00, 0x04] ++ zeros 4

/-- One slot copied to another. -/
def copySlot (src dst : Nat) (b : Block) : Block :=
  match slotKey b src with
  | some (k, a) => commitSlot dst k a b
  | none => b

/-- ADOPT from step 3 on. -/
def adoptRest (b : Block) : Block :=
  let d := domRec b
  let b := copySlot 2 0 b
  let b := if domPrevValid d then copySlot 3 1 b else eraseSlot 1 b
  let b := commitDom (patch d 2 (zeros 1)) b
  eraseSlot 3 (eraseSlot 2 b)

/-- ADOPT: new roots into slots 2 and 3, record 3 with the target fields and OP 1, then the rest. -/
def adoptRoots (d root : Bytes) (prev : Option Bytes) (b : Block) : Block :=
  let a := rootAttr b
  let b := commitSlot 2 root a b
  let b := match prev with
    | some p => commitSlot 3 p a b
    | none => b
  refreshDomain (adoptRest (commitDom (patch d 2 [0x01]) b))

/-- The epochs accepted (R264). -/
def epochsNow (b : Block) : List Nat :=
  if b.key.domState = 0 then [0]
  else if b.key.domState = 1 then b.key.epoch :: (b.key.prevRoot.map (·.1)).toList
  else []

end Sys2Proof.Machine
end

