-- ==== Sys2Proof/Machine/Chacha.lean ====
section
/-! DEFINITION. ChaCha20 and Poly1305 (PRESUMED, assumption 16, RFC 8439: the spec names the standard). -/

namespace Sys2Proof.Machine

/-- The quarter round on four places of the state. -/
def chachaQr (s : List (BitVec 32)) (i j k l : Nat) : List (BitVec 32) :=
  let a := s.getD i 0
  let b := s.getD j 0
  let c := s.getD k 0
  let d := s.getD l 0
  let a := a + b
  let d := (d ^^^ a).rotateLeft 16
  let c := c + d
  let b := (b ^^^ c).rotateLeft 12
  let a := a + b
  let d := (d ^^^ a).rotateLeft 8
  let c := c + d
  let b := (b ^^^ c).rotateLeft 7
  (((s.set i a).set j b).set k c).set l d

/-- A column round and a diagonal round. -/
def chachaDouble (s : List (BitVec 32)) : List (BitVec 32) :=
  let s := chachaQr (chachaQr (chachaQr (chachaQr s 0 4 8 12) 1 5 9 13) 2 6 10 14) 3 7 11 15
  chachaQr (chachaQr (chachaQr (chachaQr s 0 5 10 15) 1 6 11 12) 2 7 8 13) 3 4 9 14

/-- The ChaCha20 block function: key, block counter, nonce. -/
def chachaBlock (key : Bytes) (ctr : Nat) (nonce : Bytes) : Bytes :=
  let s0 : List (BitVec 32) := [0x61707865, 0x3320646E, 0x79622D32, 0x6B206574] ++
    ((chunks 4 (slice key 0 32)).map (fun b => BitVec.ofNat 32 (leNat b))) ++ [BitVec.ofNat 32 ctr] ++
    ((chunks 4 (slice nonce 0 12)).map (fun b => BitVec.ofNat 32 (leNat b)))
  let s := (List.range 10).foldl (fun s _ => chachaDouble s) s0
  (List.zipWith (· + ·) s s0).flatMap (fun x => lePut 4 x.toNat)

/-- Exclusive or with the keystream from block counter `start`. -/
def chachaXor (key : Bytes) (start : Nat) (nonce data : Bytes) : Bytes :=
  ((chunks 64 data).zipIdx).flatMap (fun p => xorBytes p.1 (chachaBlock key (start + p.2) nonce))

/-- The one-time Poly1305 key of a message. -/
def polyKey (key nonce : Bytes) : Bytes := (chachaBlock key 0 nonce).take 32

/-- Poly1305 absorption of zero-padded 16-byte blocks (as the AEAD pads them), from an accumulator. -/
def polyAbsorb (pk : Bytes) (acc : Nat) (data : Bytes) : Nat :=
  let r := leNat (pk.take 16) &&& 0x0FFFFFFC0FFFFFFC0FFFFFFC0FFFFFFF
  (chunks 16 data).foldl (fun a b => ((a + leNat (slice b 0 16) + 2 ^ 128) * r) % (2 ^ 130 - 5)) acc

/-- The AEAD tag after AAD and ciphertext have been absorbed. -/
def polyTag (pk : Bytes) (acc aad pay : Nat) : Bytes :=
  let a := polyAbsorb pk acc (lePut 8 aad ++ lePut 8 pay)
  lePut 16 (a + leNat (pk.drop 16))

end Sys2Proof.Machine
end

