-- ==== Sys2Proof/Machine/Events.lean ====
section
/-! DEFINITION. Reporting an event: severities, bins, cells, token buckets, notices and persisted counts (R436 to R447). -/

namespace Sys2Proof.Machine

/-- The severity of a code (R437); a reserved code has none. -/
def evSeverity (code : Nat) : Nat :=
  match code with
  | 0x000 => 3 | 0x001 => 4 | 0x002 => 3 | 0x003 => 2 | 0x004 => 2
  | 0x040 => 5 | 0x041 => 5 | 0x042 => 4
  | 0x080 => 6 | 0x081 => 5 | 0x082 => 6
  | 0x0C0 => 4 | 0x0C1 => 6 | 0x0C2 => 6 | 0x0C3 => 5
  | 0x100 => 4 | 0x101 => 6 | 0x102 => 6 | 0x103 => 5
  | 0x140 => 6 | 0x141 => 7 | 0x142 => 7
  | 0x180 => 6 | 0x181 => 3 | 0x1C0 => 6
  | 0x200 => 6 | 0x201 => 2 | 0x202 => 2
  | 0x240 => 6 | 0x280 => 6
  | 0x2C0 => 4 | 0x2C1 => 6 | 0x2C2 => 7
  | 0x300 => 6 | 0x301 => 5 | 0x302 => 3 | 0x303 => 5 | 0x304 => 6 | 0x305 => 7
  | 0x340 => 6 | 0x341 => 7 | 0x342 => 6
  | 0x3C0 => 7
  | 0x400 => 3 | 0x401 => 2
  | 0x440 => 7 | 0x441 => 6 | 0x442 => 4
  | 0x480 => 3
  | _ => 0

/-- The bin of a value (R438). -/
def evBin (v : Nat) : Nat := if v = 0 then 0 else min 31 (Nat.log2 v + 1)

/-- A cell that holds nothing. -/
def EvCell.empty : EvCell :=
  { gen := 0, used := false, code := 0, count := 0, suppressed := 0, min := 0, minTime := 0, max := 0, maxTime := 0,
    first := 0, last := 0, bins := [], tokens := 0, tokenTime := 0 }

/-- BURST of a severity, 0 taken as 1 (R450). -/
def burstOf (b : Block) (sev : Nat) : Nat := max 1 (bits (b.evr.rates.getD sev 0) 15 8)

/-- A cell that no event has reached since the sweep: cells 1 and 2 hold their codes, their buckets full (R439, R440). -/
def EvCell.swept (i : Nat) : EvCell :=
  if i = 1 then { EvCell.empty with used := true, code := 0x340, tokens := 16 }
  else if i = 2 then { EvCell.empty with used := true, code := 0x341, tokens := 16 }
  else EvCell.empty

/-- A cell as the recorder holds it. -/
def evCell (b : Block) (i : Nat) : EvCell := tgetD (EvCell.swept i) b.evr.cells i

/-- Put a cell. -/
def putCell (i : Nat) (c : EvCell) (b : Block) : Block := b.onEvr (fun e => { e with cells := tset e.cells i c })

/-- The cell that holds a code (R439): 1 and 2 have fixed codes, others are found among cells 3 to 1,023. -/
def cellFor (b : Block) (code : Nat) : Option Nat :=
  if code = 0x340 then some 1
  else if code = 0x341 then some 2
  else (b.evr.cells.find? (fun p => decide (3 ≤ p.1) && p.2.used && p.2.code == code)).map (·.1)

/-- The lowest free cell from 3 (R440). -/
def freeCell (b : Block) : Option Nat := lowestFrom (fun i => !(evCell b i).used) 3 1021

/-- The cell an unplaced code of some severity may evict (R440): the least recently updated unpinned cell of a lower
severity, the lowest index on a tie. -/
def victimCell (b : Block) (sev : Nat) : Option Nat :=
  let cand := b.evr.cells.filter (fun p =>
    decide (3 ≤ p.1) && p.2.used && decide (evSeverity p.2.code < 6) && decide (evSeverity p.2.code < sev))
  (cand.foldl (fun (best : Option (Nat × Nat)) p =>
    match best with
    | none => some (p.1, p.2.last)
    | some (i, l) => if p.2.last < l then some (p.1, p.2.last) else some (i, l)) none).map (·.1)

/-- Fold an event into a cell that holds its code (R441). GEN rises by two (R442). -/
def foldInto (c : EvCell) (v ts : Nat) : EvCell :=
  let tok := decide (0 < c.tokens)
  let isMin := decide (c.count = 0) || decide (v < c.min)
  let isMax := decide (c.count = 0) || decide (c.max < v)
  let when_ := if tok then ts else c.tokenTime % 2 ^ 63 + 2 ^ 63
  { c with
    gen := (c.gen + 2) % 2 ^ 32
    count := (c.count + 1) % 2 ^ 64
    suppressed := if tok then c.suppressed else sat32 (c.suppressed + 1)
    min := if isMin then v else c.min
    minTime := if isMin then when_ else c.minTime
    max := if isMax then v else c.max
    maxTime := if isMax then when_ else c.maxTime
    first := if c.count = 0 then ts else c.first
    last := ts
    bins := tmod 0 (fun n => sat32 (n + 1)) c.bins (evBin v)
    tokens := c.tokens - 1
    tokenTime := if tok then ts else c.tokenTime }

/-- Fold an event of a severity into the overflow cell (R439, R440). -/
def foldOverflow (c : EvCell) (sev ts : Nat) : EvCell :=
  { c with
    gen := (c.gen + 2) % 2 ^ 32
    count := (c.count + 1) % 2 ^ 64
    first := if c.count = 0 then ts else c.first
    last := ts
    bins := tmod 0 (fun n => sat32 (n + 1)) c.bins sev }

/-- A notice is owed (R441): NOTICE_PENDING, the recorder cause, and the board controller's signal. -/
def oweNotice (sev : Nat) (b : Block) : Block :=
  let b := raiseIrq irqRecorder (b.onEvr (fun e => { e with notice := e.notice ||| 2 ^ sev }))
  if sev < b.evr.alertSev then b
  else if b.pins.sbDisabled then b
  else if bit b.pins.straps 2 then send (.i3cIbi (BitVec.ofNat 8 sev)) b
  else b.onPins (fun p => { p with sbAlert := true })

/-- Fold an event into cell `i`, owing a notice when it took a token and is severe enough (R441). -/
def foldCell (i code v : Nat) (b : Block) : Block :=
  let c := evCell b i
  let b := putCell i (foldInto c v (stamp b)) b
  if 0 < c.tokens ∧ b.evr.noticeSev ≤ evSeverity code then oweNotice (evSeverity code) b else b

/-- Take a cell for a code: its other fields zero, its bucket full (R440). -/
def takeCell (i code : Nat) (b : Block) : Block :=
  putCell i { EvCell.empty with gen := (evCell b i).gen, used := true, code := code, tokens := burstOf b (evSeverity code) } b

/-- Counters of record 2 that an event moves (R447). -/
def countersOf (code : Nat) : List Nat :=
  (if code = 0x101 then [0] else if code = 0x102 then [1] else if code = 0x100 then [2] else if code = 0x103 then [3]
   else if code = 0x140 then [4] else if code = 0x440 then [6] else if code = 0x341 then [7] else if code = 0x3C0 then [8]
   else if code = 0x0C1 then [9] else if code = 0x340 then [10]
   else if [0x180, 0x1C0, 0x200, 0x240, 0x280, 0x2C1].contains code then [5] else []) ++
  (if evSeverity code = 7 then [11] else [])

/-- The persisted counts in a record 2 payload: counter i at 0x08 + 4i, the payload starting at 0x01 (R447). -/
def persistedCount (payload : Bytes) (i : Nat) : Nat := leAt payload (7 + 4 * i) 4

/-- Commit record 2 with the counts of this boot added (R447). -/
def commitCounts (b : Block) : Block :=
  let old := (recPayload b 2).getD (zeros 239)
  let new := zeros 7 ++ ((List.range 12).flatMap (fun i => lePut 4 (sat32 (persistedCount old i + tgetD 0 b.evr.tally i))))
  (commitAlone (commitRec 2 new) b).onEvr (fun e => { e with tally := [] })

/-- The keeper runs: from KEEPER_BOOT on, not in FROZEN (R26); in THAW once an image has been accepted (R122). -/
def keeperRuns (b : Block) : Bool :=
  match b.run.state with
  | .keeperBoot | .service | .winter => true
  | .thaw => b.boot.romLock
  | _ => false

/-- Count an event for record 2; one of severity 7 is committed at once while the keeper runs (R447). -/
def tallyEvent (code : Nat) (b : Block) : Block :=
  let b := b.onEvr (fun e => { e with tally := (countersOf code).foldl (fun t i => tmod 0 (· + 1) t i) e.tally })
  if evSeverity code = 7 ∧ keeperRuns b = true then commitCounts b else b

/-- An event counts in EVENT_SEQ and in record 2 (R440, R447). -/
def countEvent (code : Nat) (b : Block) : Block :=
  tallyEvent code (b.onEvr (fun e => { e with seq := (e.seq + 1) % 2 ^ 64 }))

/-- Report an event: a code and a value (R440). An evicted cell is itself an event, 0x340. -/
def event (code v : Nat) (b : Block) : Block :=
  let v := min v 0xFFFFFFFF
  let b := countEvent code b
  match cellFor b code with
  | some i => foldCell i code v b
  | none =>
    match freeCell b with
    | some i => foldCell i code v (takeCell i code b)
    | none =>
      match victimCell b (evSeverity code) with
      | some i =>
        let old := (evCell b i).code
        foldCell i code v (takeCell i code (foldCell 1 0x340 old (countEvent 0x340 b)))
      | none => putCell 0 (foldOverflow (evCell b 0) (evSeverity code) (stamp b)) b

/-- A CORRUPT finding (R274): counted, and reported with the pair's number. -/
def noteCorrupt (n : Nat) (b : Block) : Block :=
  event 0x140 n (b.onKey (fun k => { k with checkFails := sat32 (k.checkFails + 1) }))

end Sys2Proof.Machine
end

