-- ==== Sys2Proof/Machine/Complete.lean ====
section
/-! DEFINITION. Completing a descriptor: credits, the entry with its phase, zeroing, write checks, what a completion sets free
(R202, R217, R222, R248 to R257, R333 to R337). -/

namespace Sys2Proof.Machine

/-! ### Queues as tables -/

/-- An SQ that does not exist. -/
def Sq.none : Sq :=
  { state := .free, fn := 0, qid := 0, cq := 0, base := 0, sizeLog2 := 0, minCred := 0, weight := 0, shadow := 0, head := 0,
    tail := 0, held := 0, reading := 0, dbIgnored := false, error := false }

/-- A CQ that does not exist. -/
def Cq.none : Cq :=
  { active := false, fn := 0, qid := 0, base := 0, sizeLog2 := 0, vector := 0, irqEn := false, written := 0, released := 0,
    owners := [], headInvalid := false }

/-- The SQ under a device queue number. -/
def sqOf (b : Block) (n : Nat) : Sq := tgetD Sq.none b.q.sqs n

/-- The CQ under a device queue number. -/
def cqOf (b : Block) (n : Nat) : Cq := tgetD Cq.none b.q.cqs n

/-- Change an SQ. -/
def onSq (n : Nat) (f : Sq → Sq) (b : Block) : Block := b.onQ (fun q => { q with sqs := tmod Sq.none f q.sqs n })

/-- Change a CQ. -/
def onCq (n : Nat) (f : Cq → Cq) (b : Block) : Block := b.onQ (fun q => { q with cqs := tmod Cq.none f q.cqs n })

/-- Ring size. -/
def Sq.size (s : Sq) : Nat := 2 ^ s.sizeLog2

/-- Ring size, and number of credits. -/
def Cq.size (c : Cq) : Nat := 2 ^ c.sizeLog2

/-- The SQs bound to a CQ (not FREE). -/
def boundSqs (b : Block) (c : Nat) : List (Nat × Sq) :=
  b.q.sqs.filter (fun p => decide (p.2.state ≠ SqState.free) && p.2.cq == c)

/-- Credits held for SQs deleted since (R217): written entries without an owner. -/
def orphansOf (c : Cq) : Nat := c.owners.countP (fun o => o.isNone)

/-- Credits held of a CQ in all. -/
def heldOf (b : Block) (c : Nat) : Nat := ((boundSqs b c).map (fun p => p.2.held)).sum + orphansOf (cqOf b c)

/-- can_reserve of R217. -/
def canReserve (b : Block) (n : Nat) : Bool :=
  let s := sqOf b n
  if s.held < s.minCred then true
  else
    let bound := boundSqs b s.cq
    let cap := (cqOf b s.cq).size - (bound.map (fun p => p.2.minCred)).sum
    let used := (bound.map (fun p => p.2.held - p.2.minCred)).sum + orphansOf (cqOf b s.cq)
    decide (used < cap)

/-- Reserve a credit for an SQ (R217). -/
def reserve (n : Nat) (b : Block) : Block := onSq n (fun s => { s with held := s.held + 1 }) b

/-- Descriptors of an SQ read and not completed. -/
def jobsOf (b : Block) (n : Nat) : List Job := b.work.jobs.filter (fun j => j.dqn == n)

/-- Unread descriptors of an SQ: below the accepted tail and not being read. -/
def unread (s : Sq) : Nat := (s.tail - s.head).toNat - s.reading

/-! ### Descriptor fields (R236) -/

def dOp (d : Bytes) : Nat := leAt d 0 1
def dFlags (d : Bytes) : Nat := leAt d 1 1
def dCmd (d : Bytes) : Nat := leAt d 2 2
def dHandle (d : Bytes) : Nat := leAt d 4 4
def dBlob (d : Bytes) : Nat := leAt d 8 8
def dSrc (d : Bytes) : Nat := leAt d 0x10 8
def dDst (d : Bytes) : Nat := leAt d 0x18 8
def dLen (d : Bytes) : Nat := leAt d 0x20 5
def dLenHigh (d : Bytes) : Nat := leAt d 0x25 3
def dAad (d : Bytes) : Nat := leAt d 0x28 4
def dMsg (d : Bytes) : Nat := leAt d 0x2C 2
def dParam (d : Bytes) : Nat := leAt d 0x2E 2
def dIv (d : Bytes) : Bytes := slice d 0x30 16

/-- A FLAGS bit (R238): 0 FRAG_SRC, 1 FRAG_DST, 2 MSG_FIRST, 3 MSG_LAST, 4 FENCE, 5 INLINE_IV, 6 NO_AUTOLOAD,
7 IRQ_SUPPRESS. -/
def dFlag (d : Bytes) (i : Nat) : Bool := bit (dFlags d) i

/-- A fenced descriptor: FLAGS.FENCE, or opcode FENCE (R222, R239). -/
def dFenced (d : Bytes) : Bool := dFlag d 4 || dOp d == 0x7E

/-- A session opcode (R239). -/
def isSession (op : Nat) : Bool :=
  [0x10, 0x11, 0x12, 0x13, 0x14, 0x15, 0x18, 0x19, 0x1A, 0x1B].contains op

/-- An XTS opcode. -/
def isXts (op : Nat) : Bool := op == 1 || op == 2

/-- A digest opcode. -/
def isDigest (op : Nat) : Bool := [0x20, 0x21, 0x22, 0x23].contains op

/-! ### Entries -/

/-- The 32 bytes of a completion entry (R248). -/
def entryBytes (qid cmd status cflags head detail bytes result : Nat) : Bytes :=
  lePut 2 qid ++ lePut 2 cmd ++ lePut 2 status ++ lePut 2 cflags ++ lePut 4 head ++ lePut 4 detail ++ lePut 8 bytes ++
    lePut 8 result

/-- PHASE of the entry at a written count, in a ring of 2^k entries (R250). -/
def phaseAt (w : Word) (k : Nat) : Nat := 1 - (w.toNat / 2 ^ k) % 2

/-- Write the next completion entry of an SQ's CQ (R248 to R250, R254), and owe its message (R257). -/
def writeEntry (dqn cmd status cflags detail bytes result : Nat) (quiet : Bool) (b : Block) : Block :=
  let s := sqOf b dqn
  let c := cqOf b s.cq
  let w := c.written
  let e := entryBytes s.qid cmd status (cflags + phaseAt w c.sizeLog2) s.head.toNat detail bytes result
  let addr := c.base + 32 * (w.toNat % c.size)
  let b := emit c.fn (.entryWrite c.fn (worldOf b c.fn) addr e) b
  let b := onCq s.cq (fun c => { c with written := c.written + 1, owners := c.owners ++ [some dqn] }) b
  if c.irqEn && !quiet then msixOwe c.fn c.vector b else b

/-! ### Status codes (R252) -/

def stSuccess : Nat := 0x0000
def stInvalidOpcode : Nat := 0x0100
def stInvalidField : Nat := 0x0101
def stLengthMismatch : Nat := 0x0102
def stAlignment : Nat := 0x0103
def stFragmentTable : Nat := 0x0104
def stUnitAbsent : Nat := 0x0105
def stDoorbellOverrun : Nat := 0x0106
def stContextNotLoaded : Nat := 0x0200
def stBlobIntegrity : Nat := 0x0201
def stPolicyDenied : Nat := 0x0202
def stContextStale : Nat := 0x0203
def stEpochRetired : Nat := 0x0204
def stAuthFail : Nat := 0x0300
def stHoldLimit : Nat := 0x0301
def stMessageSequence : Nat := 0x0302
def stMessageAbandoned : Nat := 0x0303
def stDataFetch : Nat := 0x0400
def stDataWrite : Nat := 0x0401
def stQueueDisabled : Nat := 0x0500
def stUnitReset : Nat := 0x0501
def stKeeperRetry : Nat := 0x0502
def stEngineAlarm : Nat := 0x0600
def stFrozen : Nat := 0x06FF
def stHsmError : Nat := 0x0700

/-- A status marked "Zero: Yes" in R252. -/
def zeroing (st : Nat) : Bool :=
  [stLengthMismatch, stFragmentTable, stAuthFail, stHoldLimit, stMessageAbandoned, stDataFetch, stDataWrite, stUnitReset,
   stEngineAlarm, stFrozen].contains st

/-- A verdict that zeroes nothing. -/
def verdict (status detail result bytes : Nat) : Verdict :=
  { status := status, detail := detail, result := result, bytes := bytes, prov := false, extent := [], past := none }

/-- SUCCESS with BYTES_DONE and RESULT (R251). -/
def success (bytes result : Nat) : Verdict := verdict stSuccess 0 result bytes

/-! ### Extents (R253) -/

/-- The first `n` bytes of a stream given as ranges. -/
def takeRanges : List (Nat × Nat) → Nat → List (Nat × Nat)
  | [], _ => []
  | (a, l) :: rest, n => if n = 0 then [] else if n ≤ l then [(a, n)] else (a, l) :: takeRanges rest (n - l)

/-- What a stream given as ranges has after its first `n` bytes. -/
def dropRanges : List (Nat × Nat) → Nat → List (Nat × Nat)
  | [], _ => []
  | (a, l) :: rest, n => if l ≤ n then dropRanges rest (n - l) else (a + n, l - n) :: rest

/-- The ranges of a walk. -/
def walkRanges (w : Walk) : List (Nat × Nat) := w.segs.map (fun s => (s.1, s.2.1))

/-- Bytes covered by ranges. -/
def rangesLen (rs : List (Nat × Nat)) : Nat := (rs.map (·.2)).sum

/-- The last byte that ranges cover. -/
def lastByte (rs : List (Nat × Nat)) : Option Nat :=
  match (rs.filter (fun r => decide (0 < r.2))).getLast? with
  | some (a, l) => some (a + l - 1)
  | none => none

/-- Two ranges share a byte. -/
def rangesMeet (p q : Nat × Nat) : Bool := decide (p.1 < q.1 + q.2) && decide (q.1 < p.1 + p.2) && decide (0 < p.2) && decide (0 < q.2)

/-- Two streams run over the same addresses as far as both run (R243, in place). -/
def sameCourse : Nat → List (Nat × Nat) → List (Nat × Nat) → Bool
  | 0, _, _ => true
  | _, [], _ => true
  | _, _, [] => true
  | n + 1, (a, l) :: p, (c, m) :: q =>
    if l = 0 then sameCourse n p ((c, m) :: q)
    else if m = 0 then sameCourse n ((a, l) :: p) q
    else decide (a = c) && sameCourse n ((a + min l m, l - min l m) :: p) ((c + min l m, m - min l m) :: q)

/-- Source and output overlap, but not in place: the output is undefined (R243). -/
def overlapUndefined (src dst : List (Nat × Nat)) : Bool :=
  src.any (fun p => dst.any (rangesMeet p)) && !sameCourse (2 * (src.length + dst.length) + 2) src dst

/-- The open message of an SQ with a MSG_ID. -/
def msgOf (b : Block) (dqn mid : Nat) : Option Msg := b.sce.msgs.find? (fun m => m.dqn == dqn && m.msgId == mid)

/-- Change an open message. -/
def onMsg (dqn mid : Nat) (f : Msg → Msg) (b : Block) : Block :=
  b.onSce (fun s => { s with msgs := s.msgs.map (fun m => if m.dqn = dqn ∧ m.msgId = mid then f m else m) })

/-- The message a descriptor is a part of, when it has several parts (R331). -/
def jobMsg (b : Block) (j : Job) : Option Msg :=
  if isSession (dOp j.desc) && dMsg j.desc != 0 then msgOf b j.dqn (dMsg j.desc) else none

/-- Bytes written by the parts of a message. -/
def partsWritten (ps : List Part) : List (Nat × Nat) := ps.flatMap (fun p => takeRanges p.area p.wrote)

/-- The output areas of the parts of a message. -/
def partsArea (ps : List Part) : List (Nat × Nat) := ps.flatMap (fun p => takeRanges p.area p.len)

/-- What a failing descriptor zeroes when its status names what was written (R253): the parts of its message that are in
the part log, and its own output. -/
def writtenExtent (b : Block) (j : Job) : List (Nat × Nat) :=
  ((jobMsg b j).map (fun m => partsWritten m.parts)).getD [] ++ takeRanges (walkRanges j.dst) j.wrote

/-- A failing verdict that zeroes what was written. -/
def failWritten (b : Block) (j : Job) (status detail result : Nat) : Verdict :=
  { verdict status detail result 0 with extent := writtenExtent b j }

/-! ### Sessions that a completion changes (R335, R337) -/

/-- Change a core. -/
def onCore (n : Nat) (f : CoreU → CoreU) (b : Block) : Block :=
  b.onSce (fun s => { s with cores := s.cores.mapIdx (fun i c => if i = n then f c else c) })

/-- A core that holds no message any more: idle, its key register kept (R322), unless it is out of service. -/
def coreFree (c : CoreU) : CoreU :=
  { c with job := none, msg := none, state := if c.state = .busy ∨ c.state = .bound then .idle else c.state }

/-- The core that runs a descriptor. -/
def coreOfJob (b : Block) (id : Nat) : Option Nat := b.sce.cores.findIdx? (fun c => c.job == some id)

/-- Close a message: its entries, staging and use of the context return, its core is free (R335). -/
def closeMsg (dqn mid : Nat) (b : Block) : Block :=
  let b := match msgOf b dqn mid with
    | some m => (match m.state with
      | .bound c => onCore c coreFree b
      | _ => b)
    | none => b
  b.onSce (fun s => { s with msgs := s.msgs.filter (fun m => !(m.dqn == dqn && m.msgId == mid)) })

/-- Emit zeroing writes over ranges (R253, R254). -/
def emitZeros (fn : Nat) (world : Bool) (rs : List (Nat × Nat)) (b : Block) : Block :=
  (rs.flatMap (fun r => alignedPieces (writeLimit b) r.1 r.2)).foldl (fun b r => emit fn (.zeroWrite fn world r.1 r.2) b) b

/-- Add a tombstone, keeping the 4,096 newest (R337). -/
def addTomb (t : Tomb) (ts : List Tomb) : List Tomb :=
  let all := ts ++ [t]
  all.drop (all.length - 4096)

/-- Abandon an open message (R337): zero what it wrote, return what it holds, leave a tombstone, count the event. With WRITE_CHECK at 1 the tombstone
records ZEROED once the check of the zeroing writes has passed (R202, R253). -/
def abandonMsg (dqn mid : Nat) (b : Block) : Block :=
  match msgOf b dqn mid with
  | none => b
  | some m =>
    let rs := partsWritten m.parts
    let n := rangesLen rs
    let b := emitZeros m.fn m.world rs b
    let b := if b.link.writeCheck ∧ 0 < n then
        issueRead m.fn m.world (.tombCheck dqn mid) [((lastByte rs).getD 0, 1)] (dropReads (fun r => r.kind == .tombCheck dqn mid) b)
      else b
    let b := closeMsg dqn mid b
    let b := b.onSce (fun s => { s with
      tombs := addTomb { dqn := dqn, msgId := mid, zeroed := n, ok := decide (0 < n) && !b.link.writeCheck } s.tombs
      abandoned := sat32 (s.abandoned + 1) })
    event 0x201 n b

/-- Abandon at once every open message that a condition names and that no part of which is running or being opened
(R338). -/
def abandonWhere (p : Msg → Bool) (b : Block) : Block :=
  let idle (m : Msg) : Bool := match m.state with
    | .bound _ => true
    | .parked => true
    | _ => false
  (b.sce.msgs.filter (fun m => p m && idle m)).foldl (fun b m => abandonMsg m.dqn m.msgId b) b

/-- Parked-message slots held (SCE_PARKED). -/
def parkedCount (b : Block) : Nat := b.sce.msgs.countP (fun m => decide (m.state = MsgState.parked))

/-- The running state of a message as bytes. -/
def cipherBytes (c : CipherSt) : Bytes :=
  lePut 1 c.iv.length ++ c.iv ++ lePut 8 c.blocks ++ lePut 32 c.acc ++ lePut 8 c.aad ++ lePut 8 c.pay ++ c.tail

/-- The running state that bytes spell. -/
def cipherOf (p : Bytes) : CipherSt :=
  let n := leAt p 0 1
  let q := p.drop (1 + n)
  { iv := (p.drop 1).take n, blocks := leAt q 0 8, acc := leAt q 8 32, aad := leAt q 40 8, pay := leAt q 48 8, tail := q.drop 56 }

/-- The cipher state of a message that is not in a core. -/
def CipherSt.none : CipherSt := { iv := [], blocks := 0, acc := 0, tail := [], aad := 0, pay := 0 }

/-- A parked-message slot's contents (R336), before its mask: SQ, MSG_ID, opcode, PARAM, handle, the running state (the layout is the model's). -/
def parkBody (m : Msg) : Bytes :=
  lePut 2 m.dqn ++ lePut 2 m.msgId ++ lePut 1 m.opcode ++ lePut 2 m.param ++ lePut 4 m.handle ++ cipherBytes m.cipher

/-- The mask of a parked-message slot, by the method of R287 from the parking key. -/
def parkMask (b : Block) (slot gen n : Nat) : Bytes := kmac256 b.sce.parkKey (lePut 4 slot ++ lePut 2 gen) n (ascii "JVM")

/-- The tag of a parked-message slot. -/
def parkCheck (b : Block) (slot : Nat) (bytes : Bytes) : Bytes := kmac256 b.sce.parkKey (lePut 4 slot ++ bytes) 8 (ascii "JVS")

/-- A message's state masked and tagged, in a slot. -/
def parkSeal (b : Block) (slot gen : Nat) (m : Msg) : ParkSlot :=
  let p := parkBody m
  let x := xorBytes p (parkMask b slot gen p.length)
  { slot := slot, gen := gen, bytes := x, check := parkCheck b slot x }

/-- The tag of a slot passes. -/
def parkSound (b : Block) (p : ParkSlot) : Bool := p.check == parkCheck b p.slot p.bytes

/-- The running state that a slot holds. -/
def parkOpen (b : Block) (p : ParkSlot) : CipherSt := cipherOf ((xorBytes p.bytes (parkMask b p.slot p.gen p.bytes.length)).drop 11)

/-- The lowest parked-message slot that is free. -/
def freeParkSlot (b : Block) : Nat :=
  let used := b.sce.msgs.filterMap (fun m => m.park.map (·.slot))
  ((List.range (used.length + 1)).find? (fun i => !used.contains i)).getD 0

/-- A message as its next part finds it: its state read from its slot when it is parked. -/
def Msg.resumed (b : Block) (m : Msg) : Msg :=
  match m.park with
  | some p => { m with cipher := parkOpen b p, park := none }
  | none => m

/-- Park a BOUND message (R336): its state goes to a slot, its core is free and the core's key register erased. When no slot
is free it stays BOUND and waits. -/
def parkMsg (dqn mid : Nat) (b : Block) : Block :=
  match msgOf b dqn mid with
  | none => b
  | some m =>
    match m.state with
    | .bound c =>
      if parkedCount b < parkedOf b.run.variant then
        let p := parkSeal b (freeParkSlot b) ((b.sce.parks + 1) % 65536) m
        let b := onMsg dqn mid (fun m => { m with state := .parked, wantPark := false, cipher := CipherSt.none, park := some p }) b
        let b := onCore c (fun u => { coreFree u with key := none }) b
        b.onSce (fun s => { s with parks := sat32 (s.parks + 1) })
      else onMsg dqn mid (fun m => { m with wantPark := true }) b
    | _ => b

/-- A core that keeps no message past its part: the part came to it fenced, and it is fenced still (R324), or it is quiescing (R347). -/
def coreLeaving (b : Block) (c : Nat) : Bool :=
  (bit b.sce.fence c && (b.sce.cores[c]?).any (·.late)) || b.pwr.quiesce.any (fun p => p.1 == UnitId.core c)

/-- A message whose running part has ended with the message open: BOUND to its core, abandoned at once when a condition of
R338 came meanwhile, parked at once when the core is leaving service. -/
def rebind (dqn mid c : Nat) (b : Block) : Block :=
  let b := onMsg dqn mid (fun m => { m with state := .bound c, ended := b.work.clock }) (bumpClock b)
  let b := onCore c (fun u => { u with job := none, msg := some (dqn, mid), state := .bound }) b
  match msgOf b dqn mid with
  | some m =>
    if m.doomed then abandonMsg dqn mid b
    else if coreLeaving b c then parkMsg dqn mid b
    else b
  | none => b

/-- What the end of a session part does to its core and message (R333, R335). -/
def endPart (j : Job) (v : Verdict) (b : Block) : Block :=
  let mid := dMsg j.desc
  let core := coreOfJob b j.id
  let freed : Block := match core with
    | some c => onCore c coreFree b
    | none => b
  if mid = 0 then freed
  else
    match msgOf b j.dqn mid, core with
    | some _, some c =>
      if zeroing v.status then closeMsg j.dqn mid freed
      else if v.status = stSuccess ∧ dFlag j.desc 3 = true then closeMsg j.dqn mid freed
      else if v.status ≠ stSuccess ∧ dFlag j.desc 2 = true then closeMsg j.dqn mid freed
      else
        let p : Part := { dst := dDst j.desc, frag := dFlag j.desc 1, wrote := j.wrote, area := walkRanges j.dst, len := j.outLen,
                          undef := overlapUndefined (walkRanges j.src) (walkRanges j.dst) }
        rebind j.dqn mid c
          (if v.status = stSuccess then onMsg j.dqn mid (fun m => { m with parts := m.parts ++ [p] }) b else b)
    | some m, none =>
      if m.state = .opening ∧ m.opener = j.id then closeMsg j.dqn mid b
      else if zeroing v.status ∧ v.past = none ∧ dFlag j.desc 2 = false ∧
          ¬(v.status = stUnitReset ∧ v.detail = 0x02FF) then closeMsg j.dqn mid b
      else b
    | none, _ => freed

/-! ### The end of a descriptor -/

/-- Take a descriptor out of the list of those in flight. -/
def removeJob (id : Nat) (b : Block) : Block :=
  dropReads (fun r => match r.kind with
      | .blob i | .callerKey i | .iv i | .srcPiece i | .dstPiece i | .source i | .block i | .dataCheck i | .zeroCheck i =>
        i == id
      | _ => false)
    (b.onWork (fun w => { w with jobs := w.jobs.filter (fun j => j.id != id) }))

/-- BYTES_DONE of a verdict (R251). -/
def bytesDone (v : Verdict) : Nat :=
  match v.past with
  | some p => p.1
  | none => if zeroing v.status then rangesLen v.extent else v.bytes

/-- CFLAGS without PHASE (R249). -/
def cflagsOf (j : Job) (v : Verdict) (zeroed : Bool) : Nat :=
  flag v.prov 1 + flag (match v.past with | some p => p.2 | none => zeroed) 2 + flag j.loaded 3 + flag j.resumed 4

/-- Counters and events that a status brings (R303, R349, R437). -/
def noteStatus (j : Job) (v : Verdict) (b : Block) : Block :=
  if v.status = stBlobIntegrity then
    event 0x181 v.detail (b.onVlt (fun x => { x with blobFails := sat32 (x.blobFails + 1) }))
  else if v.status = stAuthFail ∧ isSession (dOp j.desc) = true then
    event 0x202 (rangesLen v.extent) (b.onSce (fun x => { x with authFails := sat32 (x.authFails + 1) }))
  else b

/-- The device queue number of a load that outlives the queue of its descriptor (R300): no queue has it. -/
def ghostQueue : Nat := 65536

/-- A descriptor ends: its core and message as R333 and R335 say, its completion entry, and it leaves flight. -/
def entryOut (j : Job) (v : Verdict) (zeroed : Bool) (b : Block) : Block :=
  let b := if isSession (dOp j.desc) then endPart j v b else b
  noteStatus j v (removeJob j.id (writeEntry j.dqn (dCmd j.desc) v.status (cflagsOf j v zeroed) v.detail (bytesDone v) v.result
    (dFlag j.desc 7) b))

/-- End a descriptor with its completion entry; while the function's requests are halted it stays as it is, its entry, its core, its message
and its pools held (R203). A load whose queue has ended writes none. -/
def finishEntry (j : Job) (v : Verdict) (zeroed : Bool) (b : Block) : Block :=
  if j.dqn = ghostQueue then noteStatus j v (removeJob j.id b)
  else if fnHalted b j.fn then onJob b j.id (fun j => { j with stage := .ended v zeroed })
  else entryOut j v zeroed b

/-- The entries of the descriptors that ended while their function was halted, written once it is not (R203). -/
def resumeEnded (b : Block) : Block :=
  b.work.jobs.foldl (fun b j => match j.stage with
    | .ended v zeroed => if fnHalted b j.fn then b else entryOut j v zeroed b
    | _ => b) b

/-- What was held back for a function leaves when its requests resume (R203). -/
def resumeHeld (b : Block) : Block := resumeEnded (flushHeld b)

/-- A descriptor that has ended and waits for its function to resume. -/
def ended : Stage → Bool
  | .ended _ _ => true
  | _ => false

/-- Zero the extent of a verdict, then the entry; with WRITE_CHECK, the zeroing check comes between (R202, R253). -/
def zeroThen (j : Job) (v : Verdict) (b : Block) : Block :=
  let b := emitZeros j.fn j.world v.extent b
  match b.link.writeCheck, lastByte v.extent with
  | true, some a => onJob (issueRead j.fn j.world (.zeroCheck j.id) [(a, 1)] b) j.id (fun j => { j with stage := .zeroCheck v })
  | _, some _ => finishEntry j v true b
  | _, none => finishEntry j v false b

/-- The last DST byte that a descriptor's data writes covered (R202): of a release-on-verify last part, of the message. -/
def lastWritten (b : Block) (j : Job) : Option Nat :=
  match lastByte (takeRanges (walkRanges j.dst) j.wrote) with
  | some a => some a
  | none => (jobMsg b j).bind (fun m => if m.hold then lastByte (partsWritten m.parts) else none)

/-- End a descriptor with a verdict (R202, R253, R254), not yet freeing what waits for it; one that has ended and waits for its function
to resume ends again only with FROZEN (R39). -/
def concludeCore (id : Nat) (v : Verdict) (b : Block) : Block :=
  match jobOf b id with
  | none => b
  | some j =>
    if ended j.stage && v.status != stFrozen then b
    else if zeroing v.status then zeroThen j v b
    else
      match b.link.writeCheck, lastWritten b j with
      | true, some a =>
        onJob (issueRead j.fn j.world (.dataCheck j.id) [(a, 1)] b) j.id (fun j => { j with stage := .dataCheck v })
      | _, _ => finishEntry j v false b

/-! ### What a completion sets free -/

/-- A descriptor may start: in order on an admin SQ (R221); on an I/O SQ, no earlier fenced one still waits, and a fenced
one waits for every earlier one (R222). -/
def canStart (b : Block) (j : Job) : Bool :=
  let earlier := (jobsOf b j.dqn).filter (fun k => decide (k.id < j.id))
  if j.dqn < 256 then earlier.isEmpty
  else if dFenced j.desc then earlier.isEmpty
  else earlier.all (fun k => k.started || !dFenced k.desc)

/-- Opcodes an SQ of a kind executes (R227, R239). -/
def opcodeDefined (admin : Bool) (op : Nat) : Bool :=
  if admin then (decide (0x80 ≤ op) && decide (op ≤ 0x89)) || [0x40, 0x7E, 0x7F].contains op
  else isXts op || isSession op || isDigest op || [0x30, 0x31, 0x32, 0x33, 0x40, 0x50, 0x7E, 0x7F].contains op

/-- A DRAINING SQ with nothing left becomes DISABLED, and its open messages are abandoned (R223, R338). -/
def drainDone (n : Nat) (b : Block) : Block :=
  let s := sqOf b n
  if s.state = .draining ∧ s.head = s.tail ∧ s.reading = 0 ∧ (jobsOf b n).isEmpty = true then
    abandonWhere (fun m => m.dqn == n) (onSq n (fun s => { s with state := .disabled }) b)
  else b

/-- Read a descriptor's command block (HSM_CMD), or refuse it at checks 3 and 4; given by the keeper's file. -/
def startRowless (check : Bytes → Option (Nat × Nat)) (j : Job) (b : Block) : Block :=
  let b := onJob b j.id (fun j => { j with started := true })
  let op := dOp j.desc
  if opcodeDefined (decide (j.dqn < 256)) op = false then concludeCore j.id (verdict stInvalidOpcode op 0 0) b
  else
    match check j.desc with
    | some (st, det) => concludeCore j.id (verdict st det 0 0) b
    | none =>
      onJob (issueRead j.fn j.world (.block j.id) [(dSrc j.desc, dLen j.desc)] b) j.id (fun j => { j with
        stage := .keeper, src := { segs := [(dSrc j.desc, dLen j.desc, 0)], next := none, entries := 0, inTable := 0, sum := dLen j.desc } })

/-- One waiting descriptor that something may have set free. -/
def settleJob (check : Bytes → Option (Nat × Nat)) (b : Block) (id : Nat) : Block :=
  match jobOf b id with
  | none => b
  | some j =>
    match j.stage with
    | .arrived =>
      if (opcodeDefined (decide (j.dqn < 256)) (dOp j.desc) = false ∨ dOp j.desc = 0x40) ∧ canStart b j = true then
        startRowless check j b
      else b
    | .fenceAll ids n => if ids.all (fun i => (jobOf b i).isNone) then concludeCore id (success 0 n) b else b
    | .disable n =>
      let s := sqOf b n
      if s.reading = 0 then
        concludeCore id { success 0 (unread s) with detail := (jobsOf b n).length } b
      else b
    | _ => b

/-- Park the messages that wait for a parked-message slot, while slots last (R336). -/
def parkWaiting (b : Block) : Block :=
  (b.sce.msgs.filter (·.wantPark)).foldl (fun b m => parkMsg m.dqn m.msgId b) b

/-- Let everything proceed that a completion or an arrival may have set free: descriptors without a row of their own,
FENCE_ALL and DISABLE_SQ, draining SQs. -/
def settleWith (check : Bytes → Option (Nat × Nat)) (b : Block) : Block :=
  let once (b : Block) : Block := (b.work.jobs.map (·.id)).foldl (settleJob check) b
  let b := (List.range (b.work.jobs.length + 1)).foldl (fun b _ => once b) b
  parkWaiting ((b.q.sqs.map (·.1)).foldl (fun b n => drainDone n b) b)

end Sys2Proof.Machine
end

