-- ==== Sys2Proof/Machine/Operands.lean ====
section
/-! DEFINITION. What a descriptor's own bytes say: checks 1 to 4 of R242, output lengths (R241), fragment lists (R245 to
R247), admin and message-part parameters. -/

namespace Sys2Proof.Machine

/-! ### Algorithms of the digest opcodes (R351) -/

/-- Natural length of a digest ALG code; none where the code is unlisted. -/
def algLen (alg : Nat) : Option Nat :=
  match alg with
  | 0x01 => some 32 | 0x02 => some 48 | 0x03 => some 64
  | 0x04 => some 32 | 0x05 => some 48 | 0x06 => some 64
  | 0x08 => some 32 | 0x09 => some 64
  | 0x11 => some 32 | 0x12 => some 48 | 0x13 => some 64
  | 0x14 => some 32 | 0x15 => some 48 | 0x16 => some 64
  | 0x18 => some 32 | 0x19 => some 64
  | _ => none

/-- A keyed ALG. -/
def algKeyed (alg : Nat) : Bool := decide (0x11 ≤ alg) && decide (alg ≤ 0x19) && (algLen alg).isSome

/-- An HMAC code. -/
def algHmac (alg : Nat) : Bool := decide (0x11 ≤ alg) && decide (alg ≤ 0x16)

/-- A KMAC code. -/
def algKmac (alg : Nat) : Bool := alg == 0x18 || alg == 0x19

/-- OUT_LEN a code accepts (R351). -/
def outLenOk (alg outLen : Nat) : Bool :=
  match algLen alg with
  | none => false
  | some n =>
    if alg = 0x08 ∨ alg = 0x09 ∨ algKmac alg = true then true
    else if algHmac alg then outLen == 0 || (decide (4 ≤ outLen) && decide (outLen ≤ n))
    else outLen == 0 || outLen == n

/-- The code an opcode may carry (R351). -/
def algFits (op alg : Nat) : Bool :=
  (algLen alg).isSome &&
    (if op = 0x20 then !algKeyed alg
     else if op = 0x21 then algHmac alg
     else if op = 0x22 then algKmac alg
     else true)

/-- ALG and OUT_LEN of a digest descriptor (R240). -/
def dAlg (d : Bytes) : Nat := bits (dParam d) 7 0
def dOutLen (d : Bytes) : Nat := bits (dParam d) 15 8

/-- Effective output length of a digest descriptor: OUT_LEN, or the natural length (R240, R244). -/
def digestLen (d : Bytes) : Nat := if dOutLen d = 0 then (algLen (dAlg d)).getD 0 else dOutLen d

/-- The descriptor names a caller-supplied key (R240, R288). -/
def callerKey (d : Bytes) : Bool :=
  dHandle d == 0xFFFFFFFF && (dOp d == 0x21 || dOp d == 0x22 || (dOp d == 0x23 && algKeyed (dAlg d)))

/-- The opcode names a context (R239). -/
def namesContext (d : Bytes) : Bool :=
  let op := dOp d
  isXts op || isSession op || op == 0x21 || op == 0x22 || (op == 0x23 && algKeyed (dAlg d)) ||
    [0x30, 0x31, 0x32, 0x33].contains op

/-- The vault resolves the descriptor's context: its opcode names one and it brings no key of its own (R288). -/
def viaVault (d : Bytes) : Bool := namesContext d && !callerKey d

/-- KEY_LEN and S_LEN of a keyed digest (R240). -/
def dKeyLen (d : Bytes) : Nat := bits (dAad d) 15 0
def dSLen (d : Bytes) : Nat := bits (dAad d) 31 16

/-! ### Session parameters (R240, R325) -/

def isEnc (op : Nat) : Bool := [0x01, 0x10, 0x12, 0x14, 0x19].contains op
def isGcm (op : Nat) : Bool := op == 0x10 || op == 0x11
def isCcm (op : Nat) : Bool := op == 0x12 || op == 0x13
def isChacha (op : Nat) : Bool := op == 0x14 || op == 0x15
def isAead (op : Nat) : Bool := isGcm op || isCcm op || isChacha op
/-- A decryption that ends with a tag in its source. -/
def isAeadDec (op : Nat) : Bool := op == 0x11 || op == 0x13 || op == 0x15

def dTagLen (d : Bytes) : Nat := bits (dParam d) 7 0
def dIvLen (d : Bytes) : Nat := bits (dParam d) 12 8
def dFailMode (d : Bytes) : Nat := bits (dParam d) 15 14
def dFirst (d : Bytes) : Bool := dFlag d 2
def dLast (d : Bytes) : Bool := dFlag d 3

/-- A session part after the first: its IV is not judged (R331). -/
def laterPart (d : Bytes) : Bool := isSession (dOp d) && !dFirst d

/-- The most payload a message may carry (R325); none where the table gives no limit. -/
def payLimit (op param : Nat) : Option Nat :=
  if isGcm op then some 68719476704
  else if isCcm op then some (2 ^ (8 * (15 - bits param 12 8)) - 1)
  else if isChacha op then some 274877906880
  else none

/-- The source length that is not payload: AAD, and on the last part of an AEAD decryption the tag. -/
def overhead (d : Bytes) : Nat := dAad d + (if isAeadDec (dOp d) && dLast d then dTagLen d else 0)

/-- Payload of a session part (R325). -/
def payload (d : Bytes) : Nat := if isAead (dOp d) then dLen d - overhead d else dLen d

/-- Output length of a descriptor (R241); for CBC_DEC, of its output area. -/
def outLen (d : Bytes) : Nat :=
  let op := dOp d
  if isXts op || op == 0x18 || op == 0x50 then dLen d
  else if isAead op then payload d + (if isEnc op && dLast d then dTagLen d else 0)
  else if op = 0x19 then dLen d + (if dLast d then 16 - dLen d % 16 else 0)
  else if op = 0x1A then dLen d
  else if op = 0x1B then (if dLast d then dTagLen d else 0)
  else if op = 0x20 ∨ op = 0x21 ∨ op = 0x22 then digestLen d
  else 0

/-! ### Check 3: fields (R237, R238, R240, R241, R288, R307, R325, R326, R331, R351, R352) -/

/-- A fault at an offset when a condition fails. -/
def need (ok : Bool) (off : Nat) : List Nat := if ok then [] else [off]

/-- FLAGS bits an opcode does not allow (R238, R244). -/
def flagFaults (d : Bytes) : List Nat :=
  let op := dOp d
  let f (i : Nat) (ok : Bool) := need (!dFlag d i || ok) 0x01
  let dataOp := isXts op || isSession op || isDigest op
  f 0 (dataOp && !((op == 0x1B || isDigest op) && dLen d == 0)) ++
  f 1 (isXts op || (isSession op && op != 0x1B) || (op == 0x1B && dLast d) || [0x20, 0x21, 0x22, 0x50].contains op) ++
  f 2 (isSession op) ++ f 3 (isSession op) ++
  f 5 (isXts op || (isSession op && (op != 0x1B || laterPart d)) || (op == 0x23 && decide (digestLen d ≤ 16))) ++
  f 6 (namesContext d && op != 0x30)

/-- The handle values R288 calls out of range. -/
def handleFaults (v : Variant) (d : Bytes) : List Nat :=
  let h := dHandle d
  let slot := h % 2 ^ 20
  let gen := h / 2 ^ 20
  if namesContext d then
    if callerKey d then []
    else need (decide (slot < slotsOf v) && !(gen == 0 && slot != 0) && gen != 0xFFF &&
      !(h == 0 && (dFlag d 6 || [0x31, 0x32, 0x33].contains (dOp d)))) 0x04
  else need (h == 0) 0x04

/-- BLOB_ADDR zero where the opcode has none (R240). -/
def blobFaults (d : Bytes) : List Nat :=
  need ((namesContext d && !([0x31, 0x32, 0x33].contains (dOp d))) || dBlob d == 0) 0x08

/-- SRC, DST zero where the opcode has none (R240). -/
def addrFaults (d : Bytes) : List Nat :=
  let op := dOp d
  need (isXts op || isSession op || isDigest op || op == 0x40 || dSrc d == 0) 0x10 ++
  need (isXts op || isSession op || [0x20, 0x21, 0x22, 0x40, 0x50].contains op || dDst d == 0) 0x18

/-- LEN (R240, R241, R307, R325, R326). -/
def lenFaults (d : Bytes) : List Nat :=
  let op := dOp d
  let n := dLen d
  need (dLenHigh d == 0) 0x20 ++
  (if isXts op then
    let u := 2 ^ bits (dParam d) 4 0
    need (decide (16 ≤ n)) 0x20 ++ need (n % u == 0 || decide (16 ≤ n % u)) 0x20
   else if isSession op then
    let unit := if isChacha op then 64 else 16
    need (!(isAead op) || decide (overhead d ≤ n) || (op == 0x12 && decide (dAad d ≤ n + dTagLen d))) 0x20 ++
    need (isCcm op || dLast d || payload d % unit == 0) 0x20 ++
    need (op != 0x1A || !dLast d || (n % 16 == 0 && decide (16 ≤ n))) 0x20 ++
    need (!(dFirst d && dLast d) ||
      (match payLimit op (dParam d) with | some l => decide (payload d ≤ l) | none => true)) 0x20
   else if isDigest op then []
   else if op = 0x40 then need (decide (16 ≤ n) && decide (n ≤ 65536)) 0x20
   else if op = 0x50 then need (decide (1 ≤ n) && decide (n ≤ 16777216)) 0x20
   else need (n == 0) 0x20)

/-- The opcode's row of R240 is KMAC's: KMAC itself, or DIGEST_COMPARE with a KMAC code. -/
def kmacRow (d : Bytes) : Bool := dOp d == 0x22 || (dOp d == 0x23 && algKmac (dAlg d))

/-- AAD_LEN (R240, R326, R352), judged by the opcode's own row. -/
def aadFaults (d : Bytes) : List Nat :=
  let op := dOp d
  if isAead op then
    need (!(laterPart d) || isCcm op || dAad d == 0) 0x28 ++ need (!isCcm op || decide (dAad d ≤ dLen d)) 0x28
  else if op = 0x21 ∨ op = 0x22 ∨ (op = 0x23 ∧ algKeyed (dAlg d) = true) then
    (if callerKey d then need (decide (1 ≤ dKeyLen d) && decide (dKeyLen d ≤ 128)) 0x28 else need (dKeyLen d == 0) 0x28) ++
    (if kmacRow d then need (decide (dSLen d ≤ 256) && decide (dSLen d ≤ dLen d)) 0x28 else need (dSLen d == 0) 0x28)
  else need (dAad d == 0) 0x28

/-- MSG_ID (R240, R331) and the flags a CCM descriptor is to set (R326). -/
def msgFaults (d : Bytes) : List Nat :=
  if isSession (dOp d) then
    need ((dFirst d && dLast d) == (dMsg d == 0)) 0x2C ++ need (!isCcm (dOp d) || (dFirst d && dLast d)) 0x01
  else need (dMsg d == 0) 0x2C

/-- PARAM (R240, R306, R325, R351). -/
def paramFaults (d : Bytes) : List Nat :=
  let op := dOp d
  let p := dParam d
  let inR (v lo hi : Nat) : Bool := decide (lo ≤ v) && decide (v ≤ hi)
  if isXts op then need (inR (bits p 4 0) 9 24 && bits p 15 5 == 0) 0x2E
  else if isAead op then
    need (!bit p 13 && (if isEnc op then dFailMode d == 0 else dFailMode d != 3)) 0x2E ++
    (if isGcm op then need (inR (dTagLen d) 4 16 && inR (dIvLen d) 1 16) 0x2E
     else if isCcm op then need (inR (dTagLen d) 4 16 && dTagLen d % 2 == 0 && inR (dIvLen d) 7 13) 0x2E
     else need (dTagLen d == 16 && dIvLen d == 12) 0x2E)
  else if op = 0x18 ∨ op = 0x1B then need (inR (bits p 7 0) 4 16 && bits p 15 8 == 0) 0x2E
  else if isDigest op then need (algFits op (dAlg d) && outLenOk (dAlg d) (dOutLen d)) 0x2E
  else need (p == 0) 0x2E

/-- IV_OR_TWEAK (R240, R244): zero where the opcode has none, the unused bytes of a nonce or of a pointer zero. -/
def ivFaults (d : Bytes) : List Nat :=
  let op := dOp d
  if laterPart d then []
  else if isXts op || op == 0x23 || (isSession op && op != 0x1B) then
    if dFlag d 5 then need (!isAead op || allZero d (0x30 + dIvLen d) (16 - dIvLen d)) 0x30
    else need (allZero d 0x38 8) 0x30
  else need (allZero d 0x30 16) 0x30

/-- The fields that check 3 finds offending, as DETAIL values. -/
def fieldFaults (v : Variant) (d : Bytes) : List Nat :=
  flagFaults d ++ handleFaults v d ++ blobFaults d ++ addrFaults d ++ lenFaults d ++ aadFaults d ++ msgFaults d ++
    paramFaults d ++ ivFaults d

/-- The lowest of some offsets. -/
def lowest : List Nat → Option Nat
  | [] => none
  | a :: rest => match lowest rest with
    | none => some a
    | some b => some (min a b)

/-- The source is a fragment list: FRAG_SRC. -/
def fragSrc (d : Bytes) : Bool := dFlag d 0
def fragDst (d : Bytes) : Bool := dFlag d 1

/-- The opcode reads an IV or expected value through a pointer (R244). -/
def ivPointer (d : Bytes) : Bool :=
  let op := dOp d
  !dFlag d 5 && !laterPart d && (isXts op || op == 0x23 || (isSession op && op != 0x1B))

/-- Check 4: alignment (R243); the lowest misaligned field. -/
def alignFaults (d : Bytes) : List Nat :=
  need (callerKey d || !namesContext d || dFlag d 6 || dBlob d % 16 == 0) 0x08 ++
  need (!callerKey d || dBlob d % 8 == 0) 0x08 ++
  need (!fragSrc d || dSrc d % 16 == 0) 0x10 ++
  need (!fragDst d || dDst d % 16 == 0) 0x18 ++
  need (!ivPointer d || leAt d 0x30 8 % 8 == 0) 0x30

/-- Check 2: the variant lacks the unit (R6). -/
def unitAbsent (v : Variant) (op : Nat) : Bool :=
  decide (v = Variant.jtH48B) && (isXts op || isSession op)

/-- Checks 2 to 4 of R242 for an I/O opcode: status and DETAIL of the first failure. -/
def ownChecks (v : Variant) (d : Bytes) : Option (Nat × Nat) :=
  if unitAbsent v (dOp d) then some (stUnitAbsent, dOp d)
  else match lowest (fieldFaults v d) with
    | some off => some (stInvalidField, off)
    | none => match lowest (alignFaults d) with
      | some off => some (stAlignment, off)
      | none => none

/-- NOP, FENCE and HSM_CMD on an admin SQ: FLAGS other than FENCE and IRQ_SUPPRESS are refused as on any SQ (R227, R238). -/
def rowlessChecks (v : Variant) (d : Bytes) : Option (Nat × Nat) := ownChecks v d

/-- `settleWith` with the checks of HSM_CMD. -/
def settle (b : Block) : Block := settleWith (rowlessChecks b.run.variant) b

/-- End a descriptor and let what waited for it proceed. -/
def conclude (id : Nat) (v : Verdict) (b : Block) : Block := settle (concludeCore id v b)

/-! ### Fragment lists (R245 to R247) -/

/-- A walk that has read nothing, from a list at an address. -/
def Walk.start (addr : Nat) : Walk := { segs := [], next := some addr, entries := 0, inTable := 0, sum := 0 }

/-- The walk of a stream that is one range. -/
def Walk.plain (addr len : Nat) : Walk := { segs := [(addr, len, 0)], next := none, entries := 0, inTable := 0, sum := len }

/-- A walk of nothing. -/
def Walk.empty : Walk := { segs := [], next := none, entries := 0, inTable := 0, sum := 0 }

/-- Entries of the piece that starts at an address: to the end of its 4 KiB block of host memory (R246). -/
def pieceLen (addr : Nat) : Nat := (4096 - addr % 4096) / 16

/-- What judging a piece gives: the walk so far, or a failure (R247). -/
inductive PieceResult where
  | ok (w : Walk)
  | tableError (entry reason : Nat)
  | mismatch (entry sum : Nat)
  | fetchError (first : Nat)
  deriving DecidableEq, Repr

/-- Judge the entries of a piece in order; `total` is the length the running sum is held against; `bad` says whether the
completion that covers an entry failed. -/
def judgePiece (total first : Nat) (bad : Nat → Bool) : List Bytes → Nat → Nat → Walk → PieceResult
  | [], _, addr, w => .ok { w with next := some addr }
  | e :: rest, k, addr, w =>
    let a := leAt e 0 8
    let len := leAt e 8 4
    let ff := leAt e 12 4
    let chain := bit ff 0
    let last := bit ff 31
    if bad k then .fetchError first
    else if 1048576 ≤ w.entries then .tableError w.entries 6
    else if bits ff 30 1 ≠ 0 then .tableError w.entries 1
    else if chain && last then .tableError w.entries 2
    else if (chain && len != 0) || (!chain && len == 0) then .tableError w.entries 3
    else if w.inTable = 4095 ∧ chain = false ∧ last = false then .tableError w.entries 4
    else if chain then
      if a % 16 ≠ 0 then .tableError w.entries 5
      else .ok { w with next := some a, entries := w.entries + 1, inTable := 0 }
    else
      let sum := w.sum + len
      let w' : Walk := { segs := w.segs ++ [(a, len, w.entries)], next := some (addr + 16), entries := w.entries + 1,
                         inTable := w.inTable + 1, sum := sum }
      if total < sum then .mismatch w.entries sum
      else if last then (if sum < total then .mismatch w.entries sum else .ok { w' with next := none })
      else judgePiece total first bad rest (k + 1) (addr + 16) w'

/-- Judge the piece a read returned for a walk. -/
def walkPiece (total : Nat) (w : Walk) (res : HostData) : PieceResult :=
  let bad (k : Nat) : Bool := res.errs.any (fun e => decide (e.off < 16 * (k + 1)) && decide (16 * k < e.off + e.len))
  judgePiece total w.entries bad (chunks 16 res.data) 0 (w.next.getD 0) w

/-- The length an output list is held against: the output length, for CBC_DEC LEN (R247). -/
def dstTotal (d : Bytes) : Nat := outLen d

/-! ### Admin descriptors (R228) -/

def aQid (d : Bytes) : Nat := leAt d 0x04 2
def aSize (d : Bytes) : Nat := leAt d 0x06 1
def aQflags (d : Bytes) : Nat := leAt d 0x07 1
def aBase (d : Bytes) : Nat := leAt d 0x08 8
def aShadow (d : Bytes) : Nat := leAt d 0x10 8
def aDst (d : Bytes) : Nat := leAt d 0x18 8
def aCqid (d : Bytes) : Nat := leAt d 0x20 2
def aMinCred (d : Bytes) : Nat := leAt d 0x22 2
def aWeight (d : Bytes) : Nat := leAt d 0x24 1
def aVector (d : Bytes) : Nat := leAt d 0x26 2
def aLen (d : Bytes) : Nat := leAt d 0x28 4
def aTarget (d : Bytes) : Nat := leAt d 0x2C 2
def aQuota (d : Bytes) : Nat := leAt d 0x2E 2
def aCap (d : Bytes) : Nat := leAt d 0x30 2
def aPref (d : Bytes) : Nat := leAt d 0x32 1

/-- The byte ranges of the fields a command uses, OPCODE, FLAGS and CMD_ID among them (R228). -/
def adminUses (d : Bytes) (pf0 : Bool) : List (Nat × Nat) :=
  let op := dOp d
  let vfAdmin := decide (aTarget d ≠ 0)
  [(0, 4)] ++
  (if op ≤ 0x86 then [(4, 2)] else []) ++
  (if op = 0x80 ∨ op = 0x81 then [(6, 1), (8, 8)] else []) ++
  (if op = 0x81 ∨ op = 0x85 ∨ op = 0x89 then [(7, 1)] else []) ++
  (if op = 0x80 then [(0x10, 8), (0x20, 4)] else []) ++
  (if op = 0x85 ∨ op = 0x87 then [(0x18, 8)] else []) ++
  (if (op = 0x80 ∧ vfAdmin = false) ∨ op = 0x86 then [(0x24, 1)] else []) ++
  (if op = 0x81 then [(0x26, 2)] else []) ++
  (if op = 0x87 then [(0x28, 4)] else []) ++
  (if op ≤ 0x85 ∧ pf0 = true then [(0x2C, 2)] else []) ++
  (if op = 0x80 ∧ vfAdmin = true then [(0x2E, 2)] else []) ++
  (if op = 0x88 then [(0x30, 3)] else [])

/-- A byte outside the fields a command uses is not 0, a QFLAGS bit it does not define is set, or FLAGS holds more than
FENCE and IRQ_SUPPRESS (R227, R228). -/
def adminUnused (d : Bytes) (pf0 : Bool) : Bool :=
  let uses := adminUses d pf0
  let used (i : Nat) : Bool := uses.any (fun r => decide (r.1 ≤ i) && decide (i < r.1 + r.2))
  (List.range 64).any (fun i => !used i && byteAt d i != 0) || decide (aQflags d / 2 ≠ 0) ||
    decide (dFlags d &&& 0x6F ≠ 0)

end Sys2Proof.Machine
end

