-- ==== Sys2Proof/Machine/Hash.lean ====
section
/-! DEFINITION. The digest opcodes' functions by ALG code (R351), HMAC (PRESUMED, assumption 16, FIPS 198-1). -/

namespace Sys2Proof.Machine

/-- An unkeyed digest (R351). -/
def digest (alg : Nat) (m : Bytes) (out : Nat) : Bytes :=
  match alg with
  | 0x01 => sha256 m
  | 0x02 => sha384 m
  | 0x03 => sha512 m
  | 0x04 => sha3 32 m
  | 0x05 => sha3 48 m
  | 0x06 => sha3 64 m
  | 0x08 => shake 168 m out
  | 0x09 => shake 136 m out
  | _ => []

/-- The hash under an HMAC code. -/
def hmacHash (alg : Nat) : Nat := alg - 0x10

/-- The block length of the hash under an HMAC code. -/
def hmacBlock (alg : Nat) : Nat :=
  match alg with
  | 0x11 => 64 | 0x12 => 128 | 0x13 => 128
  | 0x14 => 136 | 0x15 => 104 | 0x16 => 72
  | _ => 64

/-- HMAC, full length (R351, R353). -/
def hmac (alg : Nat) (key m : Bytes) : Bytes :=
  let h (x : Bytes) := digest (hmacHash alg) x 0
  let b := hmacBlock alg
  let k0 := if b < key.length then h key else key
  let k := k0 ++ zeros (b - k0.length)
  h (k.map (· ^^^ 0x5C) ++ h (k.map (· ^^^ 0x36) ++ m))

/-- The value of a digest opcode with these fields (R351, R352, R356): ALG, effective output length, key, S_LEN, source. -/
def digestValue (alg out : Nat) (key : Bytes) (sLen : Nat) (src : Bytes) : Bytes :=
  if algHmac alg then (hmac alg key src).take out
  else if alg = 0x18 then kmac 168 key (src.drop sLen) out (src.take sLen)
  else if alg = 0x19 then kmac 136 key (src.drop sLen) out (src.take sLen)
  else (digest alg src out).take out

end Sys2Proof.Machine
end

