-- ==== Sys2Proof/Machine/Aes.lean ====
section
/-! DEFINITION. AES-128 and AES-256 (PRESUMED, assumption 16, FIPS 197: the spec names the standard), on 16-byte strings. -/

namespace Sys2Proof.Machine

/-- The S-box of FIPS 197, entry 0 most significant. -/
def aesSboxTable : Nat := 0x637C777BF26B6FC53001672BFED7AB76CA82C97DFA5947F0ADD4A2AF9CA472C0B7FD9326363FF7CC34A5E5F171D8311504C723C31896059A071280E2EB27B27509832C1A1B6E5AA0523BD6B329E32F8453D100ED20FCB15B6ACBBE394A4C58CFD0EFAAFB434D338545F9027F503C9FA851A3408F929D38F5BCB6DA2110FFF3D2CD0C13EC5F974417C4A77E3D645D197360814FDC222A908846EEB814DE5E0BDBE0323A0A4906245CC2D3AC629195E479E7C8376D8DD54EA96C56F4EA657AAE08BA78252E1CA6B4C6E8DD741F4BBD8B8A703EB5664803F60E613557B986C11D9EE1F8981169D98E949B1E87E9CE5528DF8CA1890DBFE6426841992D0FB054BB16

/-- The inverse S-box of FIPS 197, entry 0 most significant. -/
def aesInvSboxTable : Nat := 0x52096AD53036A538BF40A39E81F3D7FB7CE339829B2FFF87348E4344C4DEE9CB547B9432A6C2233DEE4C950B42FAC34E082EA16628D924B2765BA2496D8BD12572F8F66486689816D4A45CCC5D65B6926C704850FDEDB9DA5E154657A78D9D8490D8AB008CBCD30AF7E45805B8B34506D02C1E8FCA3F0F02C1AFBD0301138A6B3A9111414F67DCEA97F2CFCEF0B4E67396AC7422E7AD3585E2F937E81C75DF6E47F11A711D29C5896FB7620EAA18BE1BFC563E4BC6D279209ADBC0FE78CD5AF41FDDA8338807C731B11210592780EC5F60517FA919B54A0D2DE57A9F93C99CEFA0E03B4DAE2AF5B0C8EBBB3C83539961172B047EBA77D626E169146355210C7D

/-- Entry `i` of a 256-byte table held as one number. -/
def tableByte (t i : Nat) : Byte := BitVec.ofNat 8 (t >>> (8 * (255 - i)))

/-- SubBytes of one byte. -/
def aesSub (b : Byte) : Byte := tableByte aesSboxTable b.toNat

/-- InvSubBytes of one byte. -/
def aesInvSub (b : Byte) : Byte := tableByte aesInvSboxTable b.toNat

/-- Multiplication by x in GF(2^8). -/
def xtime (b : Byte) : Byte := if b.msb then (b <<< 1) ^^^ 0x1B else b <<< 1

/-- Multiplication by a small constant in GF(2^8). -/
def gfMul8 (k : Nat) (b : Byte) : Byte :=
  let b2 := xtime b
  let b4 := xtime b2
  let b8 := xtime b4
  (if k.testBit 0 then b else 0) ^^^ (if k.testBit 1 then b2 else 0) ^^^
    (if k.testBit 2 then b4 else 0) ^^^ (if k.testBit 3 then b8 else 0)

/-- MixColumns of one column under a circulant first row. -/
def mixCol (m0 m1 m2 m3 : Nat) (c : Bytes) : Bytes :=
  let a := byteAt c 0
  let b := byteAt c 1
  let d := byteAt c 2
  let e := byteAt c 3
  [gfMul8 m0 a ^^^ gfMul8 m1 b ^^^ gfMul8 m2 d ^^^ gfMul8 m3 e,
   gfMul8 m3 a ^^^ gfMul8 m0 b ^^^ gfMul8 m1 d ^^^ gfMul8 m2 e,
   gfMul8 m2 a ^^^ gfMul8 m3 b ^^^ gfMul8 m0 d ^^^ gfMul8 m1 e,
   gfMul8 m1 a ^^^ gfMul8 m2 b ^^^ gfMul8 m3 d ^^^ gfMul8 m0 e]

/-- ShiftRows: byte `i` comes from position `i + 4 (i mod 4)`. -/
def shiftRows (s : Bytes) : Bytes := (List.range 16).map (fun i => byteAt s ((i + 4 * (i % 4)) % 16))

/-- InvShiftRows. -/
def invShiftRows (s : Bytes) : Bytes := (List.range 16).map (fun i => byteAt s ((i + 12 * (i % 4)) % 16))

/-- The round constants x^(i-1), i from 1. -/
def aesRcon : Nat → Byte
  | 0 => 1
  | n + 1 => xtime (aesRcon n)

/-- One step of the key expansion: the next four bytes from the words so far (latest first). -/
def aesNextWord (nk i : Nat) (rev : List Bytes) : Bytes :=
  let prev := rev.headD []
  let back := (rev.drop (nk - 1)).headD []
  let t :=
    if i % nk = 0 then
      match prev.map aesSub with
      | a :: rest => (match rest ++ [a] with
        | x :: ys => (x ^^^ aesRcon (i / nk - 1)) :: ys
        | [] => [])
      | [] => []
    else if nk > 6 ∧ i % nk = 4 then prev.map aesSub
    else prev
  xorBytes back t

/-- The expanded key as 4-byte words, in order. -/
def aesExpand (key : Bytes) : List Bytes :=
  let nk := key.length / 4
  let first := (chunks 4 key).reverse
  ((List.range (4 * (nk + 7) - nk)).foldl (fun rev j => aesNextWord nk (nk + j) rev :: rev) first).reverse

/-- The round keys, 16 bytes each. -/
def aesRoundKeys (key : Bytes) : List Bytes := chunks 16 (aesExpand key).flatten

/-- The cipher over expanded round keys. -/
def aesEncRounds : Bytes → List Bytes → Bytes
  | s, [] => s
  | s, [k] => xorBytes (shiftRows (s.map aesSub)) k
  | s, k :: k2 :: rest =>
    aesEncRounds (xorBytes ((chunks 4 (shiftRows (s.map aesSub))).map (mixCol 2 3 1 1)).flatten k) (k2 :: rest)

/-- The inverse cipher, round keys latest first. -/
def aesDecRounds : Bytes → List Bytes → Bytes
  | s, [] => s
  | s, [k] => xorBytes ((invShiftRows s).map aesInvSub) k
  | s, k :: k2 :: rest =>
    aesDecRounds ((chunks 4 (xorBytes ((invShiftRows s).map aesInvSub) k)).map (mixCol 14 11 13 9)).flatten (k2 :: rest)

/-- AES encryption of one block under round keys. -/
def aesEnc (rk : List Bytes) (blk : Bytes) : Bytes :=
  match rk with
  | [] => blk
  | k :: rest => aesEncRounds (xorBytes blk k) rest

/-- AES decryption of one block under round keys. -/
def aesDec (rk : List Bytes) (blk : Bytes) : Bytes :=
  match rk.reverse with
  | [] => blk
  | k :: rest => aesDecRounds (xorBytes blk k) rest

end Sys2Proof.Machine
end

