-- ==== Sys2Proof/Machine/Modes.lean ====
section
/-! DEFINITION. XTS, GCM, CCM, CTR, CBC, CMAC and RFC 5649 (PRESUMED, assumption 16 from the standards R305, R327 and R281 name). Each mode
is given as the keystream or block steps that a message carries from part to part (R336). -/

namespace Sys2Proof.Machine

/-- Exclusive or of two 16-byte blocks given as numbers. -/
def blkNat (b : Bytes) : Nat := beNat (slice b 0 16)

/-! ### XTS (R305 to R308) -/

/-- Multiplication of the tweak mask by alpha (IEEE 1619, byte 0 least significant). -/
def xtsAlpha (t : Nat) : Nat :=
  let s := 2 * t
  if s < 2 ^ 128 then s else (s - 2 ^ 128) ^^^ 0x87

/-- One XTS block under a mask held as a little-endian number. -/
def xtsBlock (f : Bytes → Bytes) (t : Nat) (b : Bytes) : Bytes :=
  let m := lePut 16 t
  xorBytes (f (xorBytes b m)) m

/-- The blocks of a data unit whose length is a whole number of blocks. -/
def xtsBlocks (f : Bytes → Bytes) : List Bytes → Nat → Bytes
  | [], _ => []
  | b :: rest, t => xtsBlock f t b ++ xtsBlocks f rest (xtsAlpha t)

/-- The mask after `n` multiplications by alpha. -/
def xtsMask : Nat → Nat → Nat
  | 0, t => t
  | n + 1, t => xtsMask n (xtsAlpha t)

/-- Encryption of one data unit (R308: ciphertext stealing). -/
def xtsEncUnit (rk1 rk2 : List Bytes) (tweak : Nat) (u : Bytes) : Bytes :=
  let t0 := leNat (aesEnc rk2 (lePut 16 tweak))
  let m := u.length / 16
  let b := u.length % 16
  if b = 0 then xtsBlocks (aesEnc rk1) (chunks 16 u) t0
  else
    let head := xtsBlocks (aesEnc rk1) (chunks 16 (u.take (16 * (m - 1)))) t0
    let tm1 := xtsMask (m - 1) t0
    let cc := xtsBlock (aesEnc rk1) tm1 (slice u (16 * (m - 1)) 16)
    let pm := u.drop (16 * m)
    head ++ xtsBlock (aesEnc rk1) (xtsAlpha tm1) (pm ++ cc.drop b) ++ cc.take b

/-- Decryption of one data unit (R308: the mask order is reversed). -/
def xtsDecUnit (rk1 rk2 : List Bytes) (tweak : Nat) (u : Bytes) : Bytes :=
  let t0 := leNat (aesEnc rk2 (lePut 16 tweak))
  let m := u.length / 16
  let b := u.length % 16
  if b = 0 then xtsBlocks (aesDec rk1) (chunks 16 u) t0
  else
    let head := xtsBlocks (aesDec rk1) (chunks 16 (u.take (16 * (m - 1)))) t0
    let tm1 := xtsMask (m - 1) t0
    let pp := xtsBlock (aesDec rk1) (xtsAlpha tm1) (slice u (16 * (m - 1)) 16)
    let cm := u.drop (16 * m)
    head ++ xtsBlock (aesDec rk1) tm1 (cm ++ pp.drop b) ++ pp.take b

/-- A whole XTS stream cut into data units of `unit` bytes; the tweak of unit j is T0 + j mod 2^128 (R306). -/
def xtsStream (enc : Bool) (key : Bytes) (t0 unit : Nat) (data : Bytes) : Bytes :=
  let rk1 := aesRoundKeys (key.take 32)
  let rk2 := aesRoundKeys ((key.drop 32).take 32)
  ((chunks unit data).zipIdx).flatMap (fun p =>
    let tw := (t0 + p.2) % 2 ^ 128
    if enc then xtsEncUnit rk1 rk2 tw p.1 else xtsDecUnit rk1 rk2 tw p.1)

/-! ### Counter modes -/

/-- The counter block with its last `cb` bytes, a big-endian counter, advanced by `n` modulo 2^(8 cb) (R327). -/
def ctrBlock (iv : Bytes) (cb n : Nat) : Bytes :=
  let v := beNat iv
  let m := 2 ^ (8 * cb)
  bePut 16 (v - v % m + (v % m + n) % m)

/-- Exclusive or of data with the keystream that starts `start` blocks after the counter block. -/
def ctrXor (rk : List Bytes) (iv : Bytes) (cb start : Nat) (data : Bytes) : Bytes :=
  ((chunks 16 data).zipIdx).flatMap (fun p => xorBytes p.1 (aesEnc rk (ctrBlock iv cb (start + p.2))))

/-! ### GHASH and GCM (SP 800-38D) -/

/-- Multiplication in GF(2^128) in GCM's bit order (blocks as big-endian numbers). -/
def gfMul128 (x y : Nat) : Nat :=
  ((List.range 128).foldl (fun (zv : Nat × Nat) i =>
    let z := if x.testBit (127 - i) then zv.1 ^^^ zv.2 else zv.1
    let v := if zv.2 % 2 = 1 then (zv.2 / 2) ^^^ (0xE1 <<< 120) else zv.2 / 2
    (z, v)) (0, y)).1

/-- GHASH of zero-padded data from an accumulator. -/
def ghash (h acc : Nat) (data : Bytes) : Nat :=
  (chunks 16 data).foldl (fun a b => gfMul128 (a ^^^ blkNat b) h) acc

/-- The pre-counter block J0 (R327): IV followed by 1 for 12 bytes, by GHASH otherwise. -/
def gcmJ0 (rk : List Bytes) (iv : Bytes) : Bytes :=
  if iv.length = 12 then iv ++ [0, 0, 0, 1]
  else
    let h := beNat (aesEnc rk (zeros 16))
    bePut 16 (ghash h (ghash h 0 iv) (zeros 8 ++ bePut 8 (8 * iv.length)))

/-- The full GCM tag from the accumulator after AAD and ciphertext. -/
def gcmTag (rk : List Bytes) (j0 : Bytes) (acc aad pay : Nat) : Bytes :=
  let h := beNat (aesEnc rk (zeros 16))
  let s := ghash h acc (bePut 8 (8 * aad) ++ bePut 8 (8 * pay))
  xorBytes (bePut 16 s) (aesEnc rk j0)

/-- AES-GCM encryption in one call: ciphertext and full tag. -/
def gcmSeal (key iv aad pt : Bytes) : Bytes × Bytes :=
  let rk := aesRoundKeys key
  let h := beNat (aesEnc rk (zeros 16))
  let j0 := gcmJ0 rk iv
  let ct := ctrXor rk j0 4 1 pt
  (ct, gcmTag rk j0 (ghash h (ghash h 0 aad) ct) aad.length pt.length)

/-- AES-GCM decryption in one call: the plaintext when the 16-byte tag matches. -/
def gcmOpen (key iv aad ct tag : Bytes) : Option Bytes :=
  let rk := aesRoundKeys key
  let h := beNat (aesEnc rk (zeros 16))
  let j0 := gcmJ0 rk iv
  if gcmTag rk j0 (ghash h (ghash h 0 aad) ct) aad.length ct.length = tag then some (ctrXor rk j0 4 1 ct) else none

/-! ### CBC and CBC-MAC -/

/-- CBC encryption from a chaining block: output and the next chaining block. -/
def cbcEnc (rk : List Bytes) (iv : Bytes) (data : Bytes) : Bytes × Bytes :=
  (chunks 16 data).foldl (fun (p : Bytes × Bytes) b =>
    let c := aesEnc rk (xorBytes b p.2)
    (p.1 ++ c, c)) ([], iv)

/-- CBC decryption from a chaining block: output and the next chaining block. -/
def cbcDec (rk : List Bytes) (iv : Bytes) (data : Bytes) : Bytes × Bytes :=
  (chunks 16 data).foldl (fun (p : Bytes × Bytes) b => (p.1 ++ xorBytes (aesDec rk b) p.2, b)) ([], iv)

/-- CBC-MAC of zero-padded data from a chaining value. -/
def cbcMac (rk : List Bytes) (acc : Nat) (data : Bytes) : Nat :=
  (chunks 16 data).foldl (fun a b => beNat (aesEnc rk (bePut 16 (a ^^^ blkNat b)))) acc

/-- Doubling of SP 800-38B. -/
def cmacDouble (x : Nat) : Nat :=
  let s := 2 * x
  if s < 2 ^ 128 then s else (s - 2 ^ 128) ^^^ 0x87

/-- The last step of CMAC over the held-back block (0 to 16 bytes). -/
def cmacFinal (rk : List Bytes) (acc : Nat) (last : Bytes) : Bytes :=
  let k1 := cmacDouble (beNat (aesEnc rk (zeros 16)))
  if last.length = 16 then aesEnc rk (bePut 16 (acc ^^^ blkNat last ^^^ k1))
  else aesEnc rk (bePut 16 (acc ^^^ blkNat (last ++ [0x80]) ^^^ cmacDouble k1))

/-- The bytes of a CMAC message that can be absorbed at once, and the block held back (R327). -/
def cmacSplit (data : Bytes) : Bytes × Bytes :=
  let n := if data.length = 0 then 0 else 16 * ((data.length - 1) / 16)
  (data.take n, data.drop n)

/-- CMAC of a whole message. -/
def cmac (key data : Bytes) : Bytes :=
  let rk := aesRoundKeys key
  let p := cmacSplit data
  cmacFinal rk (cbcMac rk 0 p.1) p.2

/-! ### CCM (SP 800-38C) -/

/-- The block B0 and the encoded AAD, whole blocks. -/
def ccmHeader (nonce : Bytes) (tagLen pay : Nat) (aad : Bytes) : Bytes :=
  let q := 15 - nonce.length
  let flags := (if aad.length = 0 then 0 else 64) + 8 * ((tagLen - 2) / 2) + (q - 1)
  let enc : Bytes :=
    if aad.length = 0 then []
    else if aad.length < 65280 then bePut 2 aad.length
    else [0xFF, 0xFE] ++ bePut 4 aad.length
  let a := enc ++ aad
  [BitVec.ofNat 8 flags] ++ nonce ++ bePut q pay ++ a ++ zeros ((16 - a.length % 16) % 16)

/-- The counter block 0 of CCM. -/
def ccmCtr0 (nonce : Bytes) : Bytes := [BitVec.ofNat 8 (14 - nonce.length)] ++ nonce ++ zeros (15 - nonce.length)

/-- The CCM tag over a plaintext. -/
def ccmTag (rk : List Bytes) (nonce : Bytes) (tagLen : Nat) (aad pt : Bytes) : Bytes :=
  let mac := cbcMac rk (cbcMac rk 0 (ccmHeader nonce tagLen pt.length aad)) pt
  (xorBytes (bePut 16 mac) (aesEnc rk (ccmCtr0 nonce))).take tagLen

/-! ### RFC 5649 -/

/-- One step of the key-wrap function W. -/
def kwStep (rk : List Bytes) (n : Nat) (st : Bytes × List Bytes) (k : Nat) : Bytes × List Bytes :=
  let i := k % n
  let b := aesEnc rk (st.1 ++ st.2.getD i [])
  (xorBytes (b.take 8) (bePut 8 (k + 1)), st.2.set i (b.drop 8))

/-- AES key wrap with padding (RFC 5649) of a key. -/
def kwpWrap (kek key : Bytes) : Bytes :=
  let rk := aesRoundKeys kek
  let n := ceilDiv key.length 8
  let padded := key ++ zeros (8 * n - key.length)
  let aiv : Bytes := [0xA6, 0x59, 0x59, 0xA6] ++ bePut 4 key.length
  if n = 1 then aesEnc rk (aiv ++ padded)
  else
    let r := (List.range (6 * n)).foldl (kwStep rk n) (aiv, chunks 8 padded)
    r.1 ++ r.2.flatten

end Sys2Proof.Machine
end

