-- ==== Sys2Proof/Machine/KeyOps.lean ====
section
/-! DEFINITION. Blob headers and their attributes, owner KEKs, opening and wrapping blobs, randomness for the device itself
(R263 to R272, R299, R369). -/

namespace Sys2Proof.Machine

/-! ### Randomness (R369, R370) -/

/-- A reseed of instance 0 or 1 (R370). -/
def reseed (i : Nat) (b : Block) : Block :=
  b.onRng (fun r => if i = 0 then { r with reqs0 := 0, seeded0 := b.time.secs, reseeds := sat32 (r.reseeds + 1) }
    else { r with reqs1 := 0, seeded1 := b.time.secs, reseeds := sat32 (r.reseeds + 1) })

/-- One generate request of an instance for `n` bytes; it reseeds before its 65,536th request after the last reseed (R370). -/
def generate (i n : Nat) (b : Block) : Block :=
  let b := if (if i = 0 then b.rng.reqs0 else b.rng.reqs1) = 65535 then reseed i b else b
  b.onRng (fun r => if i = 0 then { r with drawn0 := r.drawn0 + n, reqs0 := r.reqs0 + 1 }
    else { r with drawn1 := r.drawn1 + n, reqs1 := r.reqs1 + 1 })

/-- Bytes from DRBG instance 1, one generate request (R369, R370). -/
def draw1 (n : Nat) (b : Block) : Bytes × Block :=
  ((List.range n).map (fun i => Config.drbg 1 (b.rng.drawn1 + i)), generate 1 n b)

/-- Bytes from DRBG instance 0, in generate requests of at most 64 KiB (R371). -/
def draw0 (n : Nat) (b : Block) : Bytes × Block :=
  ((List.range n).map (fun i => Config.drbg 0 (b.rng.drawn0 + i)),
   (List.range (ceilDiv n 65536)).foldl (fun b k => generate 0 (min 65536 (n - 65536 * k)) b) b)

/-- Bytes for a key or seed: instance 1 reseeds first (R370). -/
def drawSeed (n : Nat) (b : Block) : Bytes × Block := draw1 n (reseed 1 b)

/-! ### Blob headers (R265) -/

def hType (h : Bytes) : Nat := leAt h 5 1
def hAlg (h : Bytes) : Nat := leAt h 6 1
def hKeyLen (h : Bytes) : Nat := leAt h 7 1
def hUsage (h : Bytes) : Nat := leAt h 8 2
def hOwner (h : Bytes) : Nat := leAt h 0x0A 2
def hReq (h : Bytes) : Nat := leAt h 0x0C 4
def hWorld (h : Bytes) : Nat := leAt h 0x10 1
def hLcs (h : Bytes) : Nat := leAt h 0x11 1
def hEpoch (h : Bytes) : Nat := leAt h 0x12 2
def hNonceHi (h : Bytes) : Bytes := slice h 0x14 4
def hBlobId (h : Bytes) : Nat := leAt h 0x18 8

/-- Usage bits by number (R268). -/
def useEncrypt : Nat := 0
def useDecrypt : Nat := 1
def useMac : Nat := 2
def useWrap : Nat := 3
def useUnwrap : Nat := 4
def useDerive : Nat := 5
def useSign : Nat := 6
def useExportable : Nat := 8
def useHoldOnly : Nat := 9
def useStream : Nat := 10
def useRetro : Nat := 11

/-- Usage bits a key type allows, as a mask (R267). -/
def usageMask (t : Nat) : Nat :=
  match t with
  | 0x01 | 0x02 => 0xB07
  | 0x03 => 0x503
  | 0x04 => 0xB03
  | 0x05 | 0x06 => 0x104
  | 0x07 => 0x118
  | 0x08 => 0x120
  | 0x10 | 0x11 | 0x12 => 0x040
  | 0x13 | 0x14 => 0x020
  | 0x18 | 0x19 | 0x1A => 0x040
  | 0x1C | 0x1D => 0x030
  | _ => 0

/-- KEY_LEN a key type takes (R267). -/
def keyLenOk (t n : Nat) : Bool :=
  match t with
  | 0x01 => n == 16
  | 0x02 | 0x04 | 0x07 | 0x10 | 0x12 | 0x13 | 0x18 | 0x19 | 0x1A => n == 32
  | 0x11 | 0x14 => n == 48
  | 0x03 | 0x1C | 0x1D => n == 64
  | 0x05 | 0x06 => decide (16 ≤ n) && decide (n ≤ 96)
  | 0x08 => decide (32 ≤ n) && decide (n ≤ 96)
  | _ => false

/-- ALG a key type takes (R267, R351). -/
def keyAlgOk (t alg : Nat) : Bool :=
  alg == 0 ||
  (match t with
  | 0x01 | 0x02 => decide (2 ≤ alg) && decide (alg ≤ 6)
  | 0x03 => alg == 1
  | 0x04 => alg == 7
  | 0x05 => algHmac alg
  | 0x06 => algKmac alg
  | _ => false)

/-- A KEY_TYPE of an asymmetric private key (R267). -/
def asymType (t : Nat) : Bool := [0x10, 0x11, 0x12, 0x13, 0x14, 0x18, 0x19, 0x1A, 0x1C, 0x1D].contains t

/-- The combination of R267, and the rules of R270 that a template shares with a blob header. -/
def attrsOk (t alg n usage owner req world lcs : Nat) : Bool :=
  keyLenOk t n && keyAlgOk t alg && (usage &&& usageMask t == usage) && !(bit usage useHoldOnly && bit usage useRetro) &&
    decide (owner ≤ 4095) && decide (req / 4096 = 0) && decide (req / 256 % 16 ≠ 0) && decide (world / 4 = 0) &&
    decide (world ≠ 0) && decide (lcs / 64 = 0) && decide (lcs ≠ 0)

/-- A well-formed blob header (R270). -/
def headerOk (h : Bytes) : Bool :=
  leAt h 0 4 == 0x4A4B4231 && leAt h 4 1 == 1 &&
    attrsOk (hType h) (hAlg h) (hKeyLen h) (hUsage h) (hOwner h) (hReq h) (hWorld h) (hLcs h)

/-! ### Owner keys (R263, R264) -/

/-- Owner keys are available (R28, R31, R79, R264): SERVICE, not KEYS_LOCKED, a device root and a domain root. -/
def ownerKeys (b : Block) : Bool :=
  decide (b.run.state = .service) && !b.run.keysLocked && b.key.deviceRoot.isSome && b.key.domState != 2

/-- The domain root of an accepted epoch (R264). -/
def domainRoot (b : Block) (e : Nat) : Option Bytes :=
  if b.key.domState = 0 then (if e = 0 then b.key.localRoot else none)
  else if b.key.domState = 1 then
    if e = b.key.epoch then b.key.root
    else match b.key.prevRoot with
      | some (pe, r) => if e = pe then some r else none
      | none => none
  else none

/-- An epoch the device accepts (R264). -/
def epochAccepted (b : Block) (e : Nat) : Bool :=
  if b.key.domState = 0 then e == 0
  else if b.key.domState = 1 then e == b.key.epoch || (match b.key.prevRoot with | some (pe, _) => e == pe | none => false)
  else false

/-- The owner KEK of an owner and epoch (R261), held already or derived now (R263). -/
def ownerKek (b : Block) (owner e : Nat) : Option Bytes :=
  match tget b.key.keks (owner + 4096 * e) with
  | some k => some k
  | none => (domainRoot b e).map (fun r => kdf r "JKH owner kek" (lePut 2 owner ++ lePut 2 e) 32)

/-- Hold an owner KEK from its first use; none is derived while KEYS_LOCKED is 1 or STATE is not SERVICE (R263). -/
def holdKek (owner e : Nat) (b : Block) : Block :=
  match ownerKek b owner e with
  | some k => if ownerKeys b then b.onKey (fun x => { x with keks := tset x.keks (owner + 4096 * e) k }) else b
  | none => b

/-- Open a blob whose header has been judged (R270): the key when the tag and the padding are good. -/
def openBlob (b : Block) (blob : Bytes) : Option Bytes :=
  let h := blob.take 32
  match ownerKek b (hOwner h) (hEpoch h) with
  | none => none
  | some kek =>
    let wk := kdf kek "JKH blob wrap" h 32
    match gcmOpen wk (slice h 0x14 12) h (slice blob 32 96) (slice blob 128 16) with
    | none => none
    | some pt => if (pt.drop (hKeyLen h)).all (· == 0) then some (pt.take (hKeyLen h)) else none

/-- Wrap a key under a complete header (R266). -/
def sealBlob (b : Block) (h key : Bytes) : Bytes :=
  let wk := kdf ((ownerKek b (hOwner h) (hEpoch h)).getD []) "JKH blob wrap" h 32
  let p := gcmSeal wk (slice h 0x14 12) h (slice key 0 96)
  h ++ p.1 ++ p.2

/-- BOOT_COUNT of record 0 (R272). -/
def bootCount (b : Block) : Nat := leAt ((recPayload b 0).getD []) 0 8

/-- Reserve the next block of blob-counter values when the present one is used up (R272). -/
def reserveBlobs (b : Block) : Block :=
  if b.key.blobNext < b.key.blobLimit then b
  else
    let lim := b.key.blobLimit + 4096
    let b := commitRec 0 (lePut 8 (bootCount b) ++ lePut 8 lim ++ zeros 31) b
    b.onKey (fun k => { k with blobLimit := lim })

/-- Produce a blob from a template (R266, R279): NONCE_HI from the DRBG, BLOB_ID from the counter, the current epoch. -/
def makeBlob (template key : Bytes) (b : Block) : Bytes × Block :=
  let b := reserveBlobs b
  let id := b.key.member * 2 ^ 50 + b.key.blobNext % 2 ^ 50
  let b := b.onKey (fun k => { k with blobNext := k.blobNext + 1 })
  let (nh, b) := draw1 4 b
  let h := template.take 0x12 ++ lePut 2 b.key.epoch ++ nh ++ lePut 8 id
  let b := holdKek (hOwner h) b.key.epoch b
  (sealBlob b h key, b)

/-- A function is bound to an owner (R382): PF0 to owner 0, a VF as FN_BIND left it. -/
def boundTo (b : Block) (fn owner : Nat) : Bool :=
  if fn = 0 then owner == 0 else tget b.kpr.bindings fn == some owner

/-- A requester that REQ allows (R269), for a function. -/
def reqAllowed (b : Block) (h : Bytes) (fn : Nat) : Bool :=
  let r := hReq h
  (bit r 8 && bits r 7 0 == fn) || (bit r 9 && boundTo b fn (hOwner h))

/-! ### Per-use checks (R268, R299) -/

/-- The opcode's key fits (check 6): usage bit, KEY_TYPE and ALG (R268, R325, R351). -/
def usageFits (d h : Bytes) : Bool :=
  let op := dOp d
  let u := hUsage h
  let t := hType h
  let a := hAlg h
  let aes (code : Nat) : Bool := (t == 1 || t == 2) && (a == 0 || a == code)
  if op = 0x01 then t == 3 && hKeyLen h == 64 && bit u useEncrypt
  else if op = 0x02 then t == 3 && hKeyLen h == 64 && bit u useDecrypt
  else if op = 0x10 then aes 2 && bit u useEncrypt
  else if op = 0x11 then aes 2 && bit u useDecrypt
  else if op = 0x12 then aes 3 && bit u useEncrypt
  else if op = 0x13 then aes 3 && bit u useDecrypt
  else if op = 0x14 then t == 4 && bit u useEncrypt
  else if op = 0x15 then t == 4 && bit u useDecrypt
  else if op = 0x18 then aes 4 && (bit u useEncrypt || bit u useDecrypt)
  else if op = 0x19 then aes 5 && bit u useEncrypt
  else if op = 0x1A then aes 5 && bit u useDecrypt
  else if op = 0x1B then aes 6 && bit u useMac
  else if op = 0x21 ∨ op = 0x22 ∨ op = 0x23 then
    let alg := dAlg d
    (if algHmac alg then t == 5 else t == 6) && (a == 0 || a == alg) && bit u useMac
  else true

/-- The per-use checks of R299 on a header, in order, for a function and a world: status and DETAIL of the first failure. The
management opcodes take checks 1 to 5 alone (R297). -/
def useChecks (b : Block) (fn : Nat) (world : Bool) (d h : Bytes) : Option (Nat × Nat) :=
  let op := dOp d
  if b.run.state = .frozen then some (stFrozen, 0)
  else if ownerKeys b = false then some (stPolicyDenied, 7)
  else if epochAccepted b (hEpoch h) = false then some (stEpochRetired, hEpoch h)
  else if reqAllowed b h fn = false then some (stPolicyDenied, 1)
  else if bit (hWorld h) (b2n world) = false then some (stPolicyDenied, 2)
  else if bit (hLcs h) b.run.lcs = false then some (stPolicyDenied, 3)
  else if [0x30, 0x31, 0x32, 0x33].contains op then none
  else if usageFits d h = false then some (stPolicyDenied, 4)
  else if isXts op ∧ bit (hUsage h) useStream = false then some (stPolicyDenied, 5)
  else if isAeadDec op ∧ bit (hUsage h) useHoldOnly ∧ dFailMode d = 2 then some (stPolicyDenied, 6)
  else none

/-- The first failure among steps 1, 3 and 4 of R292, before a slot is claimed. -/
def loadChecks (b : Block) (fn : Nat) (world : Bool) (h : Bytes) : Option (Nat × Nat) :=
  if headerOk h = false then some (stBlobIntegrity, 1)
  else if epochAccepted b (hEpoch h) = false then some (stEpochRetired, hEpoch h)
  else if reqAllowed b h fn = false then some (stPolicyDenied, 1)
  else if bit (hWorld h) (b2n world) = false then some (stPolicyDenied, 2)
  else if bit (hLcs h) b.run.lcs = false then some (stPolicyDenied, 3)
  else none

end Sys2Proof.Machine
end

