-- ==== Sys2Proof/Machine/Resolve.lean ====
section
/-! DEFINITION. Resolving a context: handles, loads, claims, evictions, the checks at every use, and what an erasure does to the
copies of a key (R288 to R302, R312, R322). -/

namespace Sys2Proof.Machine

/-! ### Slots (R285 to R289) -/

/-- A slot that has held nothing since chip reset. -/
def VSlot.free : VSlot :=
  { state := .free, gen := 0, bytes := [], owner := 0, blobId := 0, tag8 := [], lastUse := 0 }

/-- The attributes a slot holds (R286), at the offsets of the blob header they come from (R265); none while nothing is placed. -/
def VSlot.header (v : VSlot) : Bytes :=
  let s := v.bytes
  if s.isEmpty then []
  else lePut 4 0x4A4B4231 ++ lePut 1 1 ++ slice s 0x60 3 ++ slice s 0x66 4 ++ lePut 4 (leAt s 0x6A 2) ++ slice s 0x63 2 ++ slice s 0x6C 2 ++
    zeros 4 ++ slice s 0x70 8

/-- PINNED of a slot's SFLAGS (R286). -/
def VSlot.pinned (v : VSlot) : Bool := bit (leAt v.bytes 0x65 1) 0

/-- The slot mask of a placement (R287). -/
def slotMask (b : Block) (s g : Nat) : Bytes := kmac256 b.vlt.maskKey (lePut 4 s ++ lePut 2 g) 96 (ascii "JVM")

/-- The first 0x78 bytes of a slot with their CHECK (R287). -/
def sealSlot (b : Block) (s : Nat) (body : Bytes) : Bytes :=
  body ++ kmac256 b.vlt.checkKey (lePut 4 s ++ body) 8 (ascii "JVS")

/-- The 128 bytes of a slot that a blob's key is placed in (R286). -/
def slotBytes (b : Block) (s g : Nat) (h key : Bytes) : Bytes :=
  sealSlot b s (xorBytes (key ++ zeros (96 - key.length)) (slotMask b s g) ++ slice h 5 3 ++ slice h 0x10 2 ++ lePut 1 0 ++ slice h 8 4 ++
    lePut 2 (hReq h % 4096) ++ slice h 0x12 2 ++ lePut 2 g ++ slice h 0x18 8)

/-- A slot of the vault. -/
def slotAt (b : Block) (s : Nat) : VSlot := tgetD VSlot.free b.vlt.slots s

/-- Change a slot. -/
def onSlot (s : Nat) (f : VSlot → VSlot) (b : Block) : Block :=
  b.onVlt (fun v => { v with slots := tmod VSlot.free f v.slots s })

/-- CHECK of a slot verifies (R287). -/
def slotSound (b : Block) (s : Nat) : Bool := decide ((slotAt b s).bytes = sealSlot b s ((slotAt b s).bytes.take 0x78))

/-- The key of a slot, its mask removed on the key path (R287, R299). -/
def ctxKey (b : Block) (s : Nat) : Bytes :=
  let v := (slotAt b s).bytes
  (xorBytes (v.take 96) (slotMask b s (leAt v 0x6E 2))).take (leAt v 0x62 1)

/-- Write PINNED of a slot, its CHECK computed again (R286, R287). -/
def pinSlot (s : Nat) (p : Bool) (b : Block) : Block :=
  onSlot s (fun v => { v with bytes := sealSlot b s (v.bytes.take 0x65 ++ lePut 1 (b2n p) ++ slice v.bytes 0x66 18) }) b

/-- The vault resolves and places (R302, R455): neither FAILED nor in its self-test nor asked to quiesce. -/
def vaultServes (b : Block) : Bool := !b.vlt.failed && !b.vlt.selfTest && !quiescing b .vault

/-- The generation after `g` (R288). -/
def nextGen (g : Nat) : Nat := if g = 0xFFE then 1 else g + 1

/-- A handle (R236). -/
def handleOf (slot gen : Nat) : Nat := gen * 2 ^ 20 + slot

/-- Slots on the free list (R293). -/
def freeCount (b : Block) : Nat := slotsOf b.run.variant - b.vlt.fresh + b.vlt.freed.length

/-- A descriptor in one of these stages is executing on a unit (R289). -/
def onUnit : Stage → Bool
  | .keyRead | .ivRead | .srcPiece | .dstPiece | .data | .running | .dataCheck _ | .zeroCheck _ => true
  | _ => false

/-- The context of a slot is in use: a descriptor that resolved to it executes, or a message bound to it is open, on the basic level too
(R289). A slot takes no other context before the last use has ended. -/
def inUse (b : Block) (slot : Nat) : Bool :=
  b.work.jobs.any (fun j => onUnit j.stage && (j.ctx.map (·.1)) == some slot) ||
  b.sce.msgs.any (fun m => decide (m.state ≠ MsgState.opening) && m.ctx.1 == slot) ||
  (match b.leg.key with
  | some (s, _, _) => b.leg.busy && s == slot
  | none => false)

/-- The context of a bank is still one that a unit may keep (R312, R322): RESIDENT, with owner keys available. -/
def bankLive (b : Block) (k : Bank) : Bool :=
  let s := slotAt b k.slot
  decide (s.state = SlotState.resident) && s.gen == k.gen && ownerKeys b

/-- Erase the key copies whose context has left RESIDENT, but for those that a running descriptor still needs (R312,
R320, R322). -/
def purgeBanks (b : Block) : Block :=
  let keep (busy : Bool) (k : Option Bank) : Option Bank :=
    match k with
    | some k => if busy || bankLive b k then some k else none
    | none => none
  let b' := b.onSte (fun s => { s with lanes := s.lanes.map (fun l =>
    { l with bank := keep l.running.isSome l.bank, spare := keep false l.spare }) })
  b'.onSce (fun s => { s with cores := s.cores.map (fun c => { c with key := keep c.job.isSome c.key }) })

/-- A slot becomes FREE (R289): zeroed, generation kept, at the tail of the free list. -/
def freeSlot (s : Nat) (b : Block) : Block :=
  (onSlot s (fun v => { VSlot.free with gen := v.gen }) b).onVlt (fun v => { v with freed := v.freed ++ [s] })

/-- Erase a RESIDENT context (R289): FREE, or EVICTING while it is in use. -/
def eraseCtx (s : Nat) (b : Block) : Block :=
  let v := slotAt b s
  if v.state ≠ .resident then b
  else purgeBanks (if inUse b s then onSlot s (fun v => { v with state := .evicting }) b else freeSlot s b)

/-- The least recently used context that may be evicted (R295). -/
def lruVictim (b : Block) : Option Nat :=
  (b.vlt.slots.foldl (fun (best : Option (Nat × Nat)) p =>
    if p.2.state = .resident ∧ p.2.pinned = false ∧ inUse b p.1 = false then
      match best with
      | none => some (p.1, p.2.lastUse)
      | some (i, t) => if p.2.lastUse < t then some (p.1, p.2.lastUse) else some (i, t)
    else best) none).map (·.1)

/-- Evict the least recently used context (R295), when there is one. -/
def evictLru (b : Block) : Block :=
  match lruVictim b with
  | some s => (eraseCtx s b).onVlt (fun v => { v with evictions := sat32 (v.evictions + 1) })
  | none => b

/-- Evict while the free count is below VLT_CFG.RESERVE (R293). -/
def keepReserve : Nat → Block → Block
  | 0, b => b
  | n + 1, b => if freeCount b < b.vlt.reserve ∧ (lruVictim b).isSome = true then keepReserve n (evictLru b) else b

/-- The head of the free list, taken off it (R293). -/
def takeFree (b : Block) : Option (Nat × Block) :=
  if b.vlt.fresh < slotsOf b.run.variant then
    some (b.vlt.fresh, b.onVlt (fun v => { v with fresh := v.fresh + 1 }))
  else
    match b.vlt.freed with
    | s :: rest => some (s, b.onVlt (fun v => { v with freed := rest }))
    | [] => none

/-- Claim a slot for a blob (R293): the home slot of the handle, or the head of the free list; none when a claim waits. -/
def claimSlot (handle : Nat) (blob : Bytes) (b : Block) : Option (Nat × Block) :=
  let s := handle % 2 ^ 20
  let g := handle / 2 ^ 20
  let load (s g : Nat) (b : Block) : Block :=
    keepReserve 512 (onSlot s (fun _ =>
      { VSlot.free with state := .loading, gen := g, owner := hOwner blob, blobId := hBlobId blob, tag8 := slice blob 128 8 }) b)
  if handle ≠ 0 ∧ b.vlt.freed.contains s = true ∧ (slotAt b s).gen = g then
    some (s, load s g (b.onVlt (fun v => { v with freed := v.freed.filter (· != s) })))
  else
    let b := if freeCount b = 0 then evictLru b else b
    (takeFree b).map (fun p => (p.1, load p.1 (nextGen (slotAt b p.1).gen) p.2))

/-! ### Loads (R290 to R294) -/

/-- Loads between step 2 and step 8 of R292. -/
def loadsInFlight (b : Block) : Nat :=
  b.work.jobs.countP (fun j => match j.stage with
    | .blobRead => true
    | .placeWait => true
    | .unwrap _ => true
    | .loadWait _ => decide (j.blob ≠ [])
    | _ => false)

/-- Put a descriptor into a stage. -/
def setStage (id : Nat) (st : Stage) (b : Block) : Block := onJob b id (fun j => { j with stage := st })

/-- Claim a slot for a descriptor's blob and start its unwrap, or wait for a place (R293, R295). -/
def claimFor (id : Nat) (b : Block) : Block :=
  match jobOf b id with
  | none => b
  | some j =>
    match claimSlot (dHandle j.desc) j.blob b with
    | some (s, b) => setStage id (.unwrap s) b
    | none => setStage id .placeWait b

/-- Read the blob of a descriptor (R292, step 2). -/
def startBlob (id : Nat) (b : Block) : Block :=
  match jobOf b id with
  | none => b
  | some j => setStage id .blobRead (issueRead j.fn j.world (.blob id) [(dBlob j.desc, 144)] b)

/-- Read the blob of a descriptor, or wait, in arrival order, for a place among 64 loads (R291). -/
def readBlob (id : Nat) (b : Block) : Block :=
  if 64 ≤ loadsInFlight b ∨ b.vlt.waiting ≠ [] then
    (setStage id .loadQueue b).onVlt (fun v => { v with waiting := v.waiting ++ [id] })
  else startBlob id b

/-- Start the loads that waited, while fewer than 64 run. -/
def nextLoads (b : Block) : Block :=
  (List.range b.vlt.waiting.length).foldl (fun b _ =>
    match b.vlt.waiting with
    | i :: rest =>
      if loadsInFlight b < 64 then startBlob i (b.onVlt (fun v => { v with waiting := rest })) else b
    | [] => b) b

/-! ### Resolution (R290, R299) -/

/-- What R290 finds for a descriptor. -/
inductive Resolution where
  | wait
  | hit (slot : Nat)
  | loading (slot : Nat)
  | refused (status detail : Nat)
  | load
  deriving DecidableEq, Repr

/-- Resolve a descriptor's handle (R290), with what R302 and R372 say of a vault that is FAILED or has no keys. -/
def resolve (b : Block) (d : Bytes) : Resolution :=
  let h := dHandle d
  let s := h % 2 ^ 20
  let g := h / 2 ^ 20
  let v := slotAt b s
  if b.run.state = .frozen then .refused stFrozen 0
  else if b.vlt.failed then .refused stEngineAlarm 0x0500
  else if b.vlt.ready = false ∧ b.rng.state = .failed then .refused stEngineAlarm 0x0601
  else if b.vlt.ready = false ∨ b.vlt.selfTest = true ∨ quiescing b .vault = true then .wait
  else if h ≠ 0 ∧ v.state = .resident ∧ v.gen = g then .hit s
  else if h ≠ 0 ∧ v.state = .loading ∧ v.gen = g then .loading s
  else if dFlag d 6 = true ∨ [0x31, 0x32, 0x33].contains (dOp d) = true then
    if v.gen ≠ g then .refused stContextStale v.gen else .refused stContextNotLoaded h
  else if ownerKeys b = false then .refused stPolicyDenied 7
  else .load

/-- Lanes fenced by host software, every one the variant carries (R311). -/
def allLanesFenced (b : Block) : Bool :=
  decide (0 < lanesOf b.run.variant) && (List.range (lanesOf b.run.variant)).all (bit b.ste.fence)

/-- Cores fenced by host software, every one the variant carries (R324). -/
def allCoresFenced (b : Block) : Bool :=
  decide (0 < coresOf b.run.variant) && (List.range (coresOf b.run.variant)).all (bit b.sce.fence)

/-- Hand a descriptor that has passed checks 1 to 6 to the list of its unit (R311, R323, R350). -/
def enqueue (id : Nat) (b : Block) : Block :=
  match jobOf b id with
  | none => b
  | some j =>
    let b' := setStage id .pending b
    if isXts (dOp j.desc) then
      if allLanesFenced b then concludeCore id (verdict stUnitReset 0x01FF 0 0) b
      else b'.onSte (fun s => { s with pending := s.pending ++ [id] })
    else if isSession (dOp j.desc) then
      if allCoresFenced b then concludeCore id (verdict stUnitReset 0x02FF 0 0) b
      else b'.onSce (fun s => { s with pending := s.pending ++ [id] })
    else b'.onDge (fun s => { s with pending := s.pending ++ [id] })

/-- Record a resolution in the use order (R295). -/
def touch (s : Nat) (b : Block) : Block :=
  (onSlot s (fun v => { v with lastUse := b.vlt.useClock }) b).onVlt (fun v => { v with useClock := v.useClock + 1 })

/-- A descriptor has resolved to a RESIDENT slot: the read of the slot verifies its CHECK, the checks of R299 follow, then the management opcode's
action (R297) or its unit. Where CHECK fails the descriptor waits for the alarm that this raises (ENGINE_ALARM), which ends it (R302). -/
def resolved (id slot : Nat) (b : Block) : Block :=
  match jobOf b id with
  | none => b
  | some j =>
    if slotSound b slot = false then setStage id .arrived b
    else
    let v := slotAt b slot
    let h := handleOf slot v.gen
    let b := touch slot b
    if j.dqn = ghostQueue then removeJob id b else
    match useChecks b j.fn j.world j.desc v.header with
    | some (st, det) => concludeCore id (verdict st det 0 0) b
    | none =>
      match dOp j.desc with
      | 0x30 => concludeCore id (success 0 h) b
      | 0x31 =>
        if inUse b slot then setStage id (.evictWait slot) (eraseCtx slot b)
        else concludeCore id (success 0 0) (eraseCtx slot b)
      | 0x32 => concludeCore id (success 0 h) (pinSlot slot true b)
      | 0x33 => concludeCore id (success 0 0) (pinSlot slot false b)
      | _ => enqueue id (onJob b id (fun j => { j with ctx := some (slot, v.gen), hdr := v.header }))

/-- Check 6 of a descriptor whose opcode names a context: resolve it (R290). Nothing changes while resolution waits. -/
def startResolve (id : Nat) (b : Block) : Block :=
  match jobOf b id with
  | none => b
  | some j =>
    match resolve b j.desc with
    | .wait => b
    | .hit s => resolved id s b
    | .loading s => setStage id (.loadWait s) b
    | .refused st det => concludeCore id (verdict st det 0 0) b
    | .load => readBlob id b

/-- Steps 5 and 6 of R292 for a blob in hand; they wait while the vault does not serve. -/
def indexLookup (id : Nat) (b : Block) : Block :=
  match jobOf b id with
  | none => b
  | some j =>
    let same (p : Nat × VSlot) : Bool :=
      p.2.owner == hOwner j.blob && p.2.blobId == hBlobId j.blob && p.2.tag8 == slice j.blob 128 8
    if vaultServes b = false then setStage id .placeWait b
    else match b.vlt.slots.find? (fun p => same p && decide (p.2.state = SlotState.resident)) with
    | some p => resolved id p.1 (b.onVlt (fun v => { v with idHits := sat32 (v.idHits + 1) }))
    | none =>
      match b.vlt.slots.find? (fun p => same p && decide (p.2.state = SlotState.loading)) with
      | some p => setStage id (.loadWait p.1) b
      | none => claimFor id b

/-- Let waiting claims proceed, in order (R295); a blob that another load brings meanwhile is not loaded twice (R294). -/
def retryClaims (b : Block) : Block :=
  ((b.work.jobs.filter (fun j => decide (j.stage = Stage.placeWait))).map (·.id)).foldl (fun b i => indexLookup i b) b

/-- The blob of a descriptor has arrived: steps 3 to 6 of R292. -/
def blobArrived (id : Nat) (blob : Bytes) (b : Block) : Block :=
  match jobOf b id with
  | none => b
  | some j =>
    let b := onJob b id (fun j => { j with blob := blob })
    if b.vlt.failed then concludeCore id (verdict stEngineAlarm 0x0500 0 0) b
    else match loadChecks b j.fn j.world (blob.take 32) with
    | some (st, det) => nextLoads (concludeCore id (verdict st det 0 0) b)
    | none => nextLoads (indexLookup id b)

/-- Descriptors that wait for the load of a slot: with a blob of their own, or by handle. -/
def waitersOf (b : Block) (slot : Nat) : List Job :=
  b.work.jobs.filter (fun j => decide (j.stage = Stage.loadWait slot))

/-- A load has ended without placing its context (R289, R294): the slot is FREE, waiters by handle share the result, waiters
with a blob go on from step 6. -/
def loadFailed (id slot status detail : Nat) (b : Block) : Block :=
  let ws := waitersOf b slot
  let b := concludeCore id (verdict status detail 0 0) (freeSlot slot b)
  let b := (ws.filter (fun j => decide (j.blob = []))).foldl (fun b j => concludeCore j.id (verdict status detail 0 0) b) b
  let b := (ws.filter (fun j => decide (j.blob ≠ []))).foldl (fun b j => indexLookup j.id b) b
  nextLoads (retryClaims b)

/-- The unwrap engine has finished a blob: steps 7 and 8 of R292. While the vault tests itself the load waits. -/
def unwrapDone (id slot : Nat) (b : Block) : Block :=
  match jobOf b id with
  | none => b
  | some j =>
    let h := j.blob.take 32
    if b.vlt.selfTest then b
    else match openBlob b j.blob with
    | none => loadFailed id slot stBlobIntegrity 2 b
    | some key =>
      let b := holdKek (hOwner h) (hEpoch h) b
      let b := onSlot slot (fun v => { v with state := .resident, bytes := slotBytes b slot v.gen h key }) b
      let b := b.onVlt (fun v => { v with loads := sat32 (v.loads + 1) })
      let ws := waitersOf b slot
      let b := resolved id slot (onJob b id (fun j => { j with loaded := true }))
      nextLoads (ws.foldl (fun b j => resolved j.id slot b) b)

/-- The last use of a context has ended (R289): an EVICTING slot becomes FREE and its CTX_EVICT completes. -/
def useEnded (slot : Nat) (b : Block) : Block :=
  if inUse b slot = false ∧ (slotAt b slot).state = .evicting then
    let ws := b.work.jobs.filter (fun j => decide (j.stage = Stage.evictWait slot))
    ws.foldl (fun b j => concludeCore j.id (success 0 0) b) (purgeBanks (freeSlot slot b))
  else b

/-- Erase every context that a condition names (R300). -/
def eraseWhere (p : VSlot → Bool) (b : Block) : Block :=
  (b.vlt.slots.filter (fun q => p q.2)).foldl (fun b q => eraseCtx q.1 b) b

/-- Stop a load that is not in the unwrap engine, with a status. -/
def stopFetch (status detail id : Nat) (b : Block) : Block :=
  match jobOf b id with
  | none => b
  | some j => match j.stage with
    | .blobRead | .placeWait | .loadWait _ | .loadQueue =>
      concludeCore id (verdict status detail 0 0) (b.onVlt (fun v => { v with waiting := v.waiting.filter (· != id) }))
    | _ => b

/-- Stop a load in the unwrap engine, with a status that those waiting for it by handle share (R290, R294). -/
def stopUnwrap (status detail id : Nat) (b : Block) : Block :=
  match jobOf b id with
  | none => b
  | some j => match j.stage with
    | .unwrap s => loadFailed id s status detail b
    | _ => b

/-- Stop every load that has not reached step 8 and that a condition names, with a status (R300). -/
def stopLoads (p : Job → Bool) (status detail : Nat) (b : Block) : Block :=
  let ids := (b.work.jobs.filter p).map (·.id)
  ids.foldl (fun b i => stopUnwrap status detail i b) (ids.foldl (fun b i => stopFetch status detail i b) b)

end Sys2Proof.Machine
end

