-- ==== Sys2Proof/Machine/Data.lean ====
section
/-! DEFINITION. A descriptor on its unit: check 7 of R242, the reads of its source, the ciphers of its part, and what it writes
(R244, R246, R247, R306, R313, R327 to R329, R336, R352). -/

namespace Sys2Proof.Machine

/-! ### The ciphers of one part (R327, R336) -/

/-- What a part gives: its output without a tag, whether tag or padding is good, the tag, the message state after it. -/
structure PartOut where
  out : Bytes
  ok  : Bool
  tag : Bytes
  st  : CipherSt
  deriving DecidableEq, Repr

/-- The state of a message before its first part. -/
def cipherStart (op param : Nat) (key iv : Bytes) : CipherSt :=
  let nonce := iv.take (bits param 12 8)
  if isGcm op then
    { iv := gcmJ0 (aesRoundKeys key) nonce, blocks := 1, acc := 0, tail := [], aad := 0, pay := 0 }
  else if isAead op then { iv := nonce, blocks := 1, acc := 0, tail := [], aad := 0, pay := 0 }
  else { iv := iv, blocks := 0, acc := 0, tail := [], aad := 0, pay := 0 }

/-- PKCS#7 padding of the last block is good (R329). -/
def padOk (pt : Bytes) : Bool :=
  let p := (pt.getLast?.getD 0).toNat
  decide (1 ≤ p) && decide (p ≤ 16) && decide (p ≤ pt.length) && (pt.drop (pt.length - p)).all (fun x => x.toNat == p)

/-- One part of a GCM message. -/
def gcmPart (enc : Bool) (tagLen : Nat) (key : Bytes) (aad pay tag : Bytes) (s : CipherSt) : PartOut :=
  let rk := aesRoundKeys key
  let h := beNat (aesEnc rk (zeros 16))
  let x := ctrXor rk s.iv 4 s.blocks pay
  let acc := ghash h (ghash h s.acc aad) (if enc then x else pay)
  let s' := { s with blocks := s.blocks + ceilDiv pay.length 16, acc := acc, aad := s.aad + aad.length,
                     pay := s.pay + pay.length }
  let t := (gcmTag rk s.iv acc s'.aad s'.pay).take tagLen
  { out := x, ok := enc || decide (t = tag), tag := t, st := s' }

/-- A CCM message. -/
def ccmPart (enc : Bool) (tagLen : Nat) (key : Bytes) (aad pay tag : Bytes) (s : CipherSt) : PartOut :=
  let rk := aesRoundKeys key
  let x := ctrXor rk (ccmCtr0 s.iv) (15 - s.iv.length) 1 pay
  let t := ccmTag rk s.iv tagLen aad (if enc then pay else x)
  { out := x, ok := enc || decide (t = tag), tag := t, st := s }

/-- One part of a ChaCha20-Poly1305 message. -/
def chachaPart (enc : Bool) (tagLen : Nat) (key : Bytes) (aad pay tag : Bytes) (s : CipherSt) : PartOut :=
  let pk := polyKey key s.iv
  let x := chachaXor key s.blocks s.iv pay
  let acc := polyAbsorb pk (polyAbsorb pk s.acc aad) (if enc then x else pay)
  let s' := { s with blocks := s.blocks + ceilDiv pay.length 64, acc := acc, aad := s.aad + aad.length,
                     pay := s.pay + pay.length }
  let t := (polyTag pk acc s'.aad s'.pay).take tagLen
  { out := x, ok := enc || decide (t = tag), tag := t, st := s' }

/-- One part of a session message: opcode, PARAM, last part or not, key, AAD, payload, received tag, state. -/
def cipherPart (op param : Nat) (last : Bool) (key aad pay tag : Bytes) (s : CipherSt) : PartOut :=
  let rk := aesRoundKeys key
  let tagLen := bits param 7 0
  let plain (out : Bytes) (s : CipherSt) : PartOut :=
    { out := out, ok := true, tag := [], st := { s with pay := s.pay + pay.length } }
  if isGcm op then gcmPart (isEnc op) tagLen key aad pay tag s
  else if isCcm op then ccmPart (isEnc op) tagLen key aad pay tag s
  else if isChacha op then chachaPart (isEnc op) tagLen key aad pay tag s
  else if op = 0x18 then
    plain (ctrXor rk s.iv tagLen s.blocks pay) { s with blocks := s.blocks + ceilDiv pay.length 16 }
  else if op = 0x19 then
    let n := 16 - pay.length % 16
    let r := cbcEnc rk s.iv (if last then pay ++ List.replicate n (BitVec.ofNat 8 n) else pay)
    plain r.1 { s with iv := r.2 }
  else if op = 0x1A then
    let r := cbcDec rk s.iv pay
    if last then
      { out := r.1.take (r.1.length - (if padOk r.1 then (r.1.getLast?.getD 0).toNat else 16)), ok := padOk r.1, tag := [],
        st := { s with iv := r.2, pay := s.pay + pay.length } }
    else plain r.1 { s with iv := r.2 }
  else
    let p := cmacSplit (s.tail ++ pay)
    let acc := cbcMac rk s.acc p.1
    { out := [], ok := true, tag := (cmacFinal rk acc p.2).take tagLen,
      st := { s with acc := acc, tail := p.2, pay := s.pay + pay.length } }

/-- The message state a part starts from. -/
def partStart (b : Block) (j : Job) (key : Bytes) : CipherSt :=
  match (if dFirst j.desc then none else jobMsg b j) with
  | some m => m.cipher
  | none => cipherStart (dOp j.desc) (dParam j.desc) key j.iv

/-- RETRO_DEFAULT of a job's context (R339). -/
def retroDefault (b : Block) (ctx : Nat × Nat) : Bool := bit (hUsage (slotAt b ctx.1).header) useRetro

/-- A decryption whose plaintext waits for its tag (R339): FAIL_MODE 1, or 0 under a context without RETRO_DEFAULT. -/
def holdMode (b : Block) (d : Bytes) (ctx : Nat × Nat) : Bool :=
  isAeadDec (dOp d) && (dFailMode d == 1 || (dFailMode d == 0 && !retroDefault b ctx))

/-- The message of a part, or the one-descriptor message itself, is release-on-verify. -/
def jobHolds (b : Block) (j : Job) : Bool :=
  match (if dFirst j.desc then none else jobMsg b j) with
  | some m => m.hold
  | none => holdMode b j.desc (j.ctx.getD (0, 0))

/-- The key that a descriptor's unit holds for it. -/
def unitKey (b : Block) (id : Nat) : Bytes :=
  match b.ste.lanes.find? (fun l => l.running == some id) with
  | some l => (l.bank.map (·.key)).getD []
  | none =>
    match b.sce.cores.find? (fun c => c.job == some id) with
    | some c => (c.key.map (·.key)).getD []
    | none => []

/-! ### Output -/

/-- Data laid over ranges. -/
def scatter : List (Nat × Nat) → Bytes → List (Nat × Bytes)
  | [], _ => []
  | (a, l) :: rest, data => if data.isEmpty then [] else (a, data.take l) :: scatter rest (data.drop l)

/-- Issue data writes over ranges (R254), none longer than Max Payload Size; their attribute follows Enable Relaxed Ordering (R192). -/
def emitData (fn : Nat) (world : Bool) (rs : List (Nat × Nat)) (data : Bytes) (b : Block) : Block :=
  let ws := (takeRanges rs data.length).flatMap (fun r => alignedPieces (writeLimit b) r.1 r.2)
  (scatter ws data).foldl (fun b p => emit fn (.dataWrite fn world b.link.relaxedOrd p.1 p.2) b) b

/-- Ranges cut into chunks of 256 B; a fragment boundary cuts a chunk short (R313). -/
def chunkRanges (rs : List (Nat × Nat)) : List (Nat × Nat) :=
  rs.flatMap (fun r => (List.range (ceilDiv r.2 256)).map (fun i => (r.1 + 256 * i, min 256 (r.2 - 256 * i))))

/-- The part of the first `n` output bytes that lies in complete chunks (R313). -/
def chunkFloor : List (Nat × Nat) → Nat → Nat
  | [], _ => 0
  | (_, l) :: rest, n => if l ≤ n then l + chunkFloor rest (n - l) else 256 * (n / 256)

/-- Output bytes the spec leaves open: free values, `n` of them. -/
def freeBytes (n : Nat) (b : Block) : Bytes × Block :=
  ((List.range n).map (fun i => Config.freeByte (b.work.free + i)), b.onWork (fun w => { w with free := w.free + n }))

/-- Issue a descriptor's own output as far as `data`, its first bytes, goes beyond what it has written; a lane writes in chunks (R313). Where
R243 leaves the output undefined it is free. -/
def writeOut (j : Job) (data : Bytes) (b : Block) : Block :=
  let n := min data.length (rangesLen (walkRanges j.dst))
  if n ≤ j.wrote then b
  else
    let rs := takeRanges (dropRanges (walkRanges j.dst) j.wrote) (n - j.wrote)
    let r := if overlapUndefined (walkRanges j.src) (walkRanges j.dst) then freeBytes (n - j.wrote) b else (slice data j.wrote (n - j.wrote), b)
    onJob (emitData j.fn j.world (if isXts (dOp j.desc) then chunkRanges rs else rs) r.1 r.2) j.id (fun j => { j with wrote := n })

/-- Source bytes of an XTS descriptor whose output does not depend on bytes after them (R308). -/
def xtsReady (d : Bytes) (n : Nat) : Nat :=
  let part := dLen d % 2 ^ bits (dParam d) 4 0 % 16
  if dLen d ≤ n then dLen d
  else if part = 0 then 16 * (n / 16)
  else min (16 * (n / 16)) (dLen d - part - 16)

/-- The output that a descriptor can have produced from the source bytes it has (R313, R329, R340). -/
def outputSoFar (b : Block) (j : Job) : Bytes :=
  let d := j.desc
  let op := dOp d
  let key := unitKey b j.id
  if isXts op then
    let n := xtsReady d j.data.length
    (xtsStream (isEnc op) key (leNat j.iv) (2 ^ bits (dParam d) 4 0) (slice j.data 0 (dLen d))).take n
  else if isSession op && !jobHolds b j && op != 0x1B then
    let pay := (j.data.drop (dAad d)).take (payload d)
    let n := 16 * (pay.length / 16)
    let n := if op = 0x1A && dLast d then min n (dLen d - 16) else n
    (cipherPart op (dParam d) false key (j.data.take (dAad d)) (pay.take n) [] (partStart b j key)).out
  else []

/-- Count a descriptor that ends on a lane (R321): one more, and the source bytes whose output it has issued. -/
def countLane (id : Nat) (b : Block) : Block :=
  match jobOf b id with
  | some j =>
    if b.ste.lanes.any (fun l => l.running == some id) then
      let cts := dLen j.desc % 2 ^ bits (dParam j.desc) 4 0 % 16 != 0 && j.wrote == dLen j.desc
      b.onSte (fun s => { s with bytes := (s.bytes + j.wrote) % 2 ^ 64, descs := sat32 (s.descs + 1), cts := sat32 (s.cts + b2n cts) })
    else b
  | none => b

/-- End a descriptor on its unit with a zeroing status; the first `progress` bytes of its output (as far as they can have
been produced, on a lane in complete chunks) were issued before (R253, R313). One whose zeroing is under way, or that has ended, ends as it was to. -/
def failOnUnit (id progress status detail result : Nat) (b : Block) : Block :=
  match jobOf b id with
  | none => b
  | some j =>
    match j.stage with
    | .zeroCheck _ | .ended _ _ => b
    | _ =>
      let out := (outputSoFar b j).take progress
      let b := countLane id (writeOut j (if isXts (dOp j.desc) then out.take (chunkFloor (walkRanges j.dst) out.length) else out) b)
      match jobOf b id with
      | none => b
      | some j => concludeCore id (failWritten b j status detail result) b

/-! ### Reads in order (R244, R246) -/

/-- The data entry that holds a stream byte. -/
def entryAt : List (Nat × Nat × Nat) → Nat → Nat
  | [], _ => 0
  | (_, l, k) :: rest, off => if off < l then k else entryAt rest (off - l)

/-- A descriptor that waited for its output list alone ends: the area that the list gives joins what its verdict zeroes (R253). -/
def dueEnds (id : Nat) (b : Block) : Block :=
  match jobOf b id with
  | none => b
  | some j => match j.due with
    | none => b
    | some v => concludeCore id { v with extent := v.extent ++ takeRanges (walkRanges j.dst) j.outLen }
        (b.onSce (fun s => { s with pending := s.pending.filter (· != id) }))

/-- A lane that reads on has room in its source buffer, so what it read before has passed its pipeline: it has issued every chunk complete so far
(R304, R313). -/
def flushLane (id : Nat) (b : Block) : Block :=
  match jobOf b id with
  | none => b
  | some j =>
    if isXts (dOp j.desc) then
      let out := outputSoFar b j
      writeOut j (out.take (chunkFloor (walkRanges j.dst) out.length)) b
    else b

/-- Source bytes that a unit reads ahead: the 64 KiB buffer of a lane (R304, R313). -/
def laneAhead (d : Bytes) (left : Nat) : Nat := if isXts (dOp d) then min left 65536 else left

/-- Issue the next read of a descriptor on its unit: caller key, IV or expected value, first pieces of the lists, then the
source piece by piece, then the rest of the output list; with nothing left to read it runs. -/
def nextRead (id : Nat) (b : Block) : Block :=
  match jobOf b id with
  | none => b
  | some j =>
    let d := j.desc
    let rd (st : Stage) (k : ReadKind) (segs : List (Nat × Nat)) (b : Block) : Block := setStage id st (issueRead j.fn j.world k segs b)
    let srcPiece (b : Block) : Block := rd .srcPiece (.srcPiece id) [(j.src.next.getD 0, 16 * pieceLen (j.src.next.getD 0))] b
    let dstPiece (b : Block) : Block := rd .dstPiece (.dstPiece id) [(j.dst.next.getD 0, 16 * pieceLen (j.dst.next.getD 0))] b
    if j.due.isSome then (if j.dst.next.isSome then dstPiece b else dueEnds id b)
    else if callerKey d && j.blob.isEmpty then rd .keyRead (.callerKey id) [(dBlob d, dKeyLen d)] b
    else if ivPointer d && j.iv.isEmpty then
      rd .ivRead (.iv id) [(leAt d 0x30 8, if dOp d = 0x23 then digestLen d else 16)] b
    else if j.src.next.isSome && j.src.entries == 0 then srcPiece b
    else if j.dst.next.isSome && j.dst.entries == 0 then dstPiece b
    else if j.data.length < j.src.sum then
      rd .data (.source id) (takeRanges (dropRanges (walkRanges j.src) j.data.length) (laneAhead d (j.src.sum - j.data.length))) (flushLane id b)
    else if j.src.next.isSome then srcPiece b
    else if j.dst.next.isSome then dstPiece b
    else setStage id .running b

/-- A descriptor has reached its unit: its streams as its fields give them, then its first read. -/
def beginOnUnit (id : Nat) (b : Block) : Block :=
  nextRead id (onJob b id (fun j =>
    let d := j.desc
    { j with
      iv := if dFlag d 5 && !laterPart d then dIv d else []
      blob := if callerKey d then [] else j.blob
      src := if fragSrc d then Walk.start (dSrc d) else if dLen d = 0 then Walk.empty else Walk.plain (dSrc d) (dLen d)
      dst := if fragDst d then Walk.start (dDst d) else if outLen d = 0 then Walk.empty else Walk.plain (dDst d) (outLen d)
      data := []
      wrote := 0
      outLen := outLen d }))

/-! ### What the reads bring -/

/-- The first failed part of a read. -/
def firstErr (res : HostData) : Option ReadErr :=
  res.errs.foldl (fun best e => match best with
    | none => some e
    | some f => if e.off < f.off then some e else some f) none

/-- DATA_FETCH_ERROR with its kind and index (R252). -/
def fetchDetail (kind idx : Nat) : Nat := kind * 2 ^ 28 + idx

/-- A caller-supplied key has arrived (R353). -/
def keyArrived (id : Nat) (res : HostData) (b : Block) : Block :=
  match firstErr res with
  | some _ => concludeCore id (verdict stDataFetch (fetchDetail 4 0) 0 0) b
  | none => nextRead id (onJob b id (fun j => { j with blob := slice res.data 0 (dKeyLen j.desc) }))

/-- An IV or expected value has arrived (R244). -/
def ivArrived (id len : Nat) (res : HostData) (b : Block) : Block :=
  match firstErr res with
  | some _ => failOnUnit id 0 stDataFetch (fetchDetail 5 0) 0 b
  | none => nextRead id (onJob b id (fun j => { j with iv := slice res.data 0 len }))

/-- End a descriptor for what its list turned out to be (R247). -/
def listFailed (id progress : Nat) (output : Bool) (r : PieceResult) (b : Block) : Block :=
  match r with
  | .ok _ => b
  | .tableError k why => failOnUnit id progress stFragmentTable (flag output 31 + k) why b
  | .mismatch k sum => failOnUnit id progress stLengthMismatch (flag output 30 + k) sum b
  | .fetchError k => failOnUnit id progress stDataFetch (fetchDetail (if output then 3 else 2) k) 0 b

/-- A piece of the source list has arrived (R246). -/
def srcPieceArrived (id progress : Nat) (res : HostData) (b : Block) : Block :=
  match jobOf b id with
  | none => b
  | some j =>
    match walkPiece (dLen j.desc) j.src res with
    | .ok w => nextRead id (onJob b id (fun j => { j with src := w }))
    | r => listFailed id progress false r b

/-- A walk as far as the entries before the faulty one of a piece go (R253). -/
def walkBefore (total : Nat) (w : Walk) (res : HostData) : Walk :=
  match walkPiece total w res with
  | .ok w' => w'
  | .fetchError _ => w
  | .tableError k _ | .mismatch k _ =>
    match walkPiece total w { res with data := slice res.data 0 (16 * (k - w.entries)) } with
    | .ok w' => w'
    | _ => w

/-- A piece of the output list has arrived (R246). One that is read for its area alone ends the walk at a faulty entry (R253). -/
def dstPieceArrived (id progress : Nat) (res : HostData) (b : Block) : Block :=
  match jobOf b id with
  | none => b
  | some j =>
    match walkPiece j.outLen j.dst res with
    | .ok w => nextRead id (onJob b id (fun j => { j with dst := w }))
    | r =>
      if j.due.isSome then nextRead id (onJob b id (fun j => { j with dst := { walkBefore j.outLen j.dst res with next := none } }))
      else listFailed id progress true r b

/-- Source data has arrived (R201, R313). -/
def sourceArrived (id progress len : Nat) (res : HostData) (b : Block) : Block :=
  match jobOf b id with
  | none => b
  | some j =>
    match firstErr res with
    | some e =>
      let idx := if fragSrc j.desc then entryAt j.src.segs (j.data.length + e.off) else 0
      failOnUnit id progress stDataFetch (fetchDetail 6 idx) 0
        (onJob b id (fun j => { j with data := j.data ++ slice res.data 0 (min e.off len) }))
    | none => nextRead id (onJob b id (fun j => { j with data := j.data ++ slice res.data 0 len }))

/-- The data check read of R202 has returned. -/
def dataChecked (id : Nat) (v : Verdict) (res : HostData) (b : Block) : Block :=
  match jobOf b id with
  | none => b
  | some j =>
    match firstErr res with
    | some _ => zeroThen j (failWritten b j stDataWrite 0 0) b
    | none => finishEntry j v false b

/-- The zeroing check read of R202 has returned: it decides ZEROED. -/
def zeroChecked (id : Nat) (v : Verdict) (res : HostData) (b : Block) : Block :=
  match jobOf b id with
  | none => b
  | some j => finishEntry j v (firstErr res).isNone b

/-- The zeroing check of an abandoned message has returned: the tombstone records ZEROED where it has passed (R253, R337). -/
def tombChecked (dqn mid : Nat) (res : HostData) (b : Block) : Block :=
  b.onSce (fun s => { s with tombs := s.tombs.map (fun t =>
    if t.dqn = dqn ∧ t.msgId = mid then { t with ok := (firstErr res).isNone } else t) })

/-! ### The digest engine's pipelines (R350) -/

/-- A pipe takes work: none runs on it, it tests nothing, it has not failed, it does not quiesce. -/
def pipeFree (b : Block) (n : Nat) (p : Pipe) : Bool :=
  p.job.isNone && !p.selfTest && !p.failed && !b.pwr.quiesce.any (fun q => q.1 == UnitId.pipe n)

/-- The first free ring pipeline, 2 to 5. -/
def freePipe (b : Block) : Option Nat :=
  [2, 3, 4, 5].find? (fun n => match b.dge.pipes[n]? with
    | some p => pipeFree b n p
    | none => false)

/-- Change a pipeline. -/
def onPipe (n : Nat) (f : Pipe → Pipe) (b : Block) : Block :=
  b.onDge (fun s => { s with pipes := s.pipes.mapIdx (fun i p => if i = n then f p else p) })

/-- Look again at the context of a descriptor that reaches a unit (R312, R348): still RESIDENT and allowed, gone, or refused. -/
inductive Recheck where
  | good (key : Bytes)
  | gone
  | refused (status detail : Nat)
  deriving DecidableEq, Repr

/-- The checks of R299 again, before a unit takes a descriptor, then its context (R312, R320). -/
def recheck (b : Block) (j : Job) : Recheck :=
  match j.ctx with
  | none => .good []
  | some (s, g) =>
    match useChecks b j.fn j.world j.desc j.hdr with
    | some (st, det) => .refused st det
    | none =>
      let v := slotAt b s
      if v.state = .resident ∧ v.gen = g ∧ slotSound b s = true then .good (ctxKey b s) else .gone

/-- Give the oldest waiting digest descriptor to a pipeline, or resolve it afresh when its context has gone. -/
def pipeTake (b : Block) : Block :=
  match b.dge.pending, freePipe b with
  | id :: rest, some n =>
    let b := b.onDge (fun s => { s with pending := rest })
    match jobOf b id with
    | none => b
    | some j =>
      match recheck b j with
      | .refused st det => concludeCore id (verdict st det 0 0) b
      | .gone => startResolve id (onJob b id (fun j => { j with stage := .arrived, ctx := none, blob := [] }))
      | .good _ => beginOnUnit id (onPipe n (fun p => { p with job := some id }) b)
  | _, _ => b

/-! ### RNG_FILL (R371, R372) -/

/-- An RNG_FILL whose output list has been read: its bytes once the source is READY, ENGINE_ALARM when it is FAILED. -/
def rngServe (b : Block) (id : Nat) : Block :=
  match jobOf b id with
  | none => b
  | some j =>
    if j.stage = .running ∧ dOp j.desc = 0x50 ∧ quiescing b .rng = false then
      match b.rng.state with
      | .ready =>
        let p := draw0 (dLen j.desc) b
        let b := p.2.onRng (fun r => { r with bytes := (r.bytes + dLen j.desc) % 2 ^ 64 })
        concludeCore id (success (dLen j.desc) 0) (writeOut j p.1 b)
      | .failed => concludeCore id (verdict stEngineAlarm 0x0600 0 0) b
      | _ => b
    else b

/-- Let waiting claims and loads proceed (R291, R295), fill the free pipelines, serve the random source's consumers, and let what a completion set
free proceed. -/
def settleAll (b : Block) : Block :=
  let b := nextLoads (retryClaims b)
  let b := (List.range b.dge.pending.length).foldl (fun b _ => pipeTake b) b
  settle ((b.work.jobs.map (·.id)).foldl rngServe b)

end Sys2Proof.Machine
end

