-- ==== Sys2Proof/Machine/Queues.lean ====
section
/-! DEFINITION. Work queues: doorbells, released counts, arbitration and descriptor reads, drained entries, the admin pair of
PF0 and the admin commands (R207 to R235). -/

namespace Sys2Proof.Machine

/-! ### Names of queues (R207 to R209) -/

/-- A device queue number is in use: its SQ or its CQ is not FREE. -/
def dqnUsed (b : Block) (n : Nat) : Bool := decide ((sqOf b n).state ≠ SqState.free) || (cqOf b n).active

/-- The function that owns a device queue number in use. -/
def dqnOwner (b : Block) (n : Nat) : Nat := if (sqOf b n).state ≠ .free then (sqOf b n).fn else (cqOf b n).fn

/-- The QID of a device queue number in use. -/
def dqnQid (b : Block) (n : Nat) : Nat := if (sqOf b n).state ≠ .free then (sqOf b n).qid else (cqOf b n).qid

/-- The device queue numbers a function holds (R208, R190). -/
def dqnsOf (b : Block) (fn : Nat) : List Nat :=
  ((b.q.sqs.map (·.1) ++ b.q.cqs.map (·.1)).dedup).filter (fun n => dqnUsed b n && dqnOwner b n == fn)

/-- The device queue number of a function's QID (R208), when it has one. -/
def dqnOf (b : Block) (fn qid : Nat) : Option Nat := (dqnsOf b fn).find? (fun n => dqnQid b n == qid)

/-- The device queue number a creation takes (R207, R208): the one mapped, PF0's own, the VF's admin number, or the lowest
free one from 256. -/
def dqnFor (b : Block) (fn qid : Nat) : Option Nat :=
  match dqnOf b fn qid with
  | some n => some n
  | none =>
    if fn = 0 then (if dqnUsed b qid then none else some qid)
    else if qid = 0 then (if dqnUsed b fn then none else some fn)
    else if tgetD 0 b.q.quotas fn ≤ (dqnsOf b fn).length then none
    else lowestFrom (fun n => !dqnUsed b n) 256 (32768 - 256)

/-- The device queue number behind a queue page, as a function sees it (R209). Page 0 of PF0 is there always (R235). -/
def pageDqn (b : Block) (fn page : Nat) : Option Nat :=
  if fn = 0 then
    if page = 0 then some 0 else if dqnUsed b page && dqnOwner b page == 0 then some page else none
  else dqnOf b fn page

/-! ### Doorbells and released counts (R212, R216) -/

/-- A queue error (R510): the cause bit, the log, the count. -/
def queueError (kind dqn : Nat) (b : Block) : Block :=
  raiseIrq irqQueueError (b.onQ (fun q => { q with qerrKind := kind, qerrNum := dqn, qerrCount := sat32 (q.qerrCount + 1) }))

/-- An SQ gives up its turn (R220). -/
def loseTurn (n : Nat) (b : Block) : Block := b.onQ (fun q => if q.lastIo = n then { q with turnLeft := 0 } else q)

/-- Judge a value written to Q_SQ_TAIL (R212). -/
def doorbell (n : Nat) (v : Word) (b : Block) : Block :=
  let s := sqOf b n
  if s.state ≠ .active then onSq n (fun s => { s with dbIgnored := true }) b
  else if s.size - (s.tail - s.head).toNat < (v - s.tail).toNat then
    queueError 1 n (event 0x400 n (loseTurn n (onSq n (fun s => { s with error := true, state := .draining }) b)))
  else onSq n (fun s => { s with tail := v }) b

/-- Return the credits of released entries to their SQs (R217). -/
def returnCredits (os : List (Option Nat)) (b : Block) : Block :=
  os.foldl (fun b o => match o with
    | some n => onSq n (fun s => { s with held := s.held - 1 }) b
    | none => b) b

/-- Judge a value written to Q_CQ_HEAD (R216). -/
def releaseTo (n : Nat) (v : Word) (b : Block) : Block :=
  let c := cqOf b n
  let k := (v - c.released).toNat
  if k ≤ (c.written - c.released).toNat then
    returnCredits (c.owners.take k) (onCq n (fun c => { c with released := v, owners := c.owners.drop k }) b)
  else queueError 2 n (event 0x401 n (onCq n (fun c => { c with headInvalid := true }) b))

/-- A host write to a BAR finds a function that can take it; otherwise it is an unsupported request (R201, R203, R205). -/
def barWrite (fn : Nat) (f : Block → Block) (b : Block) : Block :=
  if fnEnabled b fn = false ∨ (fnOf b fn).d3hot = true then
    advise (if fnEnabled b fn then fn else 0) aerUnsupported b
  else f b

/-- A value reaches Q_SQ_TAIL of a page. -/
def tailWrite (fn page : Nat) (v : Word) (b : Block) : Block :=
  if b.run.state = .frozen then rsvdWrite b
  else match pageDqn b fn page with
    | some n => settleAll (doorbell n v b)
    | none => rsvdWrite b

/-- Write of Q_SQ_TAIL through a page of a function. In D3hot it is reported as an unsupported request, as every BAR access is (R203), and its value
is still judged (R233); both rules hold so (DEDUCED, assumption 9). -/
def sqDoorbell (fn page : Nat) (v : Word) (b : Block) : Block :=
  if fnEnabled b fn && (fnOf b fn).d3hot then tailWrite fn page v (advise fn aerUnsupported b)
  else barWrite fn (tailWrite fn page v) b

/-- Write of Q_CQ_HEAD through a page of a function. -/
def cqHeadWrite (fn page : Nat) (v : Word) (b : Block) : Block :=
  barWrite fn (fun b =>
    if b.run.state = .frozen then rsvdWrite b
    else match pageDqn b fn page with
      | some n => if (cqOf b n).active then settleAll (releaseTo n v b) else rsvdWrite b
      | none => rsvdWrite b) b

/-- SQ_DOORBELL (R212). -/
def execSqDoorbell (fn page : Nat) (value : Word) (s : State) : Host.Outcome State Fault Refusal :=
  .next { s with blk := sqDoorbell fn page value s.blk }

/-- CQ_HEAD_WRITE (R216). -/
def execCqHeadWrite (fn page : Nat) (value : Word) (s : State) : Host.Outcome State Fault Refusal :=
  .next { s with blk := cqHeadWrite fn page value s.blk }

/-! ### Reading descriptors (R213, R217, R220 to R222) -/

/-- Reading is held by FENCE (R222): a fenced descriptor read has not started. -/
def fenceWait (b : Block) (n : Nat) : Bool := (jobsOf b n).any (fun j => dFenced j.desc && !j.started)

/-- Reading is held for credit (R218). -/
def creditWait (b : Block) (n : Nat) : Bool :=
  let s := sqOf b n
  decide (s.state = SqState.active ∨ s.state = SqState.draining) && decide (0 < unread s) && !canReserve b n

/-- A descriptor of this SQ found the list of its unit full and waits at the work queues (R311, R323, R350). -/
def listBlocked (b : Block) (n : Nat) : Bool :=
  let late (l : List Nat) (k : Nat) : Bool := (l.drop k).any (fun i => match jobOf b i with
    | some j => j.dqn == n
    | none => false)
  late b.ste.pending 512 || late b.sce.pending 1024 || late b.dge.pending 256

/-- A FENCE_ALL with BLOCK holds back the I/O SQs of its function (R227). -/
def fenceBlocked (b : Block) (fn : Nat) : Bool :=
  b.work.jobs.any (fun j => j.fn == fn && (aQflags j.desc) % 2 == 1 && (match j.stage with
    | .fenceAll _ _ => true
    | _ => false))

/-- Reading has stopped on every SQ: LCS_ADVANCE drains (R85). -/
def lcsDraining (b : Block) : Bool := b.kpr.hsm.any (fun h => decide (h.stage = HsmStage.lcsDrain)) || b.otp.resetDue

/-- The device may issue a read for a function. -/
def canRead (b : Block) (fn : Nat) : Bool := decide (b.link.phase = .active) && !fnHalted b fn

/-- An SQ that may be read now (R220). -/
def readable (b : Block) (n : Nat) : Bool :=
  let s := sqOf b n
  decide (s.state = SqState.active) && decide (0 < unread s) && decide (s.reading = 0) && !fenceWait b n &&
    canReserve b n && canRead b s.fn && !listBlocked b n && !(decide (256 ≤ n) && fenceBlocked b s.fn) && !lcsDraining b

/-- The SQ after `last` in a round among some, first those above it. -/
def roundNext (ns : List Nat) (last : Nat) : Option Nat :=
  match ns.find? (fun n => decide (last < n)) with
  | some n => some n
  | none => ns.head?

/-- An SQ in its turn is empty, in CREDIT_WAIT, in FENCE_WAIT or not ACTIVE: it gives the turn up (R220). -/
def givesUp (b : Block) (n : Nat) : Bool :=
  decide ((sqOf b n).state ≠ SqState.active) || decide (unread (sqOf b n) = 0) || creditWait b n || fenceWait b n

/-- The turn of the weighted round robin is given up where its SQ gives it up (R220). -/
def yieldTurn (b : Block) : Block := if givesUp b b.q.lastIo then loseTurn b.q.lastIo b else b

/-- The SQ whose turn it is has descriptors of the turn left, and waits only for the read it has outstanding (R220). -/
def keepsTurn (b : Block) : Bool :=
  decide (0 < b.q.turnLeft) && !givesUp b b.q.lastIo && decide (0 < (sqOf b b.q.lastIo).reading) && canRead b (sqOf b b.q.lastIo).fn

/-- The choice of the arbiter (R220): the SQ, and how many descriptors its turn still allows. -/
def arbitrate (b : Block) : Option (Nat × Nat) :=
  let ready := (b.q.sqs.map (·.1)).filter (readable b)
  match roundNext (ready.filter (fun n => decide (n < 256))) b.q.lastAdm with
  | some n => some (n, 8)
  | none =>
    if keepsTurn b then none
    else if ready.contains b.q.lastIo && decide (0 < b.q.turnLeft) then some (b.q.lastIo, b.q.turnLeft)
    else (roundNext (ready.filter (fun n => decide (256 ≤ n))) b.q.lastIo).map (fun n => (n, (sqOf b n).weight))

/-- Reserve credits for up to `n` descriptors of an SQ, one by one (R217); how many were got. -/
def reserveUpTo (n : Nat) : Nat → Block → Nat × Block
  | 0, b => (0, b)
  | k + 1, b =>
    if canReserve b n then
      let r := reserveUpTo n k (reserve n b)
      (r.1 + 1, r.2)
    else (0, b)

/-- One descriptor read (R213): at most 8, not across the ring's end, within credits and the turn. -/
def descriptorFetch (b : Block) : Block :=
  let b := yieldTurn b
  match arbitrate b with
  | none => b
  | some (n, left) =>
    let s := sqOf b n
    let slot := s.head.toNat % s.size
    let (k, b) := reserveUpTo n (min (min 8 left) (min (unread s) (s.size - slot))) b
    let b := onSq n (fun s => { s with reading := k }) b
    let b := b.onQ (fun q =>
      if n < 256 then { q with lastAdm := n } else { q with lastIo := n, turnLeft := left - k })
    issueRead s.fn (worldOf b s.fn) (.descs n k) [(s.base + 64 * slot, 64 * k)] (yieldTurn b)

/-- DESCRIPTOR_FETCH (R213). -/
def execDescriptorFetch (s : State) : Host.Outcome State Fault Refusal :=
  .next { s with blk := descriptorFetch s.blk }

/-- H advances, and the shadow word is written (R213, R215, R256). -/
def advanceHead (n k : Nat) (b : Block) : Block :=
  let b := onSq n (fun s => { s with head := s.head + BitVec.ofNat 32 k, reading := 0 }) b
  let s := sqOf b n
  if s.shadow = 0 then b else emit s.fn (.shadowWrite s.fn (worldOf b s.fn) s.shadow s.head) b

/-- A fresh descriptor in flight. -/
def Job.fresh (id dqn fn qid : Nat) (world : Bool) (desc : Bytes) : Job :=
  { id := id, dqn := dqn, fn := fn, qid := qid, world := world, desc := desc, stage := .arrived, started := false,
    ctx := none, hdr := [], loaded := false, blob := [], iv := [], src := Walk.empty, dst := Walk.empty, data := [], wrote := 0,
    outLen := 0, resumed := false, due := none }

/-- One descriptor of a read: put in flight, or completed for the failed part that covers it (R201, R252); in FROZEN, Frost decides (R41). -/
def takeDescriptor (n : Nat) (world : Bool) (res : HostData) (b : Block) (i : Nat) : Block :=
  let s := sqOf b n
  if res.errs.any (fun e => decide (e.off < 64 * (i + 1)) && decide (64 * i < e.off + e.len)) then
    if b.run.state = .frozen then writeEntry n 0xFFFF stFrozen 0 0 0 0 false b
    else writeEntry n 0xFFFF stDataFetch 0 (fetchDetail 1 0) 0 0 false b
  else
    b.onWork (fun w => { w with
      jobs := w.jobs ++ [Job.fresh w.nextJob n s.fn s.qid world (slice res.data (64 * i) 64)], nextJob := w.nextJob + 1 })

/-- A descriptor read has returned. In FROZEN what was read completes with FROZEN at once (R39). -/
def descsArrived (n k : Nat) (world : Bool) (res : HostData) (b : Block) : Block :=
  let first := b.work.nextJob
  let b := yieldTurn ((List.range k).foldl (takeDescriptor n world res) (advanceHead n k b))
  if b.run.state = .frozen then
    (b.work.jobs.filter (fun j => decide (first ≤ j.id))).foldl (fun b j => concludeCore j.id (verdict stFrozen 0 0 0) b) b
  else b

/-! ### Drained entries (R223) -/

/-- The status owed to the unread descriptors of a draining SQ. -/
def drainStatus (b : Block) (n : Nat) : Nat :=
  if b.run.state = .frozen then stFrozen else if (sqOf b n).error then stDoorbellOverrun else stQueueDisabled

/-- Start one owed entry of a draining SQ: reserve a credit, read the slot for its CMD_ID; a FENCE_ALL with BLOCK holds it back (R227). -/
def drainEntry (n : Nat) (b : Block) : Block :=
  let s := sqOf b n
  if s.state = .draining ∧ 0 < unread s ∧ s.reading = 0 ∧ canReserve b n = true ∧ canRead b s.fn = true ∧
      ¬(256 ≤ n ∧ fenceBlocked b s.fn = true) then
    let b := onSq n (fun s => { s with reading := 1 }) (reserve n b)
    issueRead s.fn (worldOf b s.fn) (.drain n) [(s.base + 64 * (s.head.toNat % s.size) + 2, 2)] b
  else settleAll b

/-- DRAIN_ENTRY (R223). -/
def execDrainEntry (dqn : Nat) (s : State) : Host.Outcome State Fault Refusal :=
  .next { s with blk := drainEntry dqn s.blk }

/-- The CMD_ID of an unread slot has arrived, or its read has failed: the owed entry. -/
def drainArrived (n : Nat) (res : HostData) (b : Block) : Block :=
  let cmd := if (firstErr res).isSome then 0xFFFF else leAt res.data 0 2
  let st := drainStatus b n
  writeEntry n cmd st 0 0 0 0 false (advanceHead n 1 b)

/-! ### PF0's admin pair (R234, R235) -/

/-- Set-up fields in range and aligned (R234). -/
def adminCfgOk (a : AdminRegs) : Bool :=
  let inR (v : Nat) : Bool := decide (4 ≤ v) && decide (v ≤ 16)
  inR (bits a.cfg.toNat 4 0) && inR (bits a.cfg.toNat 12 8) && a.sqBase % 4096 == 0 && a.cqBase % 4096 == 0 &&
    a.shadow % 4 == 0

/-- A new CQ under a device queue number. -/
def createCq (n fn qid base sizeLog2 vector : Nat) (irqEn : Bool) (b : Block) : Block :=
  onCq n (fun _ => { Cq.none with active := true, fn := fn, qid := qid, base := base, sizeLog2 := sizeLog2,
                                  vector := vector, irqEn := irqEn }) b

/-- A new SQ under a device queue number; DB_IGNORED, cleared by writing 1 alone, stays. -/
def createSq (n fn qid cq base sizeLog2 minCred weight shadow : Nat) (b : Block) : Block :=
  onSq n (fun s => { Sq.none with state := .active, fn := fn, qid := qid, cq := cq, base := base, sizeLog2 := sizeLog2,
                                  minCred := minCred, weight := weight, shadow := shadow, dbIgnored := s.dbIgnored }) b

/-- A write of 1 to Q_ADMIN_CTRL.ENABLE (R235): the bit sets (R11); with good set-up fields the pair is created, else CFG_ERROR sets. -/
def adminEnable (b : Block) : Block :=
  if b.run.state = .frozen then rsvdWrite b
  else
    let a := b.q.admin
    if a.ready then b
    else if adminCfgOk a then
      let b := b.onQ (fun q => { q with admin := { q.admin with enable := true, ready := true, cfgError := false } })
      let cfg := a.cfg.toNat
      let k := bits cfg 12 8
      createSq 0 0 0 0 a.sqBase (bits cfg 4 0) (2 ^ k) 1 a.shadow
        (createCq 0 0 0 a.cqBase k (bits cfg 26 16) (bit cfg 31) b)
    else b.onQ (fun q => { q with admin := { q.admin with enable := true, cfgError := true } })

/-- ADMIN_ENABLE (R235). -/
def execAdminEnable (s : State) : Host.Outcome State Fault Refusal := .next { s with blk := adminEnable s.blk }

/-! ### Admin commands (R227 to R231) -/

/-- The function whose queues an admin command names (R229). -/
def aFn (j : Job) : Nat := if j.fn = 0 ∧ dOp j.desc ≤ 0x85 then aTarget j.desc else j.fn

/-- The first failing refusal of a list, in table order. -/
def firstRefusal : List (Bool × Nat × Nat) → Option (Nat × Nat)
  | [] => none
  | (bad, st, det) :: rest => if bad then some (st, det) else firstRefusal rest

/-- The SQ or CQ that an admin command acts on exists. -/
def subjectExists (b : Block) (op : Nat) (cqSide : Bool) (n : Option Nat) : Bool :=
  match n with
  | none => false
  | some n =>
    if op = 0x81 ∨ op = 0x84 ∨ (op = 0x85 ∧ cqSide = true) then (cqOf b n).active
    else decide ((sqOf b n).state ≠ SqState.free)

/-- MIN_CREDITS breaks R219. -/
def minCredBad (b : Block) (cq : Option Nat) (admin : Bool) (m : Nat) : Bool :=
  match cq with
  | none => false
  | some c =>
    let size := (cqOf b c).size
    if admin then m != size
    else decide (m < 1) || decide (size < m) || decide (size < ((boundSqs b c).map (fun p => p.2.minCred)).sum + m)

/-- PWR_CAP ranges in 0.1 W (R72). -/
def capRange : Variant → Nat × Nat
  | .jtH48F => (100, 440)
  | .jtH48S => (80, 260)
  | .jtH48B => (40, 80)

/-- Bytes of a Harvest (R443). -/
def harvestBytes : Nat := 196672

/-- The refusals of R231 for an admin command, in table order. -/
def adminRefusal (b : Block) (j : Job) : Option (Nat × Nat) :=
  let d := j.desc
  let op := dOp d
  let t := if op ≤ 0x85 then aTarget d else 0
  let qid := aQid d
  let fn := aFn j
  let own := t == 0 && qid == 0
  let n := dqnOf b fn qid
  let hasQid := decide (op ≤ 0x86)
  let create := decide (op ≤ 0x81)
  let sq := (n.map (sqOf b)).getD Sq.none
  let exists_ := subjectExists b op (aQflags d % 2 == 1) n
  let inRange := qid == 0 || (if j.fn = 0 then decide (256 ≤ qid) && decide (qid ≤ 32767) else decide (qid ≤ 8191))
  let cq := (dqnOf b fn (aCqid d)).filter (fun c => (cqOf b c).active)
  let sizeBad := decide (aSize d < 4) || decide (16 < aSize d)
  firstRefusal [
    (j.fn != 0 && (t != 0 || op == 0x87 || op == 0x88), stPolicyDenied, 0x10),
    (t != 0 && !(fnEnabled b t), stPolicyDenied, 0x11),
    (t != 0 && decide ((fnOf b t).tdi ≠ Tdi.configUnlocked), stPolicyDenied, 0x12),
    (hasQid && (if t ≠ 0 then qid != 0 else !inRange), stInvalidField, 1),
    (hasQid && (if create then exists_ && !own else !exists_), stInvalidField, 2),
    (create && sizeBad, stInvalidField, 3),
    ((create && aBase d % 4096 != 0) || (op == 0x80 && aShadow d % 4 != 0) ||
      ((op == 0x85 || op == 0x87) && aDst d % 32 != 0), stAlignment, 4),
    (op == 0x80 && (cq.isNone || ((qid == 0) != (aCqid d == 0))), stInvalidField, 5),
    (op == 0x80 && minCredBad b cq (qid == 0) (aMinCred d), stInvalidField, 6),
    ((((op == 0x80 && qid != 0) || op == 0x86) && aWeight d == 0) || (op == 0x81 && decide (2047 < aVector d)) ||
      (op == 0x80 && t != 0 && (aQuota d == 0 || decide (8192 < aQuota d))) ||
      (op == 0x88 && (decide (aCap d < (capRange b.run.variant).1) || decide ((capRange b.run.variant).2 < aCap d) ||
        decide (1 < aPref d))), stInvalidField, 7),
    (create && (dqnFor b fn qid).isNone, stInvalidField, 8),
    ((op == 0x83 && decide (sq.state ≠ SqState.disabled)) || (op == 0x82 && decide (sq.state ≠ SqState.active)),
      stInvalidField, 9),
    ((op == 0x84 && !(boundSqs b (n.getD 0)).isEmpty) ||
      ((op == 0x83 || op == 0x84) && t != 0 && decide (1 < (dqnsOf b t).length)), stInvalidField, 0xA),
    (own && decide (op ≤ 0x84), stInvalidField, 0xB),
    (adminUnused d (j.fn == 0), stInvalidField, 0xC),
    (op == 0x87 && decide (aLen d < harvestBytes), stInvalidField, 0xD)]

/-- Run an admin command on the descriptor that carries it: nothing unless it may start (R221); the refusals of R231; else
its action. In FROZEN it completes with FROZEN (R233). -/
def adminRun (op id : Nat) (act : Job → Block → Block) (b : Block) : Block :=
  match jobOf b id with
  | none => b
  | some j =>
    if j.stage = .arrived ∧ dOp j.desc = op ∧ j.dqn < 256 ∧ canStart b j = true then
      let b := onJob b id (fun j => { j with started := true })
      if b.run.state = .frozen then conclude id (verdict stFrozen 0 0 0) b
      else match adminRefusal b j with
        | some (st, det) => conclude id (verdict st det (if op = 0x87 ∧ det = 0xD then harvestBytes else 0) 0) b
        | none => settleAll (act j b)
    else b

/-- The device queue number an accepted command names. -/
def aDqn (b : Block) (j : Job) : Nat := (dqnFor b (aFn j) (aQid j.desc)).getD 0

/-- CREATE_SQ (R219, R223, R229). -/
def createSqCmd (id : Nat) : Block → Block := adminRun 0x80 id (fun j b =>
  let d := j.desc
  let fn := aFn j
  let b' := createSq (aDqn b j) fn (aQid d) ((dqnOf b fn (aCqid d)).getD 0) (aBase d) (aSize d) (aMinCred d) (aWeight d)
    (aShadow d) b
  let b' := if aTarget d ≠ 0 ∧ j.fn = 0 then b'.onQ (fun q => { q with quotas := tset q.quotas fn (aQuota d) }) else b'
  concludeCore id (success 0 0) b')

/-- CREATE_CQ (R225). -/
def createCqCmd (id : Nat) : Block → Block := adminRun 0x81 id (fun j b =>
  let d := j.desc
  concludeCore id (success 0 0)
    (createCq (aDqn b j) (aFn j) (aQid d) (aBase d) (aSize d) (aVector d) (aQflags d % 2 == 1) b))

/-- DISABLE_SQ (R223): reading stops; it completes once no read is outstanding. -/
def disableSqCmd (id : Nat) : Block → Block := adminRun 0x82 id (fun j b =>
  let n := aDqn b j
  setStage id (.disable n) (loseTurn n (onSq n (fun s => { s with state := .draining }) b)))

/-- The credits of a deleted SQ become orphans (R217), its tombstones end (R337). -/
def dropSq (n : Nat) (b : Block) : Block :=
  let c := (sqOf b n).cq
  let b := onCq c (fun c => { c with owners := c.owners.map (fun o => if o = some n then none else o) }) b
  let b := b.onQ (fun q => { q with sqs := tset q.sqs n { Sq.none with dbIgnored := (sqOf b n).dbIgnored } })
  b.onSce (fun s => { s with tombs := s.tombs.filter (fun t => t.dqn != n) })

/-- DELETE_SQ (R217, R223). -/
def deleteSqCmd (id : Nat) : Block → Block := adminRun 0x83 id (fun j b =>
  concludeCore id (success 0 0) (dropSq (aDqn b j) b))

/-- DELETE_CQ (R225). -/
def deleteCqCmd (id : Nat) : Block → Block := adminRun 0x84 id (fun j b =>
  concludeCore id (success 0 0) (b.onQ (fun q => { q with cqs := tdel q.cqs (aDqn b j) })))

/-- Q_SQ_STATUS.STATE (R234). -/
def sqStateCode : SqState → Nat
  | .free => 0
  | .active => 1
  | .draining => 2
  | .disabled => 3

/-- Every credit of a CQ is held. -/
def cqFull (b : Block) (n : Nat) : Bool := decide ((cqOf b n).size ≤ heldOf b n)

/-- The report of QUERY_QUEUE (R230). -/
def queueReport (b : Block) (n : Nat) (cqSide : Bool) : Bytes :=
  let s := sqOf b n
  let c := cqOf b n
  if cqSide then
    lePut 1 (b2n c.active) ++ lePut 1 (flag (cqFull b n) 0 + flag c.headInvalid 1) ++ lePut 1 c.sizeLog2 ++ lePut 1 0 ++
      lePut 4 c.released.toNat ++ lePut 4 c.written.toNat ++ lePut 2 (boundSqs b n).length ++ lePut 2 c.vector ++
      lePut 4 (heldOf b n) ++ lePut 4 (orphansOf c) ++ lePut 8 c.base
  else
    lePut 1 (sqStateCode s.state) ++
      lePut 1 (flag (decide (s.state = .disabled)) 0 + flag s.error 1 + flag (creditWait b n) 2 + flag (fenceWait b n) 3 +
        flag s.dbIgnored 4) ++
      lePut 1 s.sizeLog2 ++ lePut 1 s.weight ++ lePut 4 s.head.toNat ++ lePut 4 s.tail.toNat ++
      lePut 2 (cqOf b s.cq).qid ++ lePut 2 s.minCred ++ lePut 4 s.held ++ lePut 4 (jobsOf b n).length ++ lePut 8 s.base

/-- Give an admin descriptor an output area of one range, and write it. -/
def adminWrite (j : Job) (parts : List (Nat × Bytes)) (total : Nat) (b : Block) : Block :=
  let b := onJob b j.id (fun j => { j with dst := Walk.plain (aDst j.desc) total, outLen := total, wrote := total })
  parts.foldl (fun b p => emitData j.fn j.world [(aDst j.desc + p.1, p.2.length)] p.2 b) b

/-- QUERY_QUEUE (R230). -/
def queryQueueCmd (id : Nat) : Block → Block := adminRun 0x85 id (fun j b =>
  let n := aDqn b j
  let cqSide := aQflags j.desc % 2 == 1
  let r := queueReport b n cqSide
  let s := sqOf b n
  let c := cqOf b n
  let res := if cqSide then c.released.toNat + 2 ^ 32 * c.written.toNat else s.head.toNat + 2 ^ 32 * s.tail.toNat
  concludeCore id (success 0 res) (adminWrite j [(0, r)] 32 b))

/-- SET_WEIGHT (R227): from the next turn. -/
def setWeightCmd (id : Nat) : Block → Block := adminRun 0x86 id (fun j b =>
  let n := aDqn b j
  let old := (sqOf b n).weight
  concludeCore id (success 0 old) (onSq n (fun s => { s with weight := aWeight j.desc }) b))

/-- FENCE_ALL (R227, R232): it waits for the descriptors that the function's I/O SQs have read. -/
def fenceAllCmd (id : Nat) : Block → Block := adminRun 0x89 id (fun j b =>
  let ids := (b.work.jobs.filter (fun k => k.fn == j.fn && decide (256 ≤ k.dqn) && k.dqn != ghostQueue)).map (·.id)
  setStage id (.fenceAll ids ids.length) b)

/-- CREATE_SQ. -/
def execCreateSq (job : Nat) (s : State) : Host.Outcome State Fault Refusal := .next { s with blk := createSqCmd job s.blk }

/-- CREATE_CQ. -/
def execCreateCq (job : Nat) (s : State) : Host.Outcome State Fault Refusal := .next { s with blk := createCqCmd job s.blk }

/-- DISABLE_SQ. -/
def execDisableSq (job : Nat) (s : State) : Host.Outcome State Fault Refusal :=
  .next { s with blk := disableSqCmd job s.blk }

/-- DELETE_SQ. -/
def execDeleteSq (job : Nat) (s : State) : Host.Outcome State Fault Refusal := .next { s with blk := deleteSqCmd job s.blk }

/-- DELETE_CQ. -/
def execDeleteCq (job : Nat) (s : State) : Host.Outcome State Fault Refusal := .next { s with blk := deleteCqCmd job s.blk }

/-- QUERY_QUEUE. -/
def execQueryQueue (job : Nat) (s : State) : Host.Outcome State Fault Refusal :=
  .next { s with blk := queryQueueCmd job s.blk }

/-- SET_WEIGHT. -/
def execSetWeight (job : Nat) (s : State) : Host.Outcome State Fault Refusal :=
  .next { s with blk := setWeightCmd job s.blk }

/-- FENCE_ALL. -/
def execFenceAll (job : Nat) (s : State) : Host.Outcome State Fault Refusal := .next { s with blk := fenceAllCmd job s.blk }

end Sys2Proof.Machine
end

