-- ==== Sys2Proof/Machine/Reset.lean ====
section
/-! DEFINITION. Ends of work without a completion: function-level resets, link resets, chip resets (R39, R196, R203, R451 to
R453). -/

namespace Sys2Proof.Machine

/-! ### The host reset signal (R55, R59, R199) -/

/-- Some source asks for the internal host reset signal (R59). -/
def hostInReset (b : Block) : Bool := !b.pins.released || b.pins.hostPulse || b.pins.pwrgdHold || b.pins.winterHold

/-- Effective host power-good (R199). -/
def hostPwrgdOk (b : Block) : Bool := b.link.pwrgdMsg && (!bit b.pins.straps 4 || b.pins.hostPwrgd)

/-- An armed WDG_P enters its boot phase (R419): HOSTCFG unlocked, a period of 600 s with slot 0 begins. -/
def wdgBootPhase (b : Block) : Block :=
  b.onWdg (fun w => { w with p := { w.p with
    boot := w.p.armed, hostSet := false, begun := b.time.usec, window := w.p.armed, done := 0 } })

/-- Change what asks for the host reset signal; at every change of the signal HOST_RESET goes over the sideband, and waits for its
acknowledgement (R198). A release puts WDG_P into its boot phase (R434), and the link answers training (R184). -/
def onHostReset (f : PinSt → PinSt) (b : Block) : Block :=
  let b' := b.onPins f
  let now := hostInReset b'
  if hostInReset b = now then b'
  else
    let b' := send (.sideband 1 now) (b'.onLink (fun l => { l with hsPending := some now }))
    if now then b'
    else (wdgBootPhase b').onLink (fun l => { l with
      phase := if l.phase = .down ∧ (b.run.state = .service ∨ b.run.state = .frozen) then .training else l.phase })

/-! ### Work that ends without a completion (R39) -/

/-- The read of a descriptor's blob has not left the device whole. -/
def blobUnsent (b : Block) (id : Nat) : Bool :=
  b.work.reads.any (fun r => r.kind == .blob id && b.work.unsent.any (fun p => p.num == r.num))

/-- A load in flight (R291): it finishes, and its context stays resident, although its descriptor has ended (R300); but no request leaves for it
any more (R39). -/
def loadGoesOn (b : Block) (j : Job) : Bool :=
  match j.stage with
  | .blobRead => !blobUnsent b j.id
  | .placeWait | .unwrap _ => true
  | .loadWait _ => !j.blob.isEmpty
  | _ => false

/-- Take descriptors off lanes, cores, pipelines and lists. A lane that held one gives its other descriptor back to the head of the pending list;
every bank that no remaining descriptor runs on or is assigned to is erased (R320). -/
def pullFromUnits (gone : Nat → Bool) (b : Block) : Block :=
  let hit (o : Option Nat) : Bool := match o with
    | some i => gone i
    | none => false
  let back : List Nat := b.ste.lanes.filterMap (fun l =>
    if hit l.running && !hit l.assigned then l.assigned else none)
  let b := b.onSte (fun s => { s with
    pending := back ++ s.pending.filter (fun i => !gone i)
    lanes := s.lanes.map (fun l =>
      if hit l.running then
        { l with running := none, assigned := none, bank := none, spare := none, state := if l.state = .busy then .idle else l.state }
      else
        { l with
          assigned := if hit l.assigned then none else l.assigned
          bank := if l.running.isSome then l.bank else none
          spare := if l.assigned.isSome && !hit l.assigned then l.spare else none }) })
  let b := b.onSce (fun s => { s with
    pending := s.pending.filter (fun i => !gone i)
    cores := s.cores.map (fun c => if hit c.job then coreFree c else c) })
  let b := b.onDge (fun s => { s with
    pending := s.pending.filter (fun i => !gone i)
    pipes := s.pipes.map (fun p => if hit p.job then { p with job := none } else p) })
  b.onVlt (fun v => { v with waiting := v.waiting.filter (fun i => !gone i) })

/-- End descriptors at once, with no completion; loads in flight go on without them. -/
def dropJobs (p : Job → Bool) (b : Block) : Block :=
  let js := b.work.jobs.filter p
  let ids := js.map (·.id)
  let b := pullFromUnits ids.contains b
  js.foldl (fun b j =>
    if loadGoesOn b j then onJob b j.id (fun j => { j with dqn := ghostQueue }) else removeJob j.id b) b

/-- Discard open messages without zeroing (R348); a core that holds one is free. -/
def dropMsgs (p : Msg → Bool) (b : Block) : Block :=
  b.onSce (fun s => { s with
    msgs := s.msgs.filter (fun m => !p m)
    cores := s.cores.map (fun c => match c.msg with
      | some (n, i) => if s.msgs.any (fun m => p m && m.dqn == n && m.msgId == i) then coreFree c else c
      | none => c) })

/-- The queues of functions end (R39): their descriptors are counted in DEV_RESET_DISCARDS, read or not, and those whose entry was held back for
the link (R40); SQs and CQs go to FREE. -/
def endQueues (p : Nat → Bool) (b : Block) : Block :=
  let mine (n : Nat) : Bool := match tget b.q.sqs n with
    | some s => decide (s.state ≠ .free) && p s.fn
    | none => false
  let unfetched := ((b.q.sqs.filter (fun q => mine q.1)).map (fun q => (q.2.tail - q.2.head).toNat)).sum
  let inFlight := (b.work.jobs.filter (fun j => mine j.dqn)).length
  let heldBack := b.link.held.countP (fun h => p h.1 && (match h.2 with
    | .entryWrite .. => true
    | _ => false))
  let b := discard (unfetched + inFlight + heldBack) b
  let b := dropMsgs (fun m => mine m.dqn) (dropJobs (fun j => mine j.dqn) b)
  let b := dropReads (fun r => match r.kind with
      | .descs n _ | .drain n | .tombCheck n _ => mine n
      | _ => false) b
  let b := b.onSce (fun s => { s with tombs := s.tombs.filter (fun t => !mine t.dqn) })
  let b := dropHeld p b
  b.onQ (fun q => { q with
    sqs := q.sqs.map (fun x => if mine x.1 then (x.1, { Sq.none with dbIgnored := x.2.dbIgnored }) else x)
    cqs := q.cqs.filter (fun x => !(x.2.active && p x.2.fn)) })

/-! ### Function-level and link resets (R203) -/

/-- What a function-level reset leaves of a function (R203): MSI-X at its reset values, TDI CONFIG_UNLOCKED. -/
def fnAfterReset (f : FnState) : FnState :=
  { f with msixEnable := false, funcMask := false, msix := [], pba := [], tdi := .configUnlocked }

/-- A TDI in ERROR, its queues ended (R196). -/
def tdiError (fn : Nat) (b : Block) : Block :=
  onFn (endQueues (fun f => f == fn) b) fn (fun f => { f with tdi := .error })

/-- A TDI returned to CONFIG_UNLOCKED (R196). -/
def tdiUnlock (fn : Nat) (b : Block) : Block :=
  (onFn b fn (fun f => { f with tdi := .configUnlocked })).onRcd (fun r => { r with nonces := tdel r.nonces fn })

/-- A configuration change of a VF whose TDI is locked or runs moves it to ERROR (R196). -/
def tdiViolation (fn : Nat) (b : Block) : Block :=
  match (fnOf b fn).tdi with
  | .configLocked | .run => tdiError fn b
  | _ => b

/-- VF function-level reset (R203), counted for the status page (R190). -/
def vfReset (fn : Nat) (b : Block) : Block :=
  let b := tdiUnlock fn (endQueues (fun f => f == fn) b)
  onFn b fn (fun f => { fnAfterReset f with resets := sat32 (f.resets + 1) })

/-- Register mode after ABORT: state and results discarded, DONE cleared (R374). -/
def RegDigest.aborted (r : RegDigest) : RegDigest := { r with open_ := false, busy := false, done := false, data := [], result := [] }

/-- The basic-level sub-windows after an abort: buffers zeroed, the lock free, no core reserved (R483, R487). -/
def legFree (b : Block) : Block :=
  let b := match b.leg.core with
    | some c => onCore c (fun u => { u with
      state := if u.state = CoreState.basic then (if u.admitted then CoreState.idle else CoreState.off) else u.state, key := none }) b
    | none => b
  let b := b.onDge (fun d => { d with rm := d.rm.aborted })
  b.onLeg (fun l => { l with
    digest := { l.digest with holder := none }, session := { l.session with holder := none }, rng := { l.rng with holder := none }
    core := none, startDue := false, key := none, input := [], given := [], taken := 0, regs := { l.regs with tag := zeros 16 } })

/-- End the open basic-level message with a status, zeroed (R483). -/
def legEnd (status detail : Nat) (b : Block) : Block :=
  b.onLeg (fun l => if l.busy || l.startDue then
      { l with busy := false, startDue := false, done := true, zeroed := true, result := status, detail := detail, key := none,
               input := [], given := [], taken := 0, regs := { l.regs with tag := zeros 16 } }
    else l)

/-- Every basic-level lock freed, every message aborted (R487). -/
def legReset (b : Block) : Block :=
  legFree (legEnd stUnitReset (0x0200 + b.leg.core.getD 0) b)

/-- PF0's admin set-up returns to its reset value (R235). -/
def resetAdmin (b : Block) : Block := b.onQ (fun q => { q with admin := AdminRegs.reset, quotas := [] })

/-- PF0 function-level reset (R203): every function, VF Enable cleared; register windows keep their values. -/
def pf0Reset (b : Block) : Block :=
  let vfs := if b.link.vfEnable then b.link.numVfs else 0
  let b := legReset (resetAdmin (endQueues (fun _ => true) b))
  let b := b.onLink (fun l => { l with
    vfEnable := false
    fns := l.fns.map (fun p => (p.1, fnAfterReset p.2)) })
  let b := (List.range vfs).foldl (fun b i => onFn b (i + 1) (fun f => { f with resets := sat32 (f.resets + 1) })) b
  b.onRcd (fun r => { r with nonces := [], sessions := [] })

/-- The requests outstanding on the link are lost with it, and the loads that wait for one (R203). -/
def dropLinkReads (b : Block) : Block :=
  b.onWork (fun w => { w with
    jobs := w.jobs.filter (fun j => j.stage != .blobRead), reads := [], pieces := [], unsent := [], timedOut := [] })

/-- Link reset (R203): as a PF0 function-level reset, with configuration space at its reset values; what was held back for the
link is lost. -/
def linkReset (b : Block) : Block :=
  let b := dropLinkReads (legReset (resetAdmin (endQueues (fun _ => true) b)))
  let b := b.onLink (fun l => { l with
    vfEnable := false, numVfs := 0, vfBar := 0, held := [], maxPayload := 128, maxReadReq := 512, cplTimeout := 0, relaxedOrd := true
    cfg := PciCfg.reset
    fns := l.fns.map (fun p => (p.1, { FnState.fresh with resets := p.2.resets })) })
  b.onRcd (fun r => { r with nonces := [], sessions := [], doe := SpdmConn.reset })

/-- The link goes down, which is a link reset of every function (R185). -/
def linkDown (b : Block) : Block :=
  (linkReset b).onLink (fun l => { l with phase := .down, rate := none, w0 := .none, w1 := .none, repaired := 0, left0 := false, left1 := false })

/-- The internal host reset is asserted by some source, and the link goes down (R200, R427, R430). -/
def holdHost (f : PinSt → PinSt) (b : Block) : Block := linkDown (onHostReset f b)

/-! ### Chip resets (R451, R452) -/

/-- VLT_CFG.RESERVE at reset (R303). -/
def reserveOf : Variant → Nat
  | .jtH48F => 64
  | _ => 16

/-- A chip reset starts: STATE RESET, its KIND written (a power-on reset is always 1; of two under way the lower stands), every
store at its reset value but the battery domain, OTP, BBRAM and the retained region, which ROM judges (R453). A HOST_RESET(1) that this sends, or
that was sent before, waits for its acknowledgement still (R198). -/
def chipReset (kind : Nat) (b : Block) : Block :=
  let kind := if kind = 1 then 1 else if b.run.state = .reset then min b.pwr.kind kind else kind
  let v := b.run.variant
  { b with
    run := { b.run with state := .reset, keysLocked := false }
    link := { LinkSt.reset with refclk := b.link.refclk, hsPending := if hostInReset b then b.link.hsPending else some true }
    q := QueueSt.reset
    work := { WorkSt.reset with nextJob := b.work.nextJob, nextRead := b.work.nextRead, clock := b.work.clock, free := b.work.free }
    vlt := VaultSt.reset (reserveOf v)
    ste := StreamSt.reset (lanesOf v)
    sce := SessionSt.reset (coresOf v)
    dge := DigestSt.reset
    pke := PkeSt.reset
    rng := RngSt.reset b.rng.drawn0 b.rng.drawn1 b.rng.raw
    key := KeySt.reset
    evr := RecorderSt.reset
    dev := DevSt.reset
    pins := PinSt.reset b.pins.sysRstLow b.pins.hostPwrgd
    pwr := PowerSt.reset (capRange v).2 kind
    kpr := KeeperSt.reset
    tmp := { b.tmp with nonce := none, releasing := false, cfgReq := tmpCfgDefault }
    otp := { b.otp with nonce := none, resetDue := false }
    boot := BootSt.reset
    flt := FlashSt.reset
    rcd := RecordSt.reset
    wdg := WdgSt.reset
    leg := BasicSt.reset
    mon := MonSt.reset
    sb := SidebandSt.reset
    out := if hostInReset b then b.out else b.out ++ [.sideband 1 true] }

end Sys2Proof.Machine
end

