-- ==== Sys2Proof/Machine/Frame.lean ====
section
/-! DEFINITION. Frames of the monitor (R491, R492): CRC-32C, stuffing, replies. -/

namespace Sys2Proof.Machine

/-- One bit of CRC-32C, reflected. -/
def crcStep (c : BitVec 32) : BitVec 32 := if c.getLsbD 0 then (c >>> 1) ^^^ 0x82F63B78#32 else c >>> 1

/-- CRC-32C of a byte string (R491). -/
def crc32c (bs : Bytes) : BitVec 32 :=
  (bs.foldl (fun c b =>
    crcStep (crcStep (crcStep (crcStep (crcStep (crcStep (crcStep (crcStep (c ^^^ b.zeroExtend 32))))))))) 0xFFFFFFFF#32)
    ^^^ 0xFFFFFFFF#32

/-- Escape flags and escapes (R491). -/
def stuff (bs : Bytes) : Bytes :=
  bs.flatMap (fun b => if b = 0x7E ∨ b = 0x7D then [0x7D, b ^^^ 0x20] else [b])

/-- A frame around a body, with its CRC. -/
def frameOf (body : Bytes) : Bytes := [0x7E] ++ stuff (body ++ lePut 4 (crc32c body).toNat) ++ [0x7E]

/-- One framed reply: CODE OR 0x80, TAG, LEN, STATUS, payload. -/
def replyPart (code tag status : Nat) (payload : Bytes) : Bytes :=
  frameOf (lePut 1 (code ||| 0x80) ++ lePut 1 tag ++ lePut 2 payload.length ++ lePut 1 status ++ payload)

/-- A framed reply; a payload of more than 8,192 bytes follows in further frames of the same CODE and TAG. -/
def replyFrame (code tag status : Nat) (payload : Bytes) : Bytes :=
  if payload.length ≤ 8192 then replyPart code tag status payload
  else (chunks 8192 payload).flatMap (replyPart code tag status)

/-- The reply of an HSM block (R493): STATUS, DETAIL, RESULT, the output. -/
def hsmReply (status detail result : Nat) (output : Bytes) : Bytes :=
  lePut 2 status ++ zeros 2 ++ lePut 4 detail ++ lePut 8 result ++ output

/-- The running HSM block is answered, unless a break dropped its reply (R489). -/
def monitorHsmDone (id status detail result : Nat) (output : Bytes) (b : Block) : Block :=
  match b.mon.running with
  | some (code, tag, job) =>
    if job = id ∧ code = 0x40 then
      let b := if b.mon.reply then send (.uart (replyFrame code tag 0 (hsmReply status detail result output))) b else b
      b.onMon (fun m => { m with running := none, reply := true })
    else b
  | none => b

/-! ### Line mode (R490) -/

/-- A hexadecimal digit. -/
def hexLower (n : Nat) : Byte := BitVec.ofNat 8 (if n < 10 then 0x30 + n else 0x57 + n)

/-- A number in hexadecimal, `n` digits. -/
def hexPut (n v : Nat) : Bytes := (List.range n).map (fun i => hexLower (v / 16 ^ (n - 1 - i) % 16))

/-- Lines of an answer, then the prompt. -/
def lineAnswer (lines : List Bytes) : Bytes := lines.flatMap (fun l => l ++ [0x0D, 0x0A]) ++ ascii "hkm> "

/-! ### UNITRST (R493) -/

/-- PWR_UNIT_STATUS (R472). -/
def unitStatusWord (b : Block) : Nat := b.pwr.result + flag b.pwr.resetting.isSome 3 + flag b.pwr.done 4

/-- DONE of PWR_UNIT_STATUS has set: the monitor command that waits for it is answered, unless a break dropped its reply. TAG 256 is a line's. -/
def monitorUnitDone (b : Block) : Block :=
  match b.mon.running with
  | some (code, tag, _) =>
    if code = 0x51 then
      let w := unitStatusWord b
      let bytes := if tag < 256 then replyFrame code tag 0 (lePut 4 w) else lineAnswer [ascii "OK " ++ hexPut 8 w]
      let b := if b.mon.reply then send (.uart bytes) b else b
      b.onMon (fun m => { m with running := none, reply := true, framesOk := sat32 (m.framesOk + 1) })
    else b
  | none => b

end Sys2Proof.Machine
end

