-- ==== Sys2Proof/Machine/Frost.lean ====
section
/-! DEFINITION. Frost (R39, R404 to R407), escalation in BLANK and TEST (R403), and the stamping of alarms (R401, R402). -/

namespace Sys2Proof.Machine

/-! ### Steps 2 to 4: what is zeroized -/

/-- Step 2: all of BBRAM, the tag included. -/
def zeroBbram (b : Block) : Block := b.onBbram (fun _ => BbramSt.blank)

/-- Step 3: engine keys, the key store, vault and parking keys, the DRBG states, import and offer keys; the keeper halts. -/
def eraseKeys (b : Block) : Block :=
  let b := b.onSte (fun s => { s with lanes := s.lanes.map (fun l => { l with bank := none, spare := none }) })
  let b := b.onSce (fun s => { s with parkKey := [], cores := s.cores.map (fun c => { c with key := none }) })
  let b := b.onRng (fun r => { r with inst0 := false, inst1 := false })
  let stop (u : PkUnit) : PkUnit :=
    { u with queue := [], running := none, state := if u.state = PkState.busy then PkState.idle else u.state }
  let b := b.onPke (fun p => { p with mod := stop p.mod, lat := stop p.lat })
  let b := b.onKey (fun k => { KeySt.reset with checkFails := k.checkFails, commits := k.commits })
  (b.onOtp (fun o => { o with nonce := none })).onKpr (fun _ => KeeperSt.reset)

/-- Answers to host reads of the boot window and SPIT reads that wait on flash when flash stops (R153, R204). -/
def flashWaitersDie (ops : List FlashOp) (b : Block) : Block :=
  (ops.flatMap (·.waiters)).foldl (fun b w => match w with
    | .bootWindow _ _ => reply 0 .abort [] (advise 0 aerAbort b)
    | .spit _ n => send (.spit (List.replicate n 0xFF)) b
    | .mailbox _ _ => b
    | .keeper _ => b) b

/-- Operations that a port holds. -/
def portOps (p : FlashPort) : List FlashOp := p.queue ++ p.running.toList ++ p.paused.toList

/-- The interposer stops (R58, R153): fills stop, cache and ledger zeroized, a mailbox command ends with POISON, waiting host reads with
Completer Abort. -/
def flashFrost (b : Block) : Block :=
  let ops := portOps b.flt.fla ++ portOps b.flt.flb
  let empty (p : FlashPort) : FlashPort := { p with ledger := [], queue := [], running := none, paused := none }
  let b := flashWaitersDie ops b
  let b := if b.flt.mbxBusy then raiseIrq irqMailbox b else b
  let b := b.onFlt (fun f => { f with
    mode := 4, fla := empty f.fla, flb := empty f.flb, cache := [], spitBusy := false, spitWel := false
    mbxResult := if f.mbxBusy then 5 else f.mbxResult, mbxBusy := false, buffer := [], acts := [] })
  b.onPins (fun p => { p with spitAlert := false, spitCause := 0 })

/-- Step 4: vault die, staging and parked messages, ledger and cache, keeper memories, register-mode digest state; the basic level ends
with FROZEN (R487). -/
def sweepStores (b : Block) : Block :=
  let b := legFree (legEnd stFrozen 0 b)
  let b := b.onDge (fun d => { d with rm := { RegDigest.reset with early := d.rm.early } })
  let b := b.onVlt (fun v => { VaultSt.reset v.reserve with
    failed := v.failed, loads := v.loads, idHits := v.idHits, evictions := v.evictions, blobFails := v.blobFails, alarms := v.alarms
    keysErased := v.keysErased })
  flashFrost ((b.onBoot (fun o => { o with offer := none })).onPins (fun p => { p with platCycle := false }))

/-! ### Step 5: outstanding descriptors -/

/-- One descriptor that has been read: stopped, its outputs and those of its message zeroed, completed with FROZEN; zeroing under way, or done with the
entry still held, stands, which covers what both rows of R253 name (R259). -/
def frostJob (b : Block) (id : Nat) : Block :=
  match jobOf b id with
  | none => b
  | some j =>
    match j.stage with
    | .zeroCheck v => setStage id (.zeroCheck { v with status := stFrozen, detail := 0, result := 0, past := none }) b
    | .ended v zeroed =>
      if zeroing v.status then setStage id (.ended { v with status := stFrozen, detail := 0, result := 0, past := none } zeroed) b
      else concludeCore id (failWritten b j stFrozen 0 0) b
    | _ => concludeCore id (failWritten b j stFrozen 0 0) b

/-- Fetching stops; every descriptor in flight completes with FROZEN; open messages are zeroed while the link is up, without
tombstones (R348); every SQ owes FROZEN entries for what it had published (R39). -/
def frostWork (b : Block) : Block :=
  let b := (b.work.jobs.map (·.id)).foldl frostJob b
  let b := pullFromUnits (fun _ => true) b
  let b := if b.link.phase = .active then
      b.sce.msgs.foldl (fun b m => emitZeros m.fn m.world (partsWritten m.parts) b) b
    else b
  let b := b.onSce (fun s => { s with msgs := [], cores := s.cores.map coreFree })
  b.onQ (fun q => { q with sqs := q.sqs.map (fun p =>
    if p.2.state = SqState.active then (p.1, { p.2 with state := .draining }) else p) })

/-! ### The sequence -/

/-- TMP_CAUSE is set for a trigger: its mask bit, and FIRST and the time at the latch (R404, R407). -/
def latchFrost (t : Nat) (b : Block) : Block :=
  b.onTmp (fun x => { x with
    mask := x.mask ||| 2 ^ t
    first := if x.latched then x.first else t + 1
    frostTime := if x.latched then x.frostTime else b.time.secs
    latched := true })

/-- Frost by a qualified trigger (R404). A trigger in FROZEN adds its bit and repeats step 2 (R407); without the internal power-good, or
while a chip reset is in progress, the volatile stores hold nothing (R405). -/
def frost (t : Nat) (b : Block) : Block :=
  let again := b.tmp.latched
  let b := zeroBbram (latchFrost t b)
  if again || !b.sup.pgood || decide (b.run.state = .reset) then b
  else
    let id := (b.mon.running.map (·.2.2)).getD 0
    let b := monitorHsmDone id stFrozen 0 0 []
      (raiseIrq irqFrozen (b.onRun (fun r => { r with state := .frozen })))
    let b := frostWork (eraseKeys b)
    let b := b.onMon (fun m => { m with running := none })
    let b := b.onPwr (fun p => { p with quiesce := [], resetting := none, goalLanes := [], goalCores := [], settling := false })
    let b := b.onWdg (fun w => { w with d := { w.d with hard := none, await := none }, p := { w.p with hard := none }, owed := [], restartDue := false })
    settleAll (sweepStores b)

/-- Escalation (R403): full Frost from PROVISION on; in BLANK and TEST steps 2 to 4, then a chip reset of KIND 6. -/
def escalate (b : Block) : Block :=
  if 2 ≤ b.run.lcs then frost 11 b else chipReset 6 (zeroBbram b)

/-! ### Alarms (R401, R402) -/

/-- TMP_CFG.ALARM_WINDOW, 0 taken as 1. -/
def alarmWindow (b : Block) : Nat := max 1 (bits b.tmp.cfg.toNat 31 20)

/-- TMP_CFG.ALARM_LIMIT, 0 taken as 1. -/
def alarmLimit (b : Block) : Nat := max 1 (bits b.tmp.cfg.toNat 19 12)

/-- Alarms whose stamps lie in the window that ends at the current second. -/
def alarmsInWindow (b : Block) : Nat := b.tmp.stamps.countP (fun s => decide (b.time.secs - s < alarmWindow b))

/-- Stamp an alarm; escalate when ALARM_LIMIT + 1 stamps fall within the window, every stamp cleared first (R402). -/
def stampAlarm (b : Block) : Block :=
  let b := raiseIrq irqEngineAlarm b
  let b := b.onTmp (fun t =>
    let all := t.stamps ++ [b.time.secs]
    { t with stamps := all.drop (all.length - 256) })
  if alarmLimit b + 1 ≤ alarmsInWindow b then escalate (b.onTmp (fun t => { t with stamps := [] })) else b

end Sys2Proof.Machine
end

