-- ==== Sys2Proof/Machine/Start.lean ====
section
/-! DEFINITION. How the command of an opcode starts on its descriptor, and writes of PF0's registers. -/

namespace Sys2Proof.Machine

/-- Start the command of an opcode on a descriptor: it has been read, its turn has come (R221, R222), and its SQ executes the opcode; then
checks 2 to 4 (R242), then what comes next. Otherwise nothing happens. -/
def startOp (op id : Nat) (go : Job → Block → Block) (b : Block) : Block :=
  match jobOf b id with
  | none => b
  | some j =>
    if j.stage = .arrived ∧ dOp j.desc = op ∧ opcodeDefined (decide (j.dqn < 256)) op = true ∧ j.dqn ≠ ghostQueue ∧
        (j.started = true ∨ canStart b j = true) then
      let b := onJob b id (fun j => { j with started := true })
      settleAll (match ownChecks b.run.variant j.desc with
        | some (st, det) => concludeCore id (verdict st det 0 0) b
        | none => go j b)
    else b

/-- Resolutions that had to wait for the vault (R290, R302, R372) go on. -/
def resumeResolves (b : Block) : Block :=
  (b.work.jobs.filter (fun j => decide (j.stage = Stage.arrived) && j.started && viaVault j.desc)).foldl
    (fun b j => startResolve j.id b) b

/-- A write of a PF0 register: an unreachable BAR answers as R201 says; in FROZEN it is ignored and counted (R204); a 1 written to a bit of
`resv` is counted (R13). -/
def pf0Write (resv : Nat) (v : Word) (f : Block → Block) (b : Block) : Block :=
  barWrite 0 (fun b =>
    if b.run.state = .frozen then rsvdWrite b
    else if v.toNat &&& resv ≠ 0 then f (rsvdWrite b) else f b) b

/-- A read of a PF0 register: its value goes back in the completion; in FROZEN only some windows answer, the others read 0 (R204, R504). -/
def pf0Read (inFrozen : Bool) (f : Block → Nat × Block) (b : Block) : Block :=
  if (fnOf b 0).d3hot = true then
    reply 0 .unsupported [] (advise 0 aerUnsupported b)
  else if b.run.state = .frozen && !inFrozen then reply 0 .success (zeros 4) b
  else
    let p := f b
    reply 0 .success (lePut 4 p.1) p.2

end Sys2Proof.Machine
end

