-- ==== Sys2Proof/Machine/Budget.lean ====
section
/-! DEFINITION. The power budget, and the pace of new work while the cap admits no more than one unit of a kind (R460, R461). -/

namespace Sys2Proof.Machine

/-! ### Tables (R460) -/

/-- A table's figure at `x`, times 100, linear between rows whose distance divides 100; the end rows beyond the table. -/
def interp : List (Nat × Nat) → Nat → Nat
  | [], _ => 0
  | [(_, y)], _ => 100 * y
  | (x0, y0) :: (x1, y1) :: rest, x =>
    if x ≤ x0 then 100 * y0
    else if x ≤ x1 then 100 * y0 + (y1 - y0) * (x - x0) * 100 / (x1 - x0)
    else interp ((x1, y1) :: rest) x

/-- Base budget by mV, in 0.01 W. -/
def baseRows : Variant → List (Nat × Nat)
  | .jtH48F => [(600, 460), (700, 550), (750, 600), (800, 650), (850, 710), (900, 780)]
  | .jtH48S => [(600, 350), (700, 410), (750, 450), (800, 490), (850, 530), (900, 590)]
  | .jtH48B => [(600, 190), (700, 230), (750, 250), (800, 270), (850, 300), (900, 330)]

/-- Budget of a lane by mV, in 0.01 W. -/
def laneRows : List (Nat × Nat) := [(600, 110), (700, 150), (750, 175), (800, 205), (850, 240), (900, 280)]

/-- Budget of a core by mV, in 0.01 W. -/
def coreRows : List (Nat × Nat) := [(600, 12), (700, 17), (750, 19), (800, 22), (850, 26), (900, 31)]

/-- The budget (R460) in units of 10^-7 W. -/
def budget (v : Variant) (tj : Int) (mv lanes cores : Nat) : Nat :=
  interp (baseRows v) mv * (1000 + 8 * (tj - 60).toNat) + 1000 * (lanes * interp laneRows mv + cores * interp coreRows mv)

/-- STRAP_AVS was latched as 1. -/
def avsActive (b : Block) : Bool := bit b.pins.straps 3

/-- The voltage that the budget is taken at: the requested VDD_CORE; without requests the measured one (R460, R465). -/
def budgetMv (b : Block) : Nat :=
  if avsActive b = false then b.pwr.measured else if b.pwr.avsFault then max b.pwr.target b.pwr.measured else b.pwr.target

/-- While CAP_LIMITED is 1 new work starts only during (PWR_CAP − base) / (lane + core budgets) of each 1 ms (R461): its first part (DESIGN CHOICE,
assumption 5). -/
def paceOpen (b : Block) : Bool :=
  let mv := budgetMv b
  let unit := budget b.run.variant b.pwr.tj mv 1 1 - budget b.run.variant b.pwr.tj mv 0 0
  !b.pwr.capLimited || decide (b.time.usec % 1000 * unit < 1000 * (b.pwr.cap * 1000000 - budget b.run.variant b.pwr.tj mv 0 0))

end Sys2Proof.Machine
end

