-- ==== Sys2Proof/Machine/Stream.lean ====
section
/-! DEFINITION. Stream lanes: XTS descriptors, dispatch, key banks, fences (R304 to R321). -/

namespace Sys2Proof.Machine

/-! ### Lanes -/

/-- Change a lane. -/
def onLane (n : Nat) (f : Lane → Lane) (b : Block) : Block :=
  b.onSte (fun s => { s with lanes := s.lanes.mapIdx (fun i l => if i = n then f l else l) })

/-- A lane, or one the variant lacks. -/
def laneAt (b : Block) (n : Nat) : Lane := (b.ste.lanes[n]?).getD Lane.reset

/-- A lane has a free bank: it is idle, or its running descriptor has issued its last source read (R311). -/
def bankFree (b : Block) (l : Lane) : Bool :=
  l.assigned.isNone &&
  match l.running with
  | none => true
  | some id => match jobOf b id with
    | some j => (match j.stage with
      | .data => j.src.next.isNone && decide (j.src.sum ≤ j.data.length + laneAhead j.desc (j.src.sum - j.data.length))
      | .running => j.src.next.isNone
      | .dstPiece => j.src.next.isNone && decide (j.src.sum ≤ j.data.length)
      | .dataCheck _ | .zeroCheck _ => true
      | _ => false)
    | none => true

/-- A lane takes a descriptor (R311). -/
def laneEligible (b : Block) (n : Nat) : Bool :=
  let l := laneAt b n
  paceOpen b && l.admitted && !bit b.ste.fence n && decide (l.state = .idle ∨ l.state = .busy) && !quiescing b (.lane n) && bankFree b l

/-- An idle bank of a lane already holds the context. -/
def laneHolds (l : Lane) (ctx : Nat × Nat) : Bool :=
  let has (k : Option Bank) : Bool := match k with
    | some k => (k.slot, k.gen) == ctx
    | none => false
  has l.spare || (l.running.isNone && has l.bank)

/-- The lane that takes the oldest pending descriptor: one that holds its context, else the lowest (R311). -/
def chooseLane (b : Block) (ctx : Nat × Nat) : Option Nat :=
  let ok := (List.range b.ste.lanes.length).filter (laneEligible b)
  match ok.find? (fun n => laneHolds (laneAt b n) ctx) with
  | some n => some n
  | none => ok.head?

/-- Load a context's key into the bank that the next descriptor uses; the bank of an idle lane that held another key becomes its
spare one (R304, R312). -/
def loadBank (n : Nat) (k : Bank) (b : Block) : Block :=
  onLane n (fun l =>
    if l.running.isSome then { l with spare := some k }
    else if l.bank.isSome && l.bank != some k then { l with bank := some k, spare := l.bank }
    else { l with bank := some k }) b

/-- A descriptor that a lane ends before it runs is counted (R321). -/
def countEnd (b : Block) : Block := b.onSte (fun s => { s with descs := sat32 (s.descs + 1) })

/-- The key of a descriptor has reached a lane: equal halves end it and erase the bank (R309), otherwise it runs. -/
def laneRun (n id : Nat) (key : Bytes) (b : Block) : Block :=
  if key.take 32 = slice key 32 32 then
    concludeCore id (verdict stPolicyDenied 4 0 0) (onLane n (fun l => { l with bank := none, state := .idle }) (countEnd b))
  else beginOnUnit id (onLane n (fun l => { l with running := some id, state := .busy }) b)

/-- Resolve a descriptor afresh whose context has gone (R320). -/
def resolveAfresh (id : Nat) (b : Block) : Block :=
  startResolve id (onJob b id (fun j => { j with stage := .arrived, ctx := none, blob := [] }))

/-- A lane takes a descriptor to run now: the checks of R299 again, the key, then its reads. -/
def laneTake (n id : Nat) (b : Block) : Block :=
  match jobOf b id with
  | none => b
  | some j =>
    match recheck b j with
    | .refused st det => concludeCore id (verdict st det 0 0) b
    | .gone => resolveAfresh id b
    | .good key =>
      let c := j.ctx.getD (0, 0)
      laneRun n id key (loadBank n { slot := c.1, gen := c.2, key := key } b)

/-- Give the oldest pending descriptor to a lane (R311): to run, or into the free bank of a busy lane. -/
def laneAssign (b : Block) : Block :=
  match b.ste.pending with
  | [] => b
  | id :: rest =>
    match jobOf b id with
    | none => b.onSte (fun s => { s with pending := rest })
    | some j =>
      match chooseLane b (j.ctx.getD (0, 0)) with
      | none => b
      | some n =>
        let b := b.onSte (fun s => { s with pending := rest })
        settleAll
          (if (laneAt b n).running.isSome then
            match recheck b j with
            | .refused st det => concludeCore id (verdict st det 0 0) b
            | .gone => resolveAfresh id b
            | .good key =>
              let c := j.ctx.getD (0, 0)
              if key.take 32 = slice key 32 32 then
                concludeCore id (verdict stPolicyDenied 4 0 0) (onLane n (fun l => { l with spare := none }) (countEnd b))
              else onLane n (fun l => { l with assigned := some id })
                (loadBank n { slot := c.1, gen := c.2, key := key } b)
          else laneTake n id b)

/-- The assigned descriptor of a lane returns to the head of the pending list, its bank erased (R317, R318, R319). -/
def laneGiveBack (n : Nat) (b : Block) : Block :=
  match (laneAt b n).assigned with
  | none => b
  | some id =>
    (setStage id .pending (onLane n (fun l => { l with assigned := none, spare := none }) b)).onSte (fun s =>
      { s with pending := id :: s.pending })

/-- The lane's running descriptor has gone: its other descriptor runs next, its banks changing places (R304); a lane that quiesces
gives it back (R319). -/
def lanePromote (n : Nat) (b : Block) : Block :=
  let l := laneAt b n
  let b := onLane n (fun l => { l with running := none, state := if l.state = .busy then .idle else l.state }) b
  match l.assigned with
  | none => b
  | some id =>
    if quiescing b (.lane n) then laneGiveBack n b
    else laneTake n id (onLane n (fun l => { l with assigned := none, bank := l.spare, spare := l.bank }) b)

/-- A descriptor still needs its unit. -/
def holdsUnit (b : Block) (id : Nat) : Bool :=
  match jobOf b id with
  | some j => (match j.stage with
    | .dataCheck _ | .zeroCheck _ => false
    | _ => true)
  | none => false

/-- Lanes and pipelines whose descriptor has ended go on to the next (R304, R350). -/
def reapUnits (b : Block) : Block :=
  let gone (o : Option Nat) : Bool := match o with
    | some i => !holdsUnit b i
    | none => false
  let b := (List.range b.ste.lanes.length).foldl (fun b n => if gone (laneAt b n).running then lanePromote n b else b) b
  b.onDge (fun d => { d with pipes := d.pipes.map (fun p => if gone p.job then { p with job := none } else p) })

/-- The last block of a lane's descriptor has left: its output, its counts, its completion (R306, R313, R321). -/
def laneEnd (n : Nat) (b : Block) : Block :=
  match (laneAt b n).running with
  | none => b
  | some id =>
    match jobOf b id with
    | none => b
    | some j =>
      if j.stage = .running then
        let b := writeOut j (outputSoFar b j) b
        let cts := dLen j.desc % 2 ^ bits (dParam j.desc) 4 0 % 16 != 0
        let b := b.onSte (fun s => { s with
          bytes := (s.bytes + dLen j.desc) % 2 ^ 64, descs := sat32 (s.descs + 1), cts := sat32 (s.cts + b2n cts) })
        settleAll (purgeBanks (lanePromote n (concludeCore id (success (dLen j.desc) 0) b)))
      else b

/-- Erase a key bank that has been unused for 1 ms (R312). -/
def bankExpiry (n : Nat) (spare : Bool) (b : Block) : Block :=
  onLane n (fun l =>
    if spare then (if l.assigned.isNone then { l with spare := none } else l)
    else if l.running.isNone then { l with bank := none } else l) b

/-- Every pending XTS descriptor ends when host software has fenced every lane (R311). -/
def flushStream (b : Block) : Block :=
  if allLanesFenced b then
    b.ste.pending.foldl (fun b id => concludeCore id (verdict stUnitReset 0x01FF 0 0) b) (b.onSte (fun s => { s with pending := [] }))
  else b

/-- A write of STE_LANE_CTRL (R317, R321). -/
def laneFence (v : Word) (b : Block) : Block :=
  let n := lanesOf b.run.variant
  pf0Write (if n = 0 then 0 else 0xFFFFFFFF - (2 ^ n - 1)) v (fun b =>
    if n = 0 then rsvdWrite b
    else
      let b := b.onSte (fun s => { s with fence := v.toNat % 2 ^ n })
      let b := (List.range n).foldl (fun b i => if bit v.toNat i then laneGiveBack i b else b) b
      settleAll (flushStream b)) b

/-! ### The commands -/

/-- XTS_ENC. -/
def execXtsEnc (job : Nat) (s : State) : Host.Outcome State Fault Refusal :=
  .next { s with blk := startOp 0x01 job (fun j => startResolve j.id) s.blk }

/-- XTS_DEC. -/
def execXtsDec (job : Nat) (s : State) : Host.Outcome State Fault Refusal :=
  .next { s with blk := startOp 0x02 job (fun j => startResolve j.id) s.blk }

/-- LANE_ASSIGN (R311). -/
def execLaneAssign (s : State) : Host.Outcome State Fault Refusal := .next { s with blk := laneAssign s.blk }

/-- LANE_DESCRIPTOR_END (R318). -/
def execLaneDescriptorEnd (lane : Nat) (s : State) : Host.Outcome State Fault Refusal := .next { s with blk := laneEnd lane s.blk }

/-- KEY_BANK_IDLE_EXPIRY (R312). -/
def execKeyBankIdleExpiry (lane : Nat) (spare : Bool) (s : State) : Host.Outcome State Fault Refusal :=
  .next { s with blk := bankExpiry lane spare s.blk }

/-- STE_LANE_FENCE_WRITE (R317). -/
def execSteLaneFenceWrite (value : Word) (s : State) : Host.Outcome State Fault Refusal :=
  .next { s with blk := laneFence value s.blk }

end Sys2Proof.Machine
end

