-- ==== Sys2Proof/Machine/Session.lean ====
section
/-! DEFINITION. Session engines: message sequence, scheduling, parts, parking, abandonment, staging, fences (R322 to R349). -/

namespace Sys2Proof.Machine

/-! ### Check 5 (R331) -/

/-- The tombstone of an SQ and MSG_ID (R337). -/
def tombOf (b : Block) (dqn mid : Nat) : Option Tomb := b.sce.tombs.find? (fun t => t.dqn == dqn && t.msgId == mid)

/-- Forget a tombstone. -/
def dropTomb (dqn mid : Nat) (b : Block) : Block :=
  b.onSce (fun s => { s with tombs := s.tombs.filter (fun t => !(t.dqn == dqn && t.msgId == mid)) })

/-- A part finds no open message: MESSAGE_ABANDONED with its tombstone, which it consumes, or MESSAGE_SEQUENCE 1. -/
def noMessage (j : Job) (b : Block) : Block :=
  let mid := dMsg j.desc
  match tombOf b j.dqn mid with
  | some t =>
    concludeCore j.id { verdict stMessageAbandoned mid 0 0 with past := some (t.zeroed, t.ok) } (dropTomb j.dqn mid b)
  | none => concludeCore j.id (verdict stMessageSequence 1 0 0) b

/-- A message that a first part opens (R331). -/
def Msg.opened (b : Block) (j : Job) : Msg :=
  { dqn := j.dqn, msgId := dMsg j.desc, fn := j.fn, world := j.world, opcode := dOp j.desc, handle := dHandle j.desc,
    param := dParam j.desc, ctx := (0, 0), state := .opening,
    cipher := CipherSt.none, hold := false, held := [], parts := [],
    ended := b.work.clock, wantPark := false, park := none, doomed := false, opener := j.id }

/-- Check 5 of a session descriptor, then its context, or its place behind the part before it. -/
def sessionCheck (j : Job) (b : Block) : Block :=
  let mid := dMsg j.desc
  if mid = 0 then startResolve j.id b
  else if dFirst j.desc then
    if (msgOf b j.dqn mid).isSome then concludeCore j.id (verdict stMessageSequence 2 0 0) b
    else startResolve j.id ((dropTomb j.dqn mid b).onSce (fun s => { s with msgs := s.msgs ++ [Msg.opened b j] }))
  else
    match msgOf b j.dqn mid with
    | none => noMessage j b
    | some m =>
      if m.opcode ≠ dOp j.desc ∨ m.handle ≠ dHandle j.desc ∨ m.param ≠ dParam j.desc then
        concludeCore j.id (verdict stMessageSequence 3 0 0) b
      else enqueue j.id b

/-- The command of a session opcode. A first part whose resolution waits for the vault has passed check 5 already. -/
def sessionCmd (op id : Nat) (b : Block) : Block :=
  startOp op id (fun j b =>
    match msgOf b j.dqn (dMsg j.desc) with
    | some m => if dMsg j.desc ≠ 0 ∧ m.state = .opening ∧ m.opener = j.id then startResolve j.id b else sessionCheck j b
    | none => sessionCheck j b) b

/-! ### Staging and part log (R334, R341) -/

/-- A multiple of 4 KiB that covers `n` bytes. -/
def steps4K (n : Nat) : Nat := 4096 * ceilDiv n 4096

/-- Staging charged to a message: what it holds and what its running part may add. -/
def msgCharge (b : Block) (m : Msg) : Nat :=
  if m.hold then
    let run := match m.state with
      | .running c => match (b.sce.cores[c]?).bind (·.job) with
        | some id => match jobOf b id with
          | some j => payload j.desc
          | none => 0
        | none => 0
      | _ => 0
    steps4K (m.held.length + run)
  else 0

/-- Staging that a BOOT_ACTIVATE takes once it has begun (R470; the spec gives no figure): the manifest with a 64 KiB part of the image, or with the
whole image of class 0. -/
def actNeed (cls : Nat) : Nat := 0x4000 + if cls = 0 then 1536 * 1024 else 65536

/-- Staging that image copies hold (R36, R470): a Thaw offer's bytes, the new keeper of an update, activations under way. -/
def imageHeld (b : Block) : Nat :=
  (match b.boot.offer with
    | some o => o.head.length + o.image.length
    | none => 0) +
  (match b.kpr.update with
    | some m => 0x4000 + leAt m 0x10 4
    | none => 0) +
  (b.flt.acts.map (fun a => if a.step = .room then 0 else actNeed a.cls)).sum

/-- Staging that image verification can still take; bytes that messages hold on JT-H48S stay theirs (R470). -/
def imageRoom (b : Block) (held : Nat) : Nat :=
  imageShareOf b.run.variant - imageHeld b - (if b.run.variant = .jtH48S then held else 0)

/-- Image verification has begun, or waits for its bytes. -/
def imageBusy (b : Block) : Bool := decide (0 < imageHeld b) || !b.flt.acts.isEmpty

/-- Staging that release-on-verify holds (R341): open messages, and one-descriptor messages that run. -/
def stagingHeld (b : Block) : Nat :=
  (b.sce.msgs.map (msgCharge b)).sum +
  (b.sce.cores.map (fun c => match c.job with
    | some id => match jobOf b id with
      | some j => if dMsg j.desc = 0 ∧ jobHolds b j = true then steps4K (payload j.desc) else 0
      | none => 0
    | none => 0)).sum

/-- Part-log entries in use (R334): those of finished parts and of running ones. -/
def logUsed (b : Block) : Nat :=
  (b.sce.msgs.map (fun m => m.parts.length + (match m.state with
    | .running _ => 1
    | _ => 0))).sum

/-- What keeps a part that has found a core from starting. -/
inductive PartGate where
  /-- It may start. -/
  | go
  /-- No part-log entry (LOG_WAIT), or no room in staging (STAGE_WAIT). -/
  | logWait | stageWait
  /-- It ends: status, DETAIL, RESULT. -/
  | stop (status detail result : Nat)
  deriving DecidableEq, Repr

/-- Judge a part at its start (R332, R334, R341): `m` is the open message of a later part, `hold` its mode. -/
def partGate (b : Block) (j : Job) (m : Option Msg) (hold : Bool) : PartGate :=
  let pay := payload j.desc
  let sum := pay + (m.map (fun m => m.cipher.pay)).getD 0
  let held := (m.map (fun m => m.held.length)).getD 0
  match payLimit (dOp j.desc) (dParam j.desc) with
  | some lim =>
    if lim < sum then .stop stLengthMismatch (2 * 2 ^ 30) sum else gate2 pay held
  | none => gate2 pay held
where
  /-- The checks after the payload limit. -/
  gate2 (pay held : Nat) : PartGate :=
    if hold && decide (holdLimitOf b.run.variant < held + pay) then .stop stHoldLimit 0 0
    else if dMsg j.desc ≠ 0 ∧ partLogOf b.run.variant ≤ logUsed b then .logWait
    else if hold && ((b.run.variant == .jtH48S && imageBusy b) ||
        decide (holdAccountOf b.run.variant < stagingHeld b - steps4K held + steps4K (held + pay))) then .stageWait
    else .go

/-! ### Scheduling (R323) -/

/-- The core that the scheduler reserves for the basic level: the highest-numbered that is neither FAILED nor fenced and has no message bound to it
(R479). -/
def basicCore (b : Block) : Option Nat :=
  (List.range b.sce.cores.length).reverse.find? (fun n => match b.sce.cores[n]? with
    | some c => decide (c.state ≠ CoreState.failed) && !bit b.sce.fence n && !quiescing b (.core n) && c.msg.isNone
    | none => false)

/-- The session lock waits for this core (R479): it takes no new work. -/
def coreClaimed (b : Block) (n : Nat) : Bool := b.leg.session.holder.isSome && b.leg.core.isNone && basicCore b == some n

/-- A core takes new work. -/
def coreEligible (b : Block) (n : Nat) : Bool :=
  match b.sce.cores[n]? with
  | some c => paceOpen b && !coreClaimed b n && c.admitted && decide (c.state = CoreState.idle) && !bit b.sce.fence n && !quiescing b (.core n) && c.msg.isNone &&
      c.job.isNone
  | none => false

/-- The core that takes a descriptor of a context: one whose key register holds it, else the lowest. -/
def chooseCore (b : Block) (ctx : Nat × Nat) : Option Nat :=
  let ok := (List.range b.sce.cores.length).filter (coreEligible b)
  match ok.find? (fun n => match (b.sce.cores[n]?).bind (·.key) with
      | some k => (k.slot, k.gen) == ctx
      | none => false) with
  | some n => some n
  | none => ok.head?

/-- A part starts on a core: the key register loaded, the message running there, then its reads. -/
def partRun (n : Nat) (j : Job) (ctx : Nat × Nat) (hold resumed : Bool) (b : Block) : Block :=
  let key := ctxKey b ctx.1
  let b := b.onSce (fun s => { s with pending := s.pending.filter (· != j.id) })
  let mid := dMsg j.desc
  let b := onCore n (fun c => { c with
    key := some { slot := ctx.1, gen := ctx.2, key := key }, job := some j.id, msg := if mid = 0 then none else some (j.dqn, mid),
    state := .busy, late := bit b.sce.fence n }) b
  let b := if mid = 0 then b
    else onMsg j.dqn mid (fun m => { m.resumed b with
      state := .running n, ctx := ctx, hold := if dFirst j.desc then hold else m.hold, wantPark := false }) b
  beginOnUnit j.id (onJob b j.id (fun j => { j with ctx := some ctx, resumed := resumed }))

/-- A part ends with HOLD_LIMIT (R253, R341): the output areas of its message and its own are zeroed. Its own output list, where it has one, is read
first; until then the part stays in the pending list, ahead of the later ones. -/
def holdEnds (j : Job) (m : Option Msg) (b : Block) : Block :=
  let v := { verdict stHoldLimit 0 0 0 with extent := (m.map (fun m => partsArea m.parts)).getD [] }
  if fragDst j.desc then
    nextRead j.id (onJob b j.id (fun j => { j with due := some v, dst := Walk.start (dDst j.desc), outLen := outLen j.desc }))
  else
    concludeCore j.id { v with extent := v.extent ++ takeRanges [(dDst j.desc, outLen j.desc)] (outLen j.desc) }
      (b.onSce (fun s => { s with pending := s.pending.filter (· != j.id) }))

/-- Judge a part that has found a core, and start it; none while it waits. -/
def partStartOn (n : Nat) (j : Job) (m : Option Msg) (ctx : Nat × Nat) (hold resumed : Bool) (b : Block) : Option Block :=
  match partGate b j m hold with
  | .go => some (partRun n j ctx hold resumed b)
  | .logWait | .stageWait => none
  | .stop st det res =>
    if st = stHoldLimit then some (holdEnds j m b)
    else some (concludeCore j.id { verdict st det res 0 with extent := (m.map (fun m => partsWritten m.parts)).getD [] }
      (b.onSce (fun s => { s with pending := s.pending.filter (· != j.id) })))

/-- An earlier part of the same message waits ahead of a part (R323). -/
def partBehind (b : Block) (j : Job) : Bool :=
  (b.sce.pending.takeWhile (· != j.id)).any (fun i => match jobOf b i with
    | some k => k.dqn == j.dqn && dMsg k.desc == dMsg j.desc
    | none => false)

/-- What a descriptor of the pending list that has found its core waits for (R334, R341). -/
def pendingGate (b : Block) (id : Nat) : PartGate :=
  match jobOf b id with
  | none => .go
  | some j =>
    let placed (ctx : Nat × Nat) (m : Option Msg) : PartGate :=
      if (chooseCore b ctx).isSome then partGate b j m (jobHolds b j) else .go
    if dMsg j.desc ≠ 0 ∧ dFirst j.desc = false then
      match msgOf b j.dqn (dMsg j.desc) with
      | none => .go
      | some m => match m.state with
        | .bound _ => if partBehind b j then .go else partGate b j (some m) (jobHolds b j)
        | .parked => if partBehind b j then .go else placed m.ctx (some (m.resumed b))
        | _ => .go
    else placed (j.ctx.getD (0, 0)) none

/-- Try to move one pending descriptor on; none while it waits. A later part runs on the core that holds its message, or on an eligible
core when the message is parked, and never overtakes an earlier part (R323); check 6 judges it too (R302, R333). -/
def tryDispatch (b : Block) (id : Nat) : Option Block :=
  let unpend (b : Block) : Block := b.onSce (fun s => { s with pending := s.pending.filter (· != id) })
  match jobOf b id with
  | none => some (unpend b)
  | some j =>
    let mid := dMsg j.desc
    if j.due.isSome then none
    else if mid ≠ 0 ∧ dFirst j.desc = false then
      if partBehind b j then none
      else match msgOf b j.dqn mid with
        | none => some (noMessage j (unpend b))
        | some m =>
          if id < m.opener then some (noMessage j (unpend b))
          else
            let judged := if b.vlt.failed then some (stEngineAlarm, 0x0500)
              else useChecks b j.fn j.world j.desc (slotAt b m.ctx.1).header
            match judged with
            | some (st, det) =>
              (match m.state with
              | .bound _ | .parked => some (concludeCore id (failWritten b j st det 0) (unpend b))
              | _ => none)
            | none =>
            if vaultServes b = false ∨ slotSound b m.ctx.1 = false then none
            else match m.state with
              | .bound n => partStartOn n j (some m) m.ctx m.hold false b
              | .parked =>
                if m.park.all (parkSound b) then
                  (chooseCore b m.ctx).bind (fun n => partStartOn n j (some (m.resumed b)) m.ctx m.hold true b)
                else none
              | _ => none
    else
      match chooseCore b (j.ctx.getD (0, 0)) with
      | none => none
      | some n =>
        match recheck b j with
        | .refused st det => some (concludeCore id (verdict st det 0 0) (unpend b))
        | .gone => some (resolveAfresh id (unpend b))
        | .good _ => partStartOn n j none (j.ctx.getD (0, 0)) (holdMode b j.desc (j.ctx.getD (0, 0))) false b

/-- The first descriptor of a list that can move on. -/
def firstDispatch (b : Block) : List Nat → Option Block
  | [] => none
  | id :: rest => match tryDispatch b id with
    | some b' => some b'
    | none => firstDispatch b rest

/-- Let the oldest descriptor of the pending list, which holds 1,024, that can proceed do so (R323). -/
def sessionDispatch (b : Block) : Block :=
  match firstDispatch b (b.sce.pending.take 1024) with
  | some b => settleAll b
  | none => b

/-! ### The end of a part (R327 to R333, R339 to R342) -/

/-- The whole output area of a message with its last part (R253), tag excluded on decryption. -/
def wholeArea (m : Option Msg) (j : Job) : List (Nat × Nat) :=
  (m.map (fun m => partsArea m.parts)).getD [] ++ takeRanges (walkRanges j.dst) j.outLen

/-- Write the held plaintext of a message's parts to their output areas, in part order (R340), and note it in the part log. It is free where R243 leaves a
part's output undefined. -/
def releaseHeld (m : Msg) (b : Block) : Block :=
  let p := m.parts.foldl (fun (acc : Block × Bytes) part =>
    let r := if part.undef then freeBytes part.len acc.1 else (acc.2.take part.len, acc.1)
    (emitData m.fn m.world part.area r.1 r.2, acc.2.drop part.len)) (b, m.held)
  onMsg m.dqn m.msgId (fun m => { m with parts := m.parts.map (fun p => { p with wrote := p.len }) }) p.1

/-- A last part of a decryption in release-on-verify. -/
def endHeld (j : Job) (m : Option Msg) (r : PartOut) (b : Block) : Block :=
  if r.ok then
    let b := match m with
      | some m => releaseHeld m b
      | none => b
    let b := writeOut j r.out b
    concludeCore j.id (success (r.out.length + (m.map (fun m => m.held.length)).getD 0) 0) b
  else concludeCore j.id { verdict stAuthFail 0 0 0 with extent := wholeArea m j } b

/-- The verdict and writes of a part whose last source byte has been processed. -/
def endWith (j : Job) (m : Option Msg) (hold : Bool) (r : PartOut) (b : Block) : Block :=
  let d := j.desc
  let last := dLast d
  if last = false then
    let b := onMsg j.dqn (dMsg d) (fun x => { x with cipher := r.st, held := if hold then x.held ++ r.out else x.held }) b
    if hold then concludeCore j.id (success 0 (r.out.length + (m.map (fun m => m.held.length)).getD 0)) b
    else
      concludeCore j.id { success r.out.length 0 with prov := !r.out.isEmpty } (writeOut j r.out b)
  else if hold then endHeld j m r b
  else
    let tagged := r.out ++ (if isEnc (dOp d) || dOp d == 0x1B then r.tag else [])
    let b := writeOut j tagged b
    if r.ok then concludeCore j.id (success tagged.length 0) b
    else concludeCore j.id { verdict stAuthFail 0 0 0 with extent := wholeArea m j } b

/-- A core has processed the last byte of its part (R335). -/
def partDone (n : Nat) (b : Block) : Block :=
  match (b.sce.cores[n]?).bind (·.job) with
  | none => b
  | some id =>
    match jobOf b id with
    | none => b
    | some j =>
      if j.stage = .running then
        let d := j.desc
        let m := if dFirst d then none else jobMsg b j
        let aad := j.data.take (dAad d)
        let pay := (j.data.drop (dAad d)).take (payload d)
        let tag := (j.data.drop (dAad d + payload d)).take (dTagLen d)
        let key := unitKey b id
        let r := cipherPart (dOp d) (dParam d) (dLast d) key aad pay (if isAeadDec (dOp d) && dLast d then tag else []) (partStart b j key)
        settleAll (purgeBanks (endWith j m (jobHolds b j) r b))
      else b

/-! ### Parking and abandonment (R336, R337) -/

/-- SCE_PARK_TIMEOUT has passed for the message bound to a core. -/
def parkTimeout (n : Nat) (b : Block) : Block :=
  match b.sce.cores[n]? with
  | some c => (match c.msg, c.job with
    | some (d, i), none => settleAll (parkMsg d i b)
    | _, _ => b)
  | none => b

/-- The BOUND message that has waited longest. -/
def longestBound (b : Block) : Option Msg :=
  b.sce.msgs.foldl (fun best m => match m.state with
    | .bound _ => match best with
      | none => some m
      | some x => if m.ended < x.ended then some m else some x
    | _ => best) none

/-- A descriptor has waited 2 µs with no eligible core: the BOUND message that has waited longest is parked. -/
def pendingPark (b : Block) : Block :=
  let waits := b.sce.pending.any (fun id => match jobOf b id with
    | some j => dMsg j.desc == 0 || dFirst j.desc || (match msgOf b j.dqn (dMsg j.desc) with
      | some m => decide (m.state = MsgState.parked)
      | none => false)
    | none => false)
  if waits && !(List.range b.sce.cores.length).any (coreEligible b) then
    match longestBound b with
    | some m => settleAll (parkMsg m.dqn m.msgId b)
    | none => b
  else b

/-- A part of a message waits at its core, for the part log or for staging (R334, R341). -/
def waitsAtCore (b : Block) (m : Msg) : Bool :=
  b.sce.pending.any (fun i => match jobOf b i with
    | some j => j.dqn == m.dqn && dMsg j.desc == m.msgId && (decide (pendingGate b i = .logWait) || decide (pendingGate b i = .stageWait))
    | none => false)

/-- SCE_ABANDON_TIMEOUT has passed for an open message with no part running or waiting at a core (R337). -/
def messageAbandon (dqn mid : Nat) (b : Block) : Block :=
  settleAll (abandonWhere (fun m => m.dqn == dqn && m.msgId == mid && !waitsAtCore b m) b)

/-- A part has waited for staging longer than SCE_ABANDON_TIMEOUT: its message ends with HOLD_LIMIT (R341). -/
def holdWaitTimeout (id : Nat) (b : Block) : Block :=
  if b.sce.pending.contains id then
    match jobOf b id with
    | none => b
    | some j =>
      let m := if dFirst j.desc then none else (jobMsg b j).map (·.resumed b)
      let ctx := match m with
        | some m => m.ctx
        | none => j.ctx.getD (0, 0)
      let hold := match m with
        | some m => m.hold
        | none => holdMode b j.desc ctx
      if j.due.isNone ∧ partGate b j m hold = .stageWait then settleAll (holdEnds j m b) else b
  else b

/-- The key register of a core has been unused for 1 ms with no message bound (R322). -/
def coreKeyExpiry (n : Nat) (b : Block) : Block :=
  onCore n (fun c => if c.job.isNone && c.msg.isNone && c.state != .basic then { c with key := none } else c) b

/-! ### SCE registers that the host writes (R324, R349) -/

/-- Every pending session descriptor ends when host software has fenced every core (R324). -/
def flushSession (b : Block) : Block :=
  if allCoresFenced b then
    b.sce.pending.foldl (fun b id => concludeCore id (verdict stUnitReset 0x02FF 0 0) b) (b.onSce (fun s => { s with pending := [] }))
  else b

/-- A write of SCE_CORE_FENCEk; bits for cores that the variant lacks are reserved. -/
def coreFence (k : Nat) (v : Word) (b : Block) : Block :=
  let n := min 32 (coresOf b.run.variant - 32 * k)
  if coresOf b.run.variant = 0 then pf0Write 0 v rsvdWrite b
  else if 2 ≤ k then b
  else
    pf0Write (0xFFFFFFFF - (2 ^ n - 1)) v (fun b =>
      let new := (v.toNat % 2 ^ n) * 2 ^ (32 * k)
      let keep := if k = 0 then (b.sce.fence / 2 ^ 32) * 2 ^ 32 else b.sce.fence % 2 ^ 32
      settleAll (flushSession (b.onSce (fun s => { s with fence := keep + new })))) b

/-- A write of SCE_PARK_TIMEOUT: 0 is taken as 1. -/
def parkTimeoutWrite (v : Word) (b : Block) : Block :=
  if coresOf b.run.variant = 0 then pf0Write 0 v rsvdWrite b
  else pf0Write 0xFFFF0000 v (fun b => b.onSce (fun s => { s with parkUs := max 1 (v.toNat % 65536) })) b

/-- A write of SCE_ABANDON_TIMEOUT: 0 is taken as 1, above 60,000 as 60,000. -/
def abandonTimeoutWrite (v : Word) (b : Block) : Block :=
  if coresOf b.run.variant = 0 then pf0Write 0 v rsvdWrite b
  else pf0Write 0xFFFF0000 v (fun b => b.onSce (fun s => { s with abandonMs := min 60000 (max 1 (v.toNat % 65536)) })) b

/-! ### The commands -/

/-- GCM_ENC. -/
def execGcmEnc (job : Nat) (s : State) : Host.Outcome State Fault Refusal := .next { s with blk := sessionCmd 0x10 job s.blk }
/-- GCM_DEC. -/
def execGcmDec (job : Nat) (s : State) : Host.Outcome State Fault Refusal := .next { s with blk := sessionCmd 0x11 job s.blk }
/-- CCM_ENC. -/
def execCcmEnc (job : Nat) (s : State) : Host.Outcome State Fault Refusal := .next { s with blk := sessionCmd 0x12 job s.blk }
/-- CCM_DEC. -/
def execCcmDec (job : Nat) (s : State) : Host.Outcome State Fault Refusal := .next { s with blk := sessionCmd 0x13 job s.blk }
/-- CHACHA_POLY_ENC. -/
def execChachaPolyEnc (job : Nat) (s : State) : Host.Outcome State Fault Refusal := .next { s with blk := sessionCmd 0x14 job s.blk }
/-- CHACHA_POLY_DEC. -/
def execChachaPolyDec (job : Nat) (s : State) : Host.Outcome State Fault Refusal := .next { s with blk := sessionCmd 0x15 job s.blk }
/-- CTR. -/
def execCtr (job : Nat) (s : State) : Host.Outcome State Fault Refusal := .next { s with blk := sessionCmd 0x18 job s.blk }
/-- CBC_ENC. -/
def execCbcEnc (job : Nat) (s : State) : Host.Outcome State Fault Refusal := .next { s with blk := sessionCmd 0x19 job s.blk }
/-- CBC_DEC. -/
def execCbcDec (job : Nat) (s : State) : Host.Outcome State Fault Refusal := .next { s with blk := sessionCmd 0x1A job s.blk }
/-- CMAC. -/
def execCmac (job : Nat) (s : State) : Host.Outcome State Fault Refusal := .next { s with blk := sessionCmd 0x1B job s.blk }
/-- SESSION_DISPATCH (R323). -/
def execSessionDispatch (s : State) : Host.Outcome State Fault Refusal := .next { s with blk := sessionDispatch s.blk }
/-- SESSION_PART_DONE (R335). -/
def execSessionPartDone (core : Nat) (s : State) : Host.Outcome State Fault Refusal := .next { s with blk := partDone core s.blk }
/-- PARK_TIMEOUT (R336). -/
def execParkTimeout (core : Nat) (s : State) : Host.Outcome State Fault Refusal := .next { s with blk := parkTimeout core s.blk }
/-- PENDING_PARK (R336). -/
def execPendingPark (s : State) : Host.Outcome State Fault Refusal := .next { s with blk := pendingPark s.blk }
/-- MESSAGE_ABANDON (R337). -/
def execMessageAbandon (dqn msgId : Nat) (s : State) : Host.Outcome State Fault Refusal :=
  .next { s with blk := messageAbandon dqn msgId s.blk }
/-- HOLD_WAIT_TIMEOUT (R341). -/
def execHoldWaitTimeout (job : Nat) (s : State) : Host.Outcome State Fault Refusal := .next { s with blk := holdWaitTimeout job s.blk }
/-- CORE_KEY_IDLE_EXPIRY (R322). -/
def execCoreKeyIdleExpiry (core : Nat) (s : State) : Host.Outcome State Fault Refusal := .next { s with blk := coreKeyExpiry core s.blk }
/-- SCE_CORE_FENCE_WRITE (R324). -/
def execSceCoreFenceWrite (k : Nat) (value : Word) (s : State) : Host.Outcome State Fault Refusal :=
  .next { s with blk := coreFence k value s.blk }
/-- SCE_PARK_TIMEOUT_WRITE (R349). -/
def execSceParkTimeoutWrite (value : Word) (s : State) : Host.Outcome State Fault Refusal :=
  .next { s with blk := parkTimeoutWrite value s.blk }
/-- SCE_ABANDON_TIMEOUT_WRITE (R349). -/
def execSceAbandonTimeoutWrite (value : Word) (s : State) : Host.Outcome State Fault Refusal :=
  .next { s with blk := abandonTimeoutWrite value s.blk }

end Sys2Proof.Machine
end

