-- ==== Sys2Proof/Machine/Digest.lean ====
section
/-! DEFINITION. The digest engine: descriptors of its opcodes and the register mode (R350 to R359, R374, R478). -/

namespace Sys2Proof.Machine

/-! ### Descriptors -/

/-- The command of a digest opcode: its context when it names one, else its place in the list (R350, R353). -/
def digestCmd (op id : Nat) (b : Block) : Block :=
  startOp op id (fun j b => if viaVault j.desc then startResolve j.id b else enqueue j.id b) b

/-- The key of a digest descriptor: supplied by the caller, or its context's (R353). -/
def digestKey (b : Block) (j : Job) : Bytes :=
  if callerKey j.desc then j.blob
  else match j.ctx with
    | some (s, _) => ctxKey b s
    | none => []

/-- A pipeline has absorbed its last source byte: the result is written in one write, or compared (R354, R356). -/
def digestEnd (n : Nat) (b : Block) : Block :=
  match (b.dge.pipes[n]?).bind (·.job) with
  | none => b
  | some id =>
    match jobOf b id with
    | none => b
    | some j =>
      if j.stage = .running then
        let d := j.desc
        let v := digestValue (dAlg d) (digestLen d) (digestKey b j) (dSLen d) j.data
        let b := onPipe n (fun p => { p with job := none }) b
        settleAll
          (if dOp d = 0x23 then
            if v = j.iv.take v.length ∧ v.length ≤ j.iv.length then concludeCore id (success 0 0) b
            else concludeCore id (verdict stAuthFail 0 0 0) b
          else concludeCore id (success v.length 0) (writeOut j v b))
      else b

/-! ### Register mode (R358, R359, R475, R476, R478) -/

/-- An access to the register mode, through the DGE window or its alias in LEG: with the lock held it renews the lease; without it it is
ignored, and through LEG it sets NOT_HELD. -/
def rmAccess (leg : Bool) (f : Block → Block) (b : Block) : Block :=
  match b.leg.digest.holder with
  | some _ => f (b.onLeg (fun l => { l with digest := { l.digest with renewed := b.time.usec } }))
  | none => if leg then b.onLeg (fun l => { l with digest := { l.digest with notHeld := true } }) else b

/-- Change the register mode. -/
def onRm (f : RegDigest → RegDigest) (b : Block) : Block := b.onDge (fun d => { d with rm := f d.rm })

/-- ABORT: state and results discarded, DONE cleared. -/
def rmAbort (b : Block) : Block := onRm RegDigest.aborted b

/-- START with the ALG and OUT_LEN in force: DONE cleared and results zeroed; a keyed ALG or a bad OUT_LEN sets ERROR, and nothing
starts. -/
def rmStart (b : Block) : Block :=
  let ok := !algKeyed b.dge.rm.alg && (algLen b.dge.rm.alg).isSome && outLenOk b.dge.rm.alg b.dge.rm.outLen
  onRm (fun r => { r with
    open_ := ok, busy := ok, done := false, data := [], result := [], error := r.error || !ok, runAlg := r.alg, runLen := r.outLen }) b

/-- FINAL: the message ends; without an open message it sets ERROR. -/
def rmFinal (b : Block) : Block :=
  onRm (fun r => if r.open_ then { r with open_ := false, runTail := r.tail } else { r with error := true }) b

/-- A write of DGE_RM_CTRL. -/
def rmCtrl (v : Nat) (b : Block) : Block :=
  let b := onRm (fun r => { r with alg := bits v 7 0, outLen := bits v 15 8, tail := bits v 18 16 }) b
  let b := if bit v 29 then rmAbort b else b
  let b := if bit v 31 then rmStart b else b
  if bit v 30 then rmFinal b else b

/-- A write of DGE_RM_DATA. -/
def rmData (v : Word) (b : Block) : Block :=
  onRm (fun r => if r.open_ then { r with data := r.data ++ lePut 4 v.toNat } else { r with error := true }) b

/-- The digest is ready, unless pipeline 1 tests itself or is FAILED (R458). A TAIL above 4 names no byte count, so the result it gives is free. -/
def rmDone (b : Block) : Block :=
  let r := b.dge.rm
  if r.busy && !r.open_ && (b.dge.pipes[1]?).all (fun p => !p.selfTest && !p.failed) then
    let out := if r.runLen = 0 then (algLen r.runAlg).getD 0 else r.runLen
    let cut := if r.runTail = 0 then 0 else 4 - r.runTail
    let p := if r.data.isEmpty || decide (r.runTail ≤ 4) then (digestValue r.runAlg out [] 0 (r.data.take (r.data.length - cut)), b)
      else freeBytes out b
    onRm (fun r => { r with busy := false, done := true, result := p.1.take 64, data := [] }) p.2
  else b

/-- A read of DGE_RM_RESULTn: 0 with EARLY_READ while DONE is 0. -/
def rmRead (n : Nat) (b : Block) : Nat × Block :=
  if b.dge.rm.done then (leAt b.dge.rm.result (4 * n) 4, b) else (0, onRm (fun r => { r with early := true }) b)

/-- What a read of a result register through a window gives; through LEG it needs the lock (R476). -/
def rmResult (leg : Bool) (n : Nat) (b : Block) : Nat × Block :=
  if b.leg.digest.holder.isNone && leg then (0, b.onLeg (fun l => { l with digest := { l.digest with notHeld := true } }))
  else rmRead n (rmAccess leg id b)

/-- A host read of a result register through a window. -/
def rmResultRead (leg : Bool) (n : Nat) (b : Block) : Block := pf0Read false (rmResult leg n) b

/-! ### The commands -/

/-- DIGEST. -/
def execDigest (job : Nat) (s : State) : Host.Outcome State Fault Refusal := .next { s with blk := digestCmd 0x20 job s.blk }
/-- HMAC. -/
def execHmac (job : Nat) (s : State) : Host.Outcome State Fault Refusal := .next { s with blk := digestCmd 0x21 job s.blk }
/-- KMAC. -/
def execKmac (job : Nat) (s : State) : Host.Outcome State Fault Refusal := .next { s with blk := digestCmd 0x22 job s.blk }
/-- DIGEST_COMPARE. -/
def execDigestCompare (job : Nat) (s : State) : Host.Outcome State Fault Refusal := .next { s with blk := digestCmd 0x23 job s.blk }
/-- DIGEST_DESCRIPTOR_END (R354). -/
def execDigestDescriptorEnd (pipe : Nat) (s : State) : Host.Outcome State Fault Refusal := .next { s with blk := digestEnd pipe s.blk }
/-- DGE_RM_START (R358). -/
def execDgeRmStart (leg : Bool) (value : Word) (s : State) : Host.Outcome State Fault Refusal :=
  .next { s with blk := pf0Write 0x1FF80000 value (rmAccess leg (rmCtrl (value.toNat ||| 2 ^ 31))) s.blk }
/-- DGE_RM_DATA_WRITE (R358). -/
def execDgeRmDataWrite (leg : Bool) (value : Word) (s : State) : Host.Outcome State Fault Refusal :=
  .next { s with blk := pf0Write 0 value (rmAccess leg (rmData value)) s.blk }
/-- DGE_RM_FINAL (R358). -/
def execDgeRmFinal (leg : Bool) (value : Word) (s : State) : Host.Outcome State Fault Refusal :=
  .next { s with blk := pf0Write 0x1FF80000 value (rmAccess leg (rmCtrl (value.toNat ||| 2 ^ 30))) s.blk }
/-- DGE_RM_ABORT (R374). -/
def execDgeRmAbort (leg : Bool) (value : Word) (s : State) : Host.Outcome State Fault Refusal :=
  .next { s with blk := pf0Write 0x1FF80000 value (rmAccess leg (rmCtrl (value.toNat ||| 2 ^ 29))) s.blk }
/-- RM_DIGEST_DONE (R358). -/
def execRmDigestDone (s : State) : Host.Outcome State Fault Refusal := .next { s with blk := rmDone s.blk }
/-- DGE_RM_RESULT_READ (R359). -/
def execDgeRmResultRead (leg : Bool) (n : Nat) (s : State) : Host.Outcome State Fault Refusal :=
  .next { s with blk := rmResultRead leg n s.blk }

end Sys2Proof.Machine
end

