-- ==== Sys2Proof/Machine/Vault.lean ====
section
/-! DEFINITION. The vault's commands, and the descriptors that need no unit: NOP and FENCE (R222, R239, R289, R292, R297). -/

namespace Sys2Proof.Machine

/-- A management opcode of the vault (R297). -/
def vaultCmd (op id : Nat) (b : Block) : Block := startOp op id (fun j => startResolve j.id) b

/-- The unwrap engine has finished the blob of a descriptor (R292, step 7). -/
def unwrapEvent (id : Nat) (b : Block) : Block :=
  match jobOf b id with
  | some j => (match j.stage with
    | .unwrap s => settleAll (unwrapDone id s b)
    | _ => b)
  | none => b

/-- An opcode that completes as soon as it may start: NOP, and FENCE once every earlier descriptor has completed (R222). -/
def plainCmd (op id : Nat) (b : Block) : Block := startOp op id (fun j => concludeCore j.id (success 0 0)) b

/-- RNG_FILL (R371): its output list is read and judged, then it draws. -/
def rngFill (id : Nat) (b : Block) : Block :=
  startOp 0x50 id (fun j b => nextRead j.id (onJob b j.id (fun j =>
    { j with dst := if fragDst j.desc then Walk.start (dDst j.desc) else Walk.plain (dDst j.desc) (outLen j.desc), outLen := outLen j.desc }))) b

/-- CTX_LOAD. -/
def execCtxLoad (job : Nat) (s : State) : Host.Outcome State Fault Refusal := .next { s with blk := vaultCmd 0x30 job s.blk }
/-- CTX_EVICT. -/
def execCtxEvict (job : Nat) (s : State) : Host.Outcome State Fault Refusal := .next { s with blk := vaultCmd 0x31 job s.blk }
/-- CTX_PIN. -/
def execCtxPin (job : Nat) (s : State) : Host.Outcome State Fault Refusal := .next { s with blk := vaultCmd 0x32 job s.blk }
/-- CTX_UNPIN. -/
def execCtxUnpin (job : Nat) (s : State) : Host.Outcome State Fault Refusal := .next { s with blk := vaultCmd 0x33 job s.blk }
/-- UNWRAP_DONE (R292). -/
def execUnwrapDone (job : Nat) (s : State) : Host.Outcome State Fault Refusal := .next { s with blk := unwrapEvent job s.blk }
/-- CONTEXT_USE_END (R289). -/
def execContextUseEnd (slot : Nat) (s : State) : Host.Outcome State Fault Refusal := .next { s with blk := settleAll (useEnded slot s.blk) }
/-- NOP. -/
def execNop (job : Nat) (s : State) : Host.Outcome State Fault Refusal := .next { s with blk := plainCmd 0x7F job s.blk }
/-- FENCE. -/
def execFence (job : Nat) (s : State) : Host.Outcome State Fault Refusal := .next { s with blk := plainCmd 0x7E job s.blk }
/-- RNG_FILL. -/
def execRngFill (job : Nat) (s : State) : Host.Outcome State Fault Refusal := .next { s with blk := rngFill job s.blk }

end Sys2Proof.Machine
end

