-- ==== Sys2Proof/Machine/Rng.lean ====
section
/-! DEFINITION. The random source: startup tests, health tests, self-tests, reseeding, raw bits (R368 to R374). -/

namespace Sys2Proof.Machine

/-- The random source works: STATE has left RESET and Frost has not stopped it. -/
def rngRuns (b : Block) : Bool := b.run.state != .reset && b.run.state != .frozen

/-- What the vault and the scheduler draw once, when the random source first gives bits (R287, R336). -/
def drawUnitKeys (b : Block) : Block :=
  if b.vlt.ready then b
  else
    let m := draw1 32 b
    let c := draw1 32 m.2
    let p := draw1 32 c.2
    (p.2.onVlt (fun v => { v with ready := true, maskKey := m.1, checkKey := c.1 })).onSce (fun s => { s with parkKey := p.1 })

/-- The reset of a unit by PWR_UNIT_CTRL ends with a RESULT, when it is that unit's (R459). -/
def unitResetEnded (u : UnitId) (result : Nat) (b : Block) : Block :=
  if b.pwr.resetting = some u then
    monitorUnitDone (raiseIrq irqUnitReset (b.onPwr (fun p => { p with resetting := none, done := true, result := result })))
  else b

/-- The tests have passed: both instances are instantiated afresh (R369), and the consumers that waited go on. -/
def rngPassed (b : Block) : Block :=
  let b := b.onRng (fun r => { r with
    state := .ready, inst0 := true, inst1 := true, reqs0 := 0, reqs1 := 0, seeded0 := b.time.secs, seeded1 := b.time.secs, fails := 0 })
  settleAll (resumeResolves (unitResetEnded .rng 0 (drawUnitKeys b)))

/-- An alarm of the random source (R372): uninstantiated, self-test. -/
def rngAlarm (b : Block) : Block :=
  let b := b.onRng (fun r => { r with
    state := .selfTest, inst0 := false, inst1 := false, selfTests := r.selfTests + 1, alarms := r.alarms + 1, runFails := [] })
  stampAlarm (event 0x2C1 b.rng.selfTests b)

/-- The tests have failed: at start-up an alarm; in a self-test it runs again, and a third failure in a row makes the source FAILED, which ends
every consumer that waits (R372). -/
def rngTestFailed (b : Block) : Block :=
  if b.rng.state = .startup then rngAlarm b
  else
    let n := b.rng.fails + 1
    let b := b.onRng (fun r => { r with fails := n, state := if 3 ≤ n then .failed else .selfTest, selfTests := r.selfTests + 1 })
    let b := unitResetEnded .rng 3 b
    if 3 ≤ n then settleAll (resumeResolves b) else b

/-- The startup tests or the self-test of the random source have ended. -/
def rngTested (pass : Bool) (b : Block) : Block :=
  if rngRuns b && (b.rng.state == .startup || b.rng.state == .selfTest) then
    if pass then rngPassed b else rngTestFailed b
  else b

/-- A continuous health test has failed (R372): `proportion` names the test. A third failure within 2^20 raw samples (65,536 µs at 16 MHz)
is an alarm; otherwise the startup tests run again. -/
def rngHealthFail (proportion : Bool) (b : Block) : Block :=
  if rngRuns b = false then b
  else
    let b := b.onRng (fun r => if proportion then { r with propFails := min 65535 (r.propFails + 1) }
      else { r with repFails := min 65535 (r.repFails + 1) })
    let b := event 0x2C0 (b2n proportion) b
    if b.rng.state = .ready ∨ b.rng.state = .startup then
      let recent := b.rng.runFails.filter (fun t => decide (b.time.usec - t < 65536)) ++ [b.time.usec]
      if 3 ≤ recent.length then rngAlarm b
      else b.onRng (fun r => { r with state := .startup, runFails := recent })
    else b

/-- The 60 s reseed of an instance in use (R370). -/
def rngReseedTimer (inst1 : Bool) (b : Block) : Block :=
  if b.rng.state = .ready ∧ rngRuns b = true then reseed (b2n inst1) b else b

/-- RNG_RAW (R374): the next raw word in BLANK and TEST, 0 elsewhere. -/
def rngRaw (b : Block) : Nat × Block :=
  if b.run.lcs ≤ 1 ∧ rngRuns b = true then
    ((Config.rawBits b.rng.raw).toNat, b.onRng (fun r => { r with raw := r.raw + 1 }))
  else (0, b)

/-- RNG_STARTUP_DONE (R369). -/
def execRngStartupDone (pass : Bool) (s : State) : Host.Outcome State Fault Refusal := .next { s with blk := rngTested pass s.blk }
/-- RNG_HEALTH_FAIL (R372). -/
def execRngHealthFail (proportion : Bool) (s : State) : Host.Outcome State Fault Refusal :=
  .next { s with blk := rngHealthFail proportion s.blk }
/-- RNG_RESEED_TIMER (R370). -/
def execRngReseedTimer (inst1 : Bool) (s : State) : Host.Outcome State Fault Refusal := .next { s with blk := rngReseedTimer inst1 s.blk }
/-- RNG_RAW_READ (R374). -/
def execRngRawRead (s : State) : Host.Outcome State Fault Refusal := .next { s with blk := pf0Read false rngRaw s.blk }

end Sys2Proof.Machine
end

