-- ==== Sys2Proof/Machine/Hsm.lean ====
section
/-! DEFINITION. HSM command blocks: arrival, who may send them, AUTHORITY, session checks, items, answers (R375 to R377, R386, R396,
R532). -/

namespace Sys2Proof.Machine

/-! ### The block (R375) -/

def bkCommand (k : Bytes) : Nat := leAt k 4 2
def bkAuth (k : Bytes) : Nat := leAt k 6 2
def bkSession (k : Bytes) : Nat := leAt k 8 4
def bkParam (k : Bytes) : Bytes := k.drop 16

/-- The COMMAND codes of R377. -/
def hsmKnown (c : Nat) : Bool :=
  [0x0001, 0x0002, 0x0003, 0x0010, 0x0011, 0x0012, 0x0013, 0x0020, 0x0021, 0x0022, 0x0069, 0x0070, 0x0071, 0x0058, 0x0059, 0x005A,
   0x005B, 0x005C].contains c ||
  (decide (0x0030 ≤ c) && decide (c ≤ 0x003B)) || (decide (0x0040 ≤ c) && decide (c ≤ 0x0045)) ||
  (decide (0x0050 ≤ c) && decide (c ≤ 0x0053)) || (decide (0x0060 ≤ c) && decide (c ≤ 0x0068))

/-- Steps 1 and 2 of R376: the reason of the first failure. -/
def blockBad (k : Bytes) : Option Nat :=
  if k.length < 16 ∨ leAt k 0 4 ≠ 0x4A484331 ∨ leAt k 0x0C 4 ≠ k.length - 16 then some 0x0501
  else if hsmKnown (bkCommand k) = false then some 0x0502
  else none

/-! ### Items (R376) -/

/-- The start of the next item: the next 8-byte boundary, when the bytes before it are zero. -/
def itemStart (p : Bytes) (off : Nat) : Option Nat :=
  let s := 8 * ceilDiv off 8
  if allZero p off (min (s - off) (p.length - off)) then some s else none

/-- A fixed item of `n` bytes after offset `off`, and where it ends. -/
def fixedItem (p : Bytes) (off n : Nat) : Option (Bytes × Nat) :=
  match itemStart p off with
  | some s => if s + n ≤ p.length then some ((p.drop s).take n, s + n) else none
  | none => none

/-- A variable item after offset `off`: its u32le length, 4 zero bytes, its bytes. -/
def varItem (p : Bytes) (off : Nat) : Option (Bytes × Nat) :=
  match fixedItem p off 8 with
  | some (h, e) =>
    let n := leAt h 0 4
    if allZero h 4 4 ∧ e + n ≤ p.length then some ((p.drop e).take n, e + n) else none
  | none => none

/-- Nothing but the padding to the next 8-byte boundary follows. -/
def itemsEnd (p : Bytes) (off : Nat) : Bool := decide (p.length < off + 8) && allZero p off (p.length - off)

/-! ### Answers -/

/-- Owner KEKs that commands on a public-key unit will wrap their output under: owner and current epoch. -/
def keksNeeded (b : Block) : List Nat :=
  (b.kpr.hsm.filter (fun h => h.stage == .engine && decide (0x43 ≤ bkCommand h.block) && decide (bkCommand h.block ≤ 0x45))).map
    (fun h => bkAuth h.block + 4096 * b.key.epoch)

/-- While KEYS_LOCKED is 1 the KEKs of commands that still run are held to their end, and no others (R263, R283). -/
def dropKeks (b : Block) : Block :=
  if b.run.keysLocked then
    let need := keksNeeded b
    b.onKey (fun k => { k with keks := k.keks.filter (fun p => need.contains p.1) })
  else b

/-- The keeper answers an HSM command: status, DETAIL, RESULT, output to DST or to the monitor. -/
def hsmFinish (h : HsmJob) (status detail result : Nat) (out : Bytes) (b : Block) : Block :=
  let b := dropKeks (b.onKpr (fun k => { k with hsm := k.hsm.filter (fun x => x.id != h.id) }))
  match h.req with
  | .monitor => monitorHsmDone h.id status detail result out b
  | .fn _ =>
    let b := onJob b h.id (fun j => { j with dst := Walk.plain (dDst j.desc) out.length, outLen := out.length })
    match jobOf b h.id with
    | none => b
    | some j => concludeCore h.id { verdict status detail result out.length with extent := [] } (writeOut j out b)

/-- SUCCESS. -/
def hsmOk (h : HsmJob) (result : Nat) (out : Bytes) (b : Block) : Block := hsmFinish h stSuccess 0 result out b

/-- HSM_ERROR with a reason. -/
def hsmFail (h : HsmJob) (reason result : Nat) (b : Block) : Block := hsmFinish h stHsmError reason result [] b

/-- A pair whose control word did not read back is judged again (R274, R275). -/
def judgeAgain (n : Nat) (b : Block) : Block :=
  let st := if n < 64 then slotState b n else recState b (n - 64)
  if st = .corrupt then noteCorrupt n b else b

/-- SUCCESS of a command that commits BBRAM, `after` its commits; a readback that fails gives the chapter's reason, and what was committed before it
stands (R275, R282). -/
def hsmCommit (h : HsmJob) (why result : Nat) (out : Bytes) (after b : Block) : Block :=
  match after.key.badPair with
  | none => hsmOk h result out after
  | some n =>
    hsmFail h why 0 (judgeAgain n { b with
      bbram := after.bbram, key := { b.key with commitNo := after.key.commitNo, commits := after.key.commits } })

/-- The keeper takes a command block (R376): refused at once for steps 1 and 2, or held until its turn; during a live update it is sent back
(R468). -/
def takeBlock (id : Nat) (req : Requester) (world : Bool) (block : Bytes) (b : Block) : Block :=
  let h : HsmJob := { id := id, req := req, world := world, block := block, stage := .waiting, note := [] }
  if b.kpr.stopped then
    if blockBad block = none ∧ bkCommand block = 0x0011 then hsmFail h 0x0009 0 b else hsmFinish h stKeeperRetry 0 0 [] b
  else match blockBad block with
    | some r => hsmFail h r 0 b
    | none => b.onKpr (fun k => { k with hsm := k.hsm ++ [h] })

/-- The command block of an HSM_CMD has arrived (R242, R252). -/
def blockArrived (id len : Nat) (res : HostData) (b : Block) : Block :=
  match jobOf b id with
  | none => b
  | some j =>
    match firstErr res with
    | some _ => concludeCore id (verdict stDataFetch (fetchDetail 7 0) 0 0) b
    | none => takeBlock id (.fn j.fn) j.world (slice res.data 0 len) b

/-! ### Requesters and authorities -/

/-- A requester bound to an owner (R377, R382, R493). -/
def reqBound (b : Block) (r : Requester) (owner : Nat) : Bool :=
  match r with
  | .fn n => boundTo b n owner
  | .monitor => owner == 0

/-- PF0. -/
def isPf0 (r : Requester) : Bool := r == Requester.fn 0

/-- A function, not the monitor. -/
def isFn : Requester → Bool
  | .fn _ => true
  | .monitor => false

/-- What step 3 to 5 of R376 ask of a command: who may send it; the authority of its quorum, when it needs one; the AUTHORITY values step
4 allows; the reasons for checks 1 and 2 and for checks 3 and 4 of R386. -/
structure HsmRule where
  sender  : Bool
  authOk  : Bool
  quorum  : Option Bool
  whyAuth : Nat
  whyQuorum : Nat

/-- A command of PF0 with AUTHORITY 0xFFFF and no quorum. -/
def rulePlain (r : Requester) (k : Bytes) : HsmRule :=
  { sender := isPf0 r, authOk := bkAuth k == 0xFFFF, quorum := none, whyAuth := 0x0506, whyQuorum := 0x0509 }

/-- A command of any function (and of the monitor) with AUTHORITY 0xFFFF and no quorum. -/
def ruleAny (k : Bytes) : HsmRule :=
  { sender := true, authOk := bkAuth k == 0xFFFF, quorum := none, whyAuth := 0x0506, whyQuorum := 0x0509 }

/-- A command of a function bound to the owner in AUTHORITY, with no quorum. -/
def ruleBound (b : Block) (r : Requester) (k : Bytes) : HsmRule :=
  { sender := isFn r && decide (bkAuth k ≤ 4095) && reqBound b r (bkAuth k), authOk := decide (bkAuth k ≤ 4095), quorum := none,
    whyAuth := 0x0506, whyQuorum := 0x0509 }

/-- A key command under the quorum of the owner in AUTHORITY (R279, R282). -/
def ruleOwner (b : Block) (r : Requester) (k : Bytes) (required : Bool) : HsmRule :=
  { ruleBound b r k with quorum := some required, whyAuth := 0x0304, whyQuorum := 0x0304 }

/-- A command of PF0 under a fixed authority's quorum, with the reasons its chapter gives. -/
def ruleQuorum (r : Requester) (k : Bytes) (auth whyAuth whyQuorum : Nat) : HsmRule :=
  { sender := isPf0 r, authOk := bkAuth k == auth, quorum := some true, whyAuth := whyAuth, whyQuorum := whyQuorum }

/-- The open session of a number. -/
def sessionOf (b : Block) (sid : Nat) : Option EqxSession := b.kpr.sessions.find? (fun s => s.sid == sid)

/-- Erase a session. -/
def dropSession (sid : Nat) (b : Block) : Block := b.onKpr (fun k => { k with sessions := k.sessions.filter (fun s => s.sid != sid) })

/-- Approvals a session needs: the QUORUM of its record. -/
def EqxSession.quorum (s : EqxSession) : Nat := leAt s.record 7 1

/-- A session in QUORUM (R385). -/
def EqxSession.met (s : EqxSession) : Bool := s.quorum ≤ s.approved.length

/-- CMD_DIGEST of a block (R384). -/
def cmdDigest (k : Bytes) : Bytes := sha384 (patch k 8 (zeros 4))

/-- What steps 3 to 5 of R376 decide: refused, and whether the session is erased; or passed, with the session consumed. -/
inductive HsmGate where
  | refused (reason : Nat) (erase : Bool)
  | passed (session : Option EqxSession)
  deriving DecidableEq, Repr

/-- A domain-authority session still stands for this device (R387, R397): on a member its charter names the domain; a device that has left the
domain since does not take it. -/
def sessionStands (b : Block) (s : EqxSession) : Bool :=
  if s.authority ≠ 0x1000 then true
  else if domMember (domRec b) then domainIdOf s.record == domId (domRec b) else !s.member

/-- Steps 3 to 5 of R376 with the session checks of R386. -/
def hsmGate (b : Block) (h : HsmJob) (r : HsmRule) : HsmGate :=
  if r.sender = false then .refused 0x0503 false
  else match r.quorum with
    | none => if bkSession h.block ≠ 0 ∨ r.authOk = false then .refused 0x0504 false else .passed none
    | some required =>
      if r.authOk = false then .refused 0x0504 false
      else match sessionOf b (bkSession h.block) with
        | none => .refused r.whyAuth false
        | some s =>
          if s.expiry ≤ b.time.secs ∨ s.opener ≠ h.req then .refused r.whyAuth false
          else if s.authority ≠ bkAuth h.block ∨ required = false ∨ sessionStands b s = false then .refused r.whyAuth false
          else if s.met = false then .refused r.whyQuorum false
          else if s.cmdDigest ≠ cmdDigest h.block then .refused r.whyQuorum true
          else .passed (some s)

/-! ### Running a command -/

/-- A command that names a session, commits BBRAM or changes the registry or the domain runs alone, in the order read (R376). -/
def runsAlone (k : Bytes) : Bool :=
  let c := bkCommand k
  bkSession k != 0 || [0x11, 0x12, 0x13, 0x20, 0x22, 0x70, 0x71].contains c ||
    (decide (0x30 ≤ c) && decide (c ≤ 0x3B)) || (decide (0x50 ≤ c) && decide (c ≤ 0x69))

/-- What a command asks of the random source before it can run (R369, R372). -/
inductive Randomness where
  /-- Nothing. -/
  | none
  /-- A signature: deterministic while the source is FAILED. -/
  | signs
  /-- A value it cannot do without. -/
  | needed
  deriving DecidableEq, Repr

/-- The keeper serves HSM commands: it runs, and no update or drain has stopped it. -/
def keeperServes (b : Block) : Bool := keeperRuns b && !b.kpr.stopped

/-- The command with an id that the keeper holds and has not begun, with a COMMAND code, when its turn has come. An LCS_ADVANCE that drains the
queues holds back none of the commands read before it stopped them (R85). -/
def hsmReady (b : Block) (code id : Nat) : Option HsmJob :=
  match b.kpr.hsm.find? (fun h => h.id == id) with
  | none => none
  | some h =>
    let before := b.kpr.hsm.takeWhile (fun x => x.id != id)
    if bkCommand h.block = code ∧ h.stage = .waiting ∧ keeperServes b = true ∧
        (runsAlone h.block = false ∨ before.all (fun x => !runsAlone x.block || x.stage == .lcsDrain) = true) then some h
    else none

/-- Its descriptor has ended with its queue (R39). -/
def hsmOrphan (b : Block) (h : HsmJob) : Bool := isFn h.req && (jobOf b h.id).isNone

/-- Run an HSM command: steps 3 to 6 of R376. It waits while the random source it needs starts or tests itself, and ends with
ENGINE_ALARM once that is FAILED (R372). -/
def hsmRun (code id : Nat) (rule : HsmJob → Block → HsmRule) (rnd : HsmJob → Randomness)
    (own : HsmJob → Option EqxSession → Block → Block) (b : Block) : Block :=
  match hsmReady b code id with
  | none => b
  | some h =>
    if hsmOrphan b h then b.onKpr (fun k => { k with hsm := k.hsm.filter (fun x => x.id != id) })
    else match hsmGate b h (rule h b) with
      | .refused reason erase => settleAll (hsmFail h reason 0 (if erase then dropSession (bkSession h.block) b else b))
      | .passed s =>
        if rnd h = .needed ∧ b.rng.state = .failed then settleAll (hsmFinish h stEngineAlarm 0x0601 0 [] b)
        else if rnd h ≠ .none ∧ b.rng.state ≠ .ready ∧ b.rng.state ≠ .failed then b
        else
          let b := match s with
            | some s => dropSession s.sid b
            | none => b
          settleAll (own h s b)

/-- A consumer has waited 10 ms for the self-test of the random source (R372): RNG_FILL, or an HSM command. -/
def rngConsumerTimeout (id : Nat) (b : Block) : Block :=
  if b.rng.state = .selfTest then
    match b.kpr.hsm.find? (fun h => h.id == id && h.stage == .waiting) with
    | some h => settleAll (hsmFinish h stEngineAlarm 0x0601 0 [] b)
    | none => match jobOf b id with
      | some j =>
        if j.stage = .running ∧ dOp j.desc = 0x50 then settleAll (concludeCore id (failWritten b j stEngineAlarm 0x0600 0) b) else b
      | none => b
  else b

/-- RNG_CONSUMER_TIMEOUT (R372). -/
def execRngConsumerTimeout (job : Nat) (s : State) : Host.Outcome State Fault Refusal :=
  .next { s with blk := rngConsumerTimeout job s.blk }

/-! ### Blobs and slots in commands -/

/-- The unwrap engine cannot open a blob or a slot key: the vault is FAILED (R302). -/
def unwrapDead (b : Block) : Bool := b.vlt.failed

/-- Why a named key is not there: the reason and RESULT of HSM_ERROR; or the unwrap engine is out of use (R302). -/
inductive NoKey where
  | refused (reason result : Nat)
  | dead
  deriving DecidableEq, Repr

/-- A command ends for want of a named key. -/
def hsmNoKey (h : HsmJob) (e : NoKey) (b : Block) : Block :=
  match e with
  | .refused r res => hsmFail h r res b
  | .dead => hsmFinish h stEngineAlarm 0x0500 0 [] b

/-- A blob named by a command, judged as the vault judges it (R292 steps 1, 3, 4 and 7), for the requester: the key, or why it did not open, with
`why` as the reason and the status as RESULT. -/
def commandBlob (b : Block) (why fn : Nat) (world : Bool) (blob : Bytes) : Except NoKey Bytes :=
  match loadChecks b fn world (blob.take 32) with
  | some (st, _) => .error (.refused why st)
  | none =>
    if unwrapDead b then .error .dead
    else match openBlob b blob with
      | some k => .ok k
      | none => .error (.refused why stBlobIntegrity)

/-- The owner KEK of a named blob is held from the command's use of it (R263), once the header has passed. -/
def commandKek (fn : Nat) (world : Bool) (blob : Bytes) (b : Block) : Block :=
  match loadChecks b fn world (blob.take 32) with
  | some _ => b
  | none => if unwrapDead b then b else holdKek (hOwner blob) (hEpoch blob) b

/-- The function behind a requester. -/
def reqFn : Requester → Nat
  | .fn n => n
  | .monitor => 0

/-- A template (R279): well formed, with EPOCH, NONCE_HI and BLOB_ID zero, and no EXPORTABLE on a private key. -/
def templateOk (t : Bytes) : Bool :=
  headerOk t && allZero t 0x12 14 && !(asymType (hType t) && bit (hUsage t) useExportable)

end Sys2Proof.Machine
end

