-- ==== Sys2Proof/Machine/Basic.lean ====
section
/-! DEFINITION. The basic level: locks and leases, the session cipher sub-window, random words (R473 to R487). -/

namespace Sys2Proof.Machine

/-! ### Locks (R474 to R477) -/

/-- The lock of a sub-window: 0 digest, 1 session, 2 RNG. -/
def lockOf (b : Block) (w : Nat) : LegLock := if w = 0 then b.leg.digest else if w = 1 then b.leg.session else b.leg.rng

/-- Change the lock of a sub-window. -/
def onLock (w : Nat) (f : LegLock → LegLock) (b : Block) : Block :=
  b.onLeg (fun l => if w = 0 then { l with digest := f l.digest } else if w = 1 then { l with session := f l.session } else { l with rng := f l.rng })

/-- An access to a sub-window's registers restarts the lease while the lock is held (R475). -/
def renew (w : Nat) (b : Block) : Block :=
  onLock w (fun l => if l.holder.isSome then { l with renewed := b.time.usec } else l) b

/-- The reserved core returns to the scheduler (R479). -/
def returnCore (b : Block) : Block :=
  match b.leg.core with
  | none => b
  | some c =>
    (onCore c (fun u => { u with key := none, state := if u.state = CoreState.basic then (if u.admitted then .idle else .off) else u.state }) b).onLeg
      (fun l => { l with core := none })

/-- The open message of the session sub-window ends without output (R483), its buffers zeroed; the use of its context ends. -/
def legAbort (status detail : Nat) (b : Block) : Block :=
  let slot := b.leg.key.map (·.1)
  let b := legEnd status detail b
  match slot with
  | some s => useEnded s b
  | none => b

/-- What ends with the lock of a sub-window: the digest in register mode, or the session message, and every buffer (R477, steps 1 and 2). -/
def endWindow (w status detail : Nat) (b : Block) : Block :=
  if w = 0 then b.onDge (fun d => { d with rm := d.rm.aborted })
  else if w = 1 then
    returnCore ((legAbort status detail b).onLeg (fun l => { l with input := [], given := [], taken := 0, regs := { l.regs with tag := zeros 16 } }))
  else b

/-- A lease ends without renewal (R477). -/
def leaseEnd (w : Nat) (b : Block) : Block :=
  if (lockOf b w).holder.isSome then
    let b := endWindow w stMessageAbandoned 0 b
    settleAll (event 0x480 w (onLock w (fun l => { l with holder := none, expired := true }) b))
  else b

/-- A sub-window whose unit the variant lacks (R8, R473). -/
def windowAbsent (b : Block) (w : Nat) : Bool := w == 1 && coresOf b.run.variant == 0

/-- A write to a sub-window that needs its lock: ignored with NOT_HELD while the lock is free (R476); reserved bits are counted either way (R13). -/
def legWrite (w resv : Nat) (v : Word) (f : Block → Block) (b : Block) : Block :=
  pf0Write 0 v (fun b =>
    if windowAbsent b w then rsvdWrite b
    else
      let b := if v.toNat &&& resv ≠ 0 then rsvdWrite b else b
      if (lockOf b w).holder.isNone then onLock w (fun l => { l with notHeld := true }) b else f (renew w b)) b

/-- What a read of a data register of a sub-window gives: 0 with NOT_HELD while the lock is free. -/
def legData (w : Nat) (f : Block → Nat × Block) (b : Block) : Nat × Block :=
  if windowAbsent b w then (0, b)
  else if (lockOf b w).holder.isNone then (0, onLock w (fun l => { l with notHeld := true }) b)
  else f (renew w b)

/-- A host read of a data register of a sub-window. -/
def legRead (w : Nat) (f : Block → Nat × Block) (b : Block) : Block := pf0Read false (legData w f) b

/-- A write of LOCK (R474). -/
def lockWrite (w : Nat) (v : Word) (b : Block) : Block :=
  pf0Write 0 v (fun b =>
    if windowAbsent b w then rsvdWrite b
    else
      let l := lockOf b w
      if v = 0 ∨ v = 0xFFFFFFFF then onLock w (fun l => { l with busy := true }) b
      else if l.holder = none ∨ l.holder = some v then onLock w (fun l => { l with holder := some v, renewed := b.time.usec }) b
      else onLock w (fun l => { l with busy := true }) b) b

/-- A write of UNLOCK (R474): with an open message it acts as ABORT (R483). -/
def unlockWrite (w : Nat) (v : Word) (b : Block) : Block :=
  pf0Write 0 v (fun b =>
    if windowAbsent b w then rsvdWrite b
    else
      let l := lockOf b w
      if l.holder = some v then
        settleAll (onLock w (fun l => { l with holder := none }) (endWindow w stUnitReset (0x0200 + b.leg.core.getD 0) b))
      else onLock w (fun l => { l with busy := true }) b) b

/-! ### The session cipher sub-window (R479 to R483) -/

/-- The message waits for its core no longer: the core is reserved and tests itself no more. -/
def coreReady (b : Block) : Bool :=
  match b.leg.core with
  | some c => decide ((b.sce.cores[c]?).map (·.state) = some CoreState.basic)
  | none => false

/-- The message as a descriptor, for the checks of R242, R290 and R299. -/
def legDesc (l : BasicSt) : Bytes :=
  let op := l.msg.opcode
  let len := l.msg.aadLen + l.msg.len + (if op = 0x11 then bits l.msg.param 7 0 else 0)
  lePut 1 op ++ lePut 1 (if op = 0x1B then 0x4C else 0x6C) ++ zeros 2 ++ lePut 4 l.msg.handle ++ zeros 24 ++ lePut 8 len ++ lePut 4 l.msg.aadLen ++
    zeros 2 ++ lePut 2 l.msg.param ++ (if op = 0x1B then zeros 16 else l.msg.iv)

/-- The message ends with a status and no zeroing: at START. -/
def legRefuse (status detail : Nat) (b : Block) : Block :=
  b.onLeg (fun l => { l with busy := false, startDue := false, done := true, zeroed := false, result := status, detail := detail })

/-- Payload bytes that the core can process: whole blocks, or all once they have come, as far as the output FIFO of 256 B has room (R481).
Decryption fills its own buffer and CMAC gives no output. -/
def legProcess (l : BasicSt) : Nat :=
  let have_ := l.input.length - l.msg.aadLen
  let n := if l.msg.len ≤ have_ then l.msg.len else 16 * (have_ / 16)
  if l.msg.opcode = 0x10 ∨ l.msg.opcode = 0x18 then min n (if l.msg.len ≤ l.taken + 256 then l.msg.len else 16 * ((l.taken + 256) / 16))
  else if l.msg.opcode = 0x19 then min n (if 16 * (l.msg.len / 16) + 16 ≤ l.taken + 256 then l.msg.len else 16 * ((l.taken + 256) / 16))
  else n

/-- Words that IN_SPACE leaves in the input FIFO of 256 B. -/
def legSpace (l : BasicSt) : Nat :=
  let used := if l.input.length ≤ l.msg.aadLen then 0 else l.input.length - l.msg.aadLen - legProcess l
  (256 - min 256 used) / 4

/-- What the core makes of the first `n` payload bytes; `last` once the message is complete. -/
def legPart (l : BasicSt) (n : Nat) (last : Bool) : PartOut :=
  let key := (l.key.map (·.2.2)).getD []
  cipherPart l.msg.opcode l.msg.param last key (l.input.take l.msg.aadLen) ((l.input.drop l.msg.aadLen).take n) (l.msg.tag.take (bits l.msg.param 7 0))
    (cipherStart l.msg.opcode l.msg.param key (if l.msg.opcode = 0x1B then zeros 16 else l.msg.iv))

/-- A message whose last byte has been processed ends (R481, R482). -/
def legDone (r : PartOut) (b : Block) : Block :=
  let l := b.leg
  let slot := l.key.map (·.1)
  let b := b.onLeg (fun l =>
    if r.ok then
      { l with busy := false, done := true, zeroed := false, result := 0, detail := 0, key := none, input := [], given := r.out,
               regs := { l.regs with tag := if l.msg.opcode = 0x10 ∨ l.msg.opcode = 0x1B then slice r.tag 0 16 else l.regs.tag } }
    else
      { l with busy := false, done := true, zeroed := true, result := stAuthFail, detail := 0, key := none, input := [], given := [], taken := 0,
               regs := { l.regs with tag := zeros 16 } })
  match slot with
  | some s => useEnded s b
  | none => b

/-- The core goes on with what the FIFOs hold. -/
def legRun (b : Block) : Block :=
  let l := b.leg
  if l.busy = false then b
  else
    let n := legProcess l
    if l.msg.aadLen ≤ l.input.length ∧ n = l.msg.len then legDone (legPart l n true) b
    else if l.msg.opcode = 0x11 ∨ l.msg.opcode = 0x1A ∨ l.msg.opcode = 0x1B ∨ l.input.length ≤ l.msg.aadLen then b
    else b.onLeg (fun l => { l with given := (legPart l n false).out })

/-- Start the message on its core (R480): the checks, then the context by handle alone. It waits while the vault tests itself. -/
def legStart (b : Block) : Block :=
  let l := b.leg
  let d := legDesc l
  if l.startDue = false ∨ coreReady b = false then b
  else if [0x10, 0x11, 0x18, 0x19, 0x1A, 0x1B].contains l.msg.opcode = false then legRefuse stInvalidOpcode l.msg.opcode b
  else if isAeadDec l.msg.opcode && dFailMode d != 0 then legRefuse stInvalidField 0x2E b
  else match ownChecks b.run.variant d with
    | some (st, det) => legRefuse st det b
    | none => match resolve b d with
      | .wait => b
      | .refused st det => legRefuse st det b
      | .loading _ | .load => legRefuse stContextNotLoaded l.msg.handle b
      | .hit s =>
        let v := slotAt b s
        if slotSound b s = false then b
        else match useChecks b 0 false d v.header with
        | some (st, det) => legRefuse st det b
        | none =>
          if (l.msg.opcode = 0x11 ∨ l.msg.opcode = 0x1A) ∧ 65536 < l.msg.len then legRefuse stHoldLimit 0 b
          else
            legRun (touch s (b.onLeg (fun l => { l with
              startDue := false, busy := true, done := false, zeroed := false, result := 0, detail := 0, key := some (s, v.gen, ctxKey b s), input := [],
              given := [], taken := 0 })))

/-- A write of LEG_SC_CTRL: OPCODE, START, ABORT (R480, R483). START takes the message from the set-up registers; with a message open it is
ignored (DESIGN CHOICE, assumption 19). -/
def legCtrl (v : Nat) (b : Block) : Block :=
  let b := b.onLeg (fun l => { l with regs := { l.regs with opcode := bits v 7 0 } })
  let b := if bit v 29 then settleAll (legAbort stUnitReset (0x0200 + b.leg.core.getD 0) b) else b
  if bit v 31 && !(b.leg.busy || b.leg.startDue) then legStart (b.onLeg (fun l => { l with startDue := true, done := false, msg := l.regs })) else b

/-- A word written to LEG_SC_DATA_IN (R481): too many words, or one while IN_SPACE is 0, end the message with LENGTH_MISMATCH. -/
def legDataIn (v : Word) (b : Block) : Block :=
  let l := b.leg
  let total := l.msg.aadLen + l.msg.len
  if l.busy = false ∧ (l.done = false ∨ l.result ≠ 0) then b
  else if l.busy = false ∨ total ≤ l.input.length ∨ legSpace l = 0 then
    settleAll (legAbort stLengthMismatch 0 (b.onLeg (fun l => { l with busy := true })))
  else settleAll (legRun (b.onLeg (fun l => { l with input := l.input ++ lePut (min 4 (total - l.input.length)) v.toNat })))

/-- Output words readable: whole words while the message is open, the last word's bytes too once it has ended. -/
def legAvail (l : BasicSt) : Nat :=
  let left := l.given.length - l.taken
  if l.busy then left / 4 else ceilDiv left 4

/-- A read of LEG_SC_DATA_OUT (R481): the next output word, 0 when OUT_AVAIL is 0. -/
def legDataOut (b : Block) : Nat × Block :=
  let l := b.leg
  if legAvail l = 0 then (0, b)
  else (leAt l.given l.taken 4, legRun (b.onLeg (fun l => { l with taken := l.taken + min 4 (l.given.length - l.taken) })))

/-- The scheduler reserves a core for the session lock, once the core's one-descriptor part has ended; a START that waited goes on. A core
without power tests itself first. -/
def reserveCore (b : Block) : Block :=
  if b.leg.session.holder.isNone ∨ b.leg.core.isSome then b
  else match basicCore b with
    | none => b
    | some n =>
      match b.sce.cores[n]? with
      | none => b
      | some c =>
        if c.job.isSome then b
        else
          let st := if c.state = CoreState.idle then CoreState.basic else .selfTest
          legStart ((onCore n (fun u => { u with state := st, key := none }) b).onLeg (fun l => { l with core := some n }))

/-- A word of LEG_RNG_DATA (R484). -/
def legRng (b : Block) : Nat × Block :=
  if b.rng.state = .ready then
    let p := draw0 4 b
    (leNat p.1, p.2.onRng (fun r => { r with bytes := (r.bytes + 4) % 2 ^ 64 }))
  else (0, b)

/-! ### The commands -/

/-- LEG_LOCK (R474). -/
def execLegLock (window : Nat) (value : Word) (s : State) : Host.Outcome State Fault Refusal := .next { s with blk := lockWrite window value s.blk }
/-- LEG_UNLOCK (R474). -/
def execLegUnlock (window : Nat) (value : Word) (s : State) : Host.Outcome State Fault Refusal :=
  .next { s with blk := unlockWrite window value s.blk }
/-- LEASE_EXPIRY (R477). -/
def execLeaseExpiry (window : Nat) (s : State) : Host.Outcome State Fault Refusal := .next { s with blk := leaseEnd window s.blk }
/-- BASIC_CORE_RESERVED (R479). -/
def execBasicCoreReserved (s : State) : Host.Outcome State Fault Refusal := .next { s with blk := reserveCore s.blk }
/-- LEG_SC_START (R480). -/
def execLegScStart (value : Word) (s : State) : Host.Outcome State Fault Refusal :=
  .next { s with blk := legWrite 1 0x5FFFFF00 value (legCtrl (value.toNat ||| 2 ^ 31)) s.blk }
/-- LEG_SC_ABORT (R483). -/
def execLegScAbort (value : Word) (s : State) : Host.Outcome State Fault Refusal :=
  .next { s with blk := legWrite 1 0x5FFFFF00 value (legCtrl (value.toNat ||| 2 ^ 29)) s.blk }
/-- LEG_SC_DATA_IN_WRITE (R481). -/
def execLegScDataInWrite (value : Word) (s : State) : Host.Outcome State Fault Refusal :=
  .next { s with blk := legWrite 1 0 value (legDataIn value) s.blk }
/-- LEG_SC_DATA_OUT_READ (R481). -/
def execLegScDataOutRead (s : State) : Host.Outcome State Fault Refusal := .next { s with blk := legRead 1 legDataOut s.blk }
/-- LEG_RNG_DATA_READ (R484). -/
def execLegRngDataRead (s : State) : Host.Outcome State Fault Refusal := .next { s with blk := legRead 2 legRng s.blk }

end Sys2Proof.Machine
end

