-- ==== Sys2Proof/Machine/Ec.lean ====
section
/-! DEFINITION. Elliptic curves, Edwards25519 and RSA (R361, R366): FIPS 186-5, SP 800-56A, RFC 6979, RFC 8032, RFC 8017. -/

namespace Sys2Proof.Machine

/-! ### Arithmetic -/

/-- `a ^ e` mod `m`, over the lowest `n` bits of `e`. -/
def powModBits (a e m : Nat) : Nat → Nat
  | 0 => 1 % m
  | n + 1 =>
    let h := powModBits a (e / 2) m n
    let s := h * h % m
    if e % 2 = 1 then s * a % m else s

/-- `a ^ e` mod `m`. -/
def powMod (a e m : Nat) : Nat := powModBits (a % m) e m (Nat.log2 e + 1)

/-- The inverse of `a` modulo a prime. -/
def invMod (a p : Nat) : Nat := powMod a (p - 2) p

/-- `a - b` mod `m`. -/
def subMod (a b m : Nat) : Nat := (a % m + (m - b % m)) % m

/-! ### Curves y² = x³ - 3x + b (FIPS 186-5, SP 800-186) -/

/-- A prime curve: field, coefficient b, order, base point, bytes of a field element. -/
structure Curve where
  p   : Nat
  b   : Nat
  n   : Nat
  gx  : Nat
  gy  : Nat
  len : Nat

/-- P-256. -/
def p256 : Curve :=
  { p := 2 ^ 256 - 2 ^ 224 + 2 ^ 192 + 2 ^ 96 - 1
    b := 0x5AC635D8AA3A93E7B3EBBD55769886BC651D06B0CC53B0F63BCE3C3E27D2604B
    n := 0xFFFFFFFF00000000FFFFFFFFFFFFFFFFBCE6FAADA7179E84F3B9CAC2FC632551
    gx := 0x6B17D1F2E12C4247F8BCE6E563A440F277037D812DEB33A0F4A13945D898C296
    gy := 0x4FE342E2FE1A7F9B8EE7EB4A7C0F9E162BCE33576B315ECECBB6406837BF51F5
    len := 32 }

/-- P-384. -/
def p384 : Curve :=
  { p := 2 ^ 384 - 2 ^ 128 - 2 ^ 96 + 2 ^ 32 - 1
    b := 0xB3312FA7E23EE7E4988E056BE3F82D19181D9C6EFE8141120314088F5013875AC656398D8A2ED19D2A85C8EDD3EC2AEF
    n := 0xFFFFFFFFFFFFFFFFFFFFFFFFFFFFFFFFFFFFFFFFFFFFFFFFC7634D81F4372DDF581A0DB248B0A77AECEC196ACCC52973
    gx := 0xAA87CA22BE8B05378EB1C71EF320AD746E1D3B628BA79B9859F741E082542A385502F25DBF55296C3A545E3872760AB7
    gy := 0x3617DE4A96262C6F5D9E98BF9292DC29F8F41DBD289A147CE9DA3113B5F0B8C00A60B1CE1D7E819D7A431D7C90EA0E5F
    len := 48 }

/-- Sum of two points; none is the identity. -/
def ecAdd (c : Curve) : Option (Nat × Nat) → Option (Nat × Nat) → Option (Nat × Nat)
  | none, q => q
  | p, none => p
  | some (x1, y1), some (x2, y2) =>
    if x1 = x2 ∧ (y1 + y2) % c.p = 0 then none
    else
      let l := if x1 = x2 then (3 * x1 * x1 + (c.p - 3)) % c.p * invMod (2 * y1 % c.p) c.p % c.p
        else subMod y2 y1 c.p * invMod (subMod x2 x1 c.p) c.p % c.p
      let x3 := subMod (l * l) (x1 + x2) c.p
      some (x3, subMod (l * subMod x1 x3 c.p) y1 c.p)

/-- A multiple of a point, over the lowest `n` bits of the scalar. -/
def ecMulBits (c : Curve) (k : Nat) (q : Option (Nat × Nat)) : Nat → Option (Nat × Nat)
  | 0 => none
  | n + 1 =>
    let h := ecMulBits c (k / 2) q n
    let d := ecAdd c h h
    if k % 2 = 1 then ecAdd c d q else d

/-- A multiple of a point. -/
def ecMul (c : Curve) (k : Nat) (q : Option (Nat × Nat)) : Option (Nat × Nat) := ecMulBits c k q (8 * c.len)

/-- The base point. -/
def Curve.base (c : Curve) : Option (Nat × Nat) := some (c.gx, c.gy)

/-- 0x04 ‖ X ‖ Y (R361). -/
def pointBytes (c : Curve) : Option (Nat × Nat) → Bytes
  | some (x, y) => [0x04] ++ bePut c.len x ++ bePut c.len y
  | none => zeros (2 * c.len + 1)

/-- A point from its bytes, fully validated (R366): coordinates below p, on the curve; the cofactor is 1. -/
def pointOf (c : Curve) (bs : Bytes) : Option (Nat × Nat) :=
  let x := beAt bs 1 c.len
  let y := beAt bs (1 + c.len) c.len
  if bs.length = 2 * c.len + 1 ∧ byteAt bs 0 = 0x04 ∧ x < c.p ∧ y < c.p ∧
      y * y % c.p = (x * x % c.p * x + (c.p - 3) * x + c.b) % c.p then some (x, y) else none

/-- A scalar from random or derived bytes, with 64 bits more than the order (FIPS 186-5 A.2.1, R156). -/
def scalarFrom (c : Curve) (seed : Bytes) : Nat := beNat seed % (c.n - 1) + 1

/-- The integer that a hash stands for: its leftmost bits. -/
def hashNat (c : Curve) (h : Bytes) : Nat := beNat (h.take c.len)

/-- An ECDSA signature with a given k: r ‖ s. -/
def ecdsaSignWith (c : Curve) (d k : Nat) (h : Bytes) : Bytes :=
  let r := (match ecMul c k c.base with | some (x, _) => x | none => 0) % c.n
  let s := invMod k c.n * (hashNat c h + r * d) % c.n
  bePut c.len r ++ bePut c.len s

/-- The next candidate for k of RFC 6979, with the state after it. -/
def detNext (c : Curve) (alg : Nat) (key v : Bytes) : Nat × Bytes :=
  let v1 := hmac alg key v
  if c.len ≤ v1.length then (beNat (v1.take c.len), v1)
  else
    let v2 := hmac alg key v1
    (beNat ((v1 ++ v2).take c.len), v2)

/-- Candidates are tried until one is in range. -/
def detSearch (c : Curve) (alg : Nat) : Nat → Bytes → Bytes → Nat
  | 0, _, _ => 1
  | n + 1, key, v =>
    let p := detNext c alg key v
    if 1 ≤ p.1 ∧ p.1 < c.n then p.1
    else
      let key := hmac alg key (p.2 ++ [0x00])
      detSearch c alg n key (hmac alg key p.2)

/-- k of RFC 6979 for a private key and a hash of HASH code `hash`. -/
def detK (c : Curve) (hash d : Nat) (h : Bytes) : Nat :=
  let alg := 0x10 + hash
  let n := (algLen hash).getD 0
  let x := bePut c.len d ++ bePut c.len (hashNat c h % c.n)
  let v0 := List.replicate n (0x01 : Byte)
  let k1 := hmac alg (zeros n) (v0 ++ [0x00] ++ x)
  let v1 := hmac alg k1 v0
  let k2 := hmac alg k1 (v1 ++ [0x01] ++ x)
  detSearch c alg 64 k2 (hmac alg k2 v1)

/-- ECDSA verification. -/
def ecdsaVerify (c : Curve) (pub h sig : Bytes) : Bool :=
  let r := beAt sig 0 c.len
  let s := beAt sig c.len c.len
  match pointOf c pub with
  | none => false
  | some q =>
    if r = 0 ∨ c.n ≤ r ∨ s = 0 ∨ c.n ≤ s then false
    else
      let w := invMod s c.n
      match ecAdd c (ecMul c (hashNat c h * w % c.n) c.base) (ecMul c (r * w % c.n) (some q)) with
      | some (x, _) => x % c.n == r
      | none => false

/-- Z of an ECDH agreement: the x coordinate. -/
def ecdh (c : Curve) (d : Nat) (peer : Bytes) : Bytes :=
  match (pointOf c peer).bind (fun q => ecMul c d (some q)) with
  | some (x, _) => bePut c.len x
  | none => zeros c.len

/-! ### Ed25519 (RFC 8032) -/

/-- The field prime of Edwards25519. -/
def edP : Nat := 2 ^ 255 - 19

/-- The order of the base point. -/
def edL : Nat := 2 ^ 252 + 27742317777372353535851937790883648493

/-- The curve constant d. -/
def edD : Nat := (edP - 121665) * invMod 121666 edP % edP

/-- Sum of two points. -/
def edAdd (a b : Nat × Nat) : Nat × Nat :=
  let m := edD * (a.1 * b.1 % edP) % edP * (a.2 * b.2 % edP) % edP
  ((a.1 * b.2 + a.2 * b.1) % edP * invMod (1 + m) edP % edP,
   (a.2 * b.2 + a.1 * b.1) % edP * invMod (subMod 1 m edP) edP % edP)

/-- A multiple of a point, over the lowest `n` bits of the scalar. -/
def edMulBits (k : Nat) (q : Nat × Nat) : Nat → Nat × Nat
  | 0 => (0, 1)
  | n + 1 =>
    let h := edMulBits (k / 2) q n
    let d := edAdd h h
    if k % 2 = 1 then edAdd d q else d

/-- A multiple of a point. -/
def edMul (k : Nat) (q : Nat × Nat) : Nat × Nat := edMulBits k q 256

/-- The encoding of a point: y, with the low bit of x above it. -/
def edBytes (q : Nat × Nat) : Bytes := lePut 32 (q.2 + q.1 % 2 * 2 ^ 255)

/-- A point from its canonical encoding. -/
def edPoint (bs : Bytes) : Option (Nat × Nat) :=
  let v := leAt bs 0 32
  let y := v % 2 ^ 255
  let sign := v / 2 ^ 255
  let u := subMod (y * y) 1 edP
  let w := (edD * (y * y % edP) + 1) % edP
  let x2 := u * invMod w edP % edP
  let r := powMod x2 ((edP + 3) / 8) edP
  let x := if r * r % edP = x2 then r else r * powMod 2 ((edP - 1) / 4) edP % edP
  if bs.length ≠ 32 ∨ edP ≤ y ∨ x * x % edP ≠ x2 ∨ (x = 0 ∧ sign = 1) then none
  else some (if x % 2 = sign then x else edP - x, y)

/-- The base point. -/
def edBase : Nat × Nat := (edPoint (lePut 32 (4 * invMod 5 edP % edP))).getD (0, 1)

/-- The secret scalar of a seed. -/
def edScalar (seed : Bytes) : Nat :=
  let h := leAt (sha512 seed) 0 32
  h % 2 ^ 254 / 8 * 8 + 2 ^ 254

/-- The public key of a seed. -/
def edPublic (seed : Bytes) : Bytes := edBytes (edMul (edScalar seed) edBase)

/-- An Ed25519 signature. -/
def edSign (seed m : Bytes) : Bytes :=
  let a := edScalar seed
  let r := leNat (sha512 ((sha512 seed).drop 32 ++ m)) % edL
  let rb := edBytes (edMul r edBase)
  let k := leNat (sha512 (rb ++ edPublic seed ++ m)) % edL
  rb ++ lePut 32 ((r + k * a) % edL)

/-- R of a signature is canonical and S is below L (R366). -/
def edSigOk (sig : Bytes) : Bool := (edPoint (sig.take 32)).isSome && decide (leAt sig 32 32 < edL)

/-- Ed25519 verification, without cofactor (R366). -/
def edVerify (pub m sig : Bytes) : Bool :=
  match edPoint pub, edPoint (sig.take 32) with
  | some a, some r =>
    let k := leNat (sha512 (sig.take 32 ++ pub ++ m)) % edL
    edSigOk sig && edMul (leAt sig 32 32) edBase == edAdd r (edMul k a)
  | _, _ => false

/-! ### RSA verification (RFC 8017) -/

/-- The modulus bytes k, n and e of a public key item (R361). -/
def rsaParts (pub : Bytes) : Nat × Nat × Nat :=
  let k := leAt pub 0 4
  (k, beAt pub 8 k, beAt pub (8 + k) 4)

/-- The public key is valid (R366): n odd with a non-zero top byte, e odd, 3 ≤ e < n. -/
def rsaValid (pub : Bytes) : Bool :=
  let (k, n, e) := rsaParts pub
  decide (n % 2 = 1) && decide (2 ^ (8 * (k - 1)) ≤ n) && decide (e % 2 = 1) && decide (3 ≤ e) && decide (e < n)

/-- The last byte of the object identifier of a hash. -/
def hashOid (hash : Nat) : Byte := if hash ≤ 3 then BitVec.ofNat 8 hash else BitVec.ofNat 8 (hash + 4)

/-- EMSA-PKCS1-v1_5 of a hash. -/
def pkcs1Encode (hash k : Nat) (h : Bytes) : Bytes :=
  let info : Bytes := [0x30, BitVec.ofNat 8 (17 + h.length), 0x30, 0x0D, 0x06, 0x09, 0x60, 0x86, 0x48, 0x01, 0x65, 0x03, 0x04, 0x02,
    hashOid hash, 0x05, 0x00, 0x04, BitVec.ofNat 8 h.length] ++ h
  [0x00, 0x01] ++ List.replicate (k - info.length - 3) 0xFF ++ [0x00] ++ info

/-- MGF1. -/
def mgf1 (hash : Nat) (seed : Bytes) (n : Nat) : Bytes :=
  let hl := (algLen hash).getD 1
  ((List.range (ceilDiv n hl)).flatMap (fun i => digest hash (seed ++ bePut 4 i) hl)).take n

/-- EMSA-PSS verification with any salt length. -/
def pssVerify (hash bitsEm : Nat) (h em : Bytes) : Bool :=
  let hl := h.length
  let emLen := ceilDiv bitsEm 8
  let em := em.drop (em.length - emLen)
  let masked := em.take (emLen - hl - 1)
  let hh := slice em (emLen - hl - 1) hl
  let top := 8 * emLen - bitsEm
  let db := xorBytes masked (mgf1 hash hh masked.length)
  let db := match db with
    | x :: rest => BitVec.ofNat 8 (x.toNat % 2 ^ (8 - top)) :: rest
    | [] => []
  let tail := db.dropWhile (· == 0)
  decide (hl + 2 ≤ emLen) && em.getLast? == some 0xBC && decide ((byteAt masked 0).toNat < 2 ^ (8 - top)) &&
    tail.head? == some 0x01 && digest hash (zeros 8 ++ h ++ tail.drop 1) hl == hh

/-- RSA verification of a hash: PKCS#1 v1.5 or PSS. -/
def rsaVerify (pss : Bool) (hash : Nat) (pub h sig : Bytes) : Bool :=
  let (k, n, e) := rsaParts pub
  let s := beNat sig
  if n ≤ s then false
  else
    let em := bePut k (powMod s e n)
    if pss then
      let bitsEm := Nat.log2 n
      allZero em 0 (k - ceilDiv bitsEm 8) && pssVerify hash bitsEm h em
    else em == pkcs1Encode hash k h

end Sys2Proof.Machine
end

