-- ==== Sys2Proof/Machine/Lms.lean ====
section
/-! DEFINITION. Verification of LMS-HSS signatures (R361, SP 800-208, RFC 8554): LMS_SHA256_M32, LMOTS_SHA256_N32. -/

namespace Sys2Proof.Machine

/-- Tree height of an LMS type: H 5, 10, 15, 20, 25. -/
def lmsHeight : Nat → Option Nat
  | 5 => some 5
  | 6 => some 10
  | 7 => some 15
  | 8 => some 20
  | 9 => some 25
  | _ => none

/-- Of an LM-OTS type: width, number of chains, shift of the checksum. -/
def lmotsSet : Nat → Option (Nat × Nat × Nat)
  | 1 => some (1, 265, 7)
  | 2 => some (2, 133, 6)
  | 3 => some (4, 67, 4)
  | 4 => some (8, 34, 0)
  | _ => none

/-- The `w`-bit digits of a string, most significant first. -/
def lmsDigits (w : Nat) (s : Bytes) : List Nat :=
  s.flatMap (fun b => (List.range (8 / w)).map (fun i => b.toNat / 2 ^ (8 - w * (i + 1)) % 2 ^ w))

/-- Steps `j` to the end of chain `i`, `n` of them. -/
def lmotsChain (pre : Bytes) (i : Nat) : Nat → Nat → Bytes → Bytes
  | 0, _, t => t
  | n + 1, j, t => lmotsChain pre i n (j + 1) (sha256 (pre ++ bePut 2 i ++ [BitVec.ofNat 8 j] ++ t))

/-- The LM-OTS public key that a signature leads to. -/
def lmotsKey (w p ls : Nat) (pre c y m : Bytes) : Bytes :=
  let q := sha256 (pre ++ [0x81, 0x81] ++ c ++ m)
  let sum := ((lmsDigits w q).map (fun d => 2 ^ w - 1 - d)).sum
  let digits := lmsDigits w (q ++ bePut 2 (sum * 2 ^ ls))
  let z := (List.range p).map (fun i =>
    let a := digits.getD i 0
    lmotsChain pre i (2 ^ w - 1 - a) a (slice y (32 * i) 32))
  sha256 (pre ++ [0x80, 0x80] ++ z.flatten)

/-- The root that a leaf and its path lead to. -/
def lmsClimb (id : Bytes) : List Bytes → Nat → Bytes → Bytes
  | [], _, t => t
  | s :: rest, node, t =>
    lmsClimb id rest (node / 2)
      (sha256 (id ++ bePut 4 (node / 2) ++ [0x83, 0x83] ++ (if node % 2 = 1 then s ++ t else t ++ s)))

/-- Length of an LMS signature that starts a string, when its types are known. -/
def lmsSigLen (sig : Bytes) : Option Nat :=
  match lmotsSet (beAt sig 4 4) with
  | none => none
  | some (_, p, _) =>
    let o := 8 + 32 * (p + 1)
    (lmsHeight (beAt sig o 4)).map (fun h => o + 4 + 32 * h)

/-- An LMS signature of exact length over a message, under a 56-byte LMS public key. -/
def lmsOk (pub m sig : Bytes) : Bool :=
  match lmotsSet (beAt sig 4 4), lmsSigLen sig, lmsHeight (beAt pub 0 4) with
  | some (w, p, ls), some n, some h =>
    let q := beAt sig 0 4
    let id := slice pub 8 16
    let o := 8 + 32 * (p + 1)
    if sig.length = n ∧ beAt sig o 4 = beAt pub 0 4 ∧ beAt sig 4 4 = beAt pub 4 4 ∧ q < 2 ^ h then
      let pre := id ++ bePut 4 q
      let k := lmotsKey w p ls pre (slice sig 8 32) (slice sig 40 (32 * p)) m
      let leaf := sha256 (id ++ bePut 4 (2 ^ h + q) ++ [0x82, 0x82] ++ k)
      lmsClimb id ((List.range h).map (fun i => slice sig (o + 4 + 32 * i) 32)) (2 ^ h + q) leaf == slice pub 24 32
    else false
  | _, _, _ => false

/-- The levels of an HSS signature below a public key. -/
def hssLevels (m : Bytes) : Nat → Bytes → Bytes → Bool
  | 0, pub, sig => lmsOk pub m sig
  | n + 1, pub, sig =>
    match lmsSigLen sig with
    | none => false
    | some l => lmsOk pub (slice sig l 56) (sig.take l) && hssLevels m n (slice sig l 56) (sig.drop (l + 56))

/-- HSS verification under a 60-byte public key: L from 1 to 8. -/
def hssVerify (pub m sig : Bytes) : Bool :=
  let l := beAt pub 0 4
  pub.length == 60 && decide (1 ≤ l) && decide (l ≤ 8) && beAt sig 0 4 == l - 1 && hssLevels m (l - 1) (pub.drop 4) (sig.drop 4)

/-- Length of the levels of an HSS signature, `n` signed keys and a last signature, when their types are known. -/
def hssLevelsLen : Nat → Bytes → Option Nat
  | 0, sig => lmsSigLen sig
  | n + 1, sig =>
    match lmsSigLen sig with
    | none => none
    | some l => (hssLevelsLen n (sig.drop (l + 56))).map (· + l + 56)

/-- The length that an HSS signature's own parameters give it. -/
def hssLen (sig : Bytes) : Option Nat :=
  if beAt sig 0 4 ≤ 7 then (hssLevelsLen (beAt sig 0 4) (sig.drop 4)).map (· + 4) else none

/-- A well-formed HSS public key. -/
def hssValid (pub : Bytes) : Bool :=
  pub.length == 60 && decide (1 ≤ beAt pub 0 4) && decide (beAt pub 0 4 ≤ 8) && (lmsHeight (beAt pub 4 4)).isSome &&
    (lmotsSet (beAt pub 8 4)).isSome

end Sys2Proof.Machine
end

