-- ==== Sys2Proof/Machine/Mlkem.lean ====
section
/-! DEFINITION. ML-KEM-768 and ML-KEM-1024 (R361, FIPS 203). Polynomials are lists of 256 coefficients. -/

namespace Sys2Proof.Machine

/-! ### Shared by the lattice schemes -/

/-- A polynomial, or a vector of them. -/
abbrev Poly := List Nat

/-- Coefficient-wise sum mod `q`. -/
def polyAdd (q : Nat) (f g : Poly) : Poly := List.zipWith (fun a b => (a + b) % q) f g

/-- Coefficient-wise difference mod `q`. -/
def polySub (q : Nat) (f g : Poly) : Poly := List.zipWith (fun a b => (a + q - b) % q) f g

/-- Bits of a number, `n` of them, lowest first. -/
def natBits (v : Nat) : Nat → List Bool
  | 0 => []
  | n + 1 => (v % 2 == 1) :: natBits (v / 2) n

/-- The number that bits stand for, lowest first. -/
def bitsNat : List Bool → Nat
  | [] => 0
  | b :: r => (if b then 1 else 0) + 2 * bitsNat r

/-- `n` bits reversed. -/
def bitRev (n v : Nat) : Nat := bitsNat (natBits v n).reverse

/-- Coefficients of `d` bits each, packed lowest bit first. -/
def packBits (d : Nat) (f : List Nat) : Bytes := lePut (f.length * d / 8) ((f.foldr (fun c acc => acc * 2 ^ d + c % 2 ^ d) 0))

/-- `n` coefficients of `d` bits each from the number of a byte string. -/
def splitNat (d v : Nat) : Nat → List Nat
  | 0 => []
  | n + 1 => v % 2 ^ d :: splitNat d (v / 2 ^ d) n

/-- 256 coefficients of `d` bits each. -/
def unpackBits (d : Nat) (bs : Bytes) : Poly := splitNat d (leNat (bs.take (32 * d))) 256

/-- A number-theoretic transform by halves, `n` layers; `z k` is the factor at node `k`. -/
def nttBy (q : Nat) (z : Nat → Nat) : Nat → Nat → Poly → Poly
  | 0, _, f => f
  | n + 1, k, f =>
    let h := f.length / 2
    let a := f.take h
    let t := (f.drop h).map (fun x => x * z k % q)
    nttBy q z n (2 * k) (polyAdd q a t) ++ nttBy q z n (2 * k + 1) (polySub q a t)

/-- The inverse of `nttBy`, but for a factor 2 at every layer; `zi k` is the inverse of the factor. -/
def inttBy (q : Nat) (zi : Nat → Nat) : Nat → Nat → Poly → Poly
  | 0, _, f => f
  | n + 1, k, f =>
    let h := f.length / 2
    let a := inttBy q zi n (2 * k) (f.take h)
    let b := inttBy q zi n (2 * k + 1) (f.drop h)
    polyAdd q a b ++ (polySub q a b).map (fun x => x * zi k % q)

/-- Powers by repeated multiplication. -/
def powTable (q z : Nat) : Nat → Nat → List Nat
  | 0, _ => []
  | n + 1, x => x :: powTable q z n (x * z % q)

/-- Candidates of three bytes each. -/
def triples : Bytes → List (Nat × Nat × Nat)
  | a :: b :: c :: rest => (a.toNat, b.toNat, c.toNat) :: triples rest
  | _ => []

/-! ### ML-KEM -/

/-- The modulus. -/
def kemQ : Nat := 3329

/-- Powers of 17, a 256th root of unity. -/
def kemPows : List Nat := powTable kemQ 17 256 1

/-- A power of 17. -/
def kemZeta (e : Nat) : Nat := kemPows.getD (e % 256) 0

/-- The transform. -/
def kemNtt (f : Poly) : Poly := nttBy kemQ (fun k => kemZeta (bitRev 7 k)) 7 1 f

/-- The inverse transform. -/
def kemIntt (f : Poly) : Poly := (inttBy kemQ (fun k => kemZeta (256 - bitRev 7 k)) 7 1 f).map (fun x => x * 3303 % kemQ)

/-- Products of the 128 pairs. -/
def kemPairs : Nat → Poly → Poly → Poly
  | i, a0 :: a1 :: f, b0 :: b1 :: g =>
    (a0 * b0 + a1 * b1 % kemQ * kemZeta (2 * bitRev 7 i + 1)) % kemQ :: (a0 * b1 + a1 * b0) % kemQ :: kemPairs (i + 1) f g
  | _, _, _ => []

/-- Product of two transforms. -/
def kemMul (f g : Poly) : Poly := kemPairs 0 f g

/-- The zero polynomial. -/
def polyZero : Poly := List.replicate 256 0

/-- Inner product of transforms. -/
def kemDot (f g : List Poly) : Poly := (List.zipWith kemMul f g).foldl (polyAdd kemQ) polyZero

/-- SampleNTT: a uniform transform from a seed and two indices. -/
def kemSample (rho : Bytes) (i j : Nat) : Poly :=
  let cands := (triples (shake 168 (rho ++ [BitVec.ofNat 8 i, BitVec.ofNat 8 j]) 840)).flatMap (fun t =>
    [t.1 + 256 * (t.2.1 % 16), t.2.1 / 16 + 16 * t.2.2])
  ((cands.filter (· < kemQ)) ++ polyZero).take 256

/-- SamplePolyCBD with eta 2: each coefficient from 4 bits. -/
def kemCbd (bs : Bytes) : Poly :=
  (unpackBits 4 bs).map (fun v => (v % 2 + v / 2 % 2 + kemQ - v / 4 % 2 - v / 8) % kemQ)

/-- A noise polynomial from a seed and a counter. -/
def kemNoise (seed : Bytes) (n : Nat) : Poly := kemCbd (shake 136 (seed ++ [BitVec.ofNat 8 n]) 128)

/-- Compress to `d` bits, rounding half up. -/
def kemCompress (d : Nat) (f : Poly) : Poly := f.map (fun x => (x * 2 ^ (d + 1) + kemQ) / (2 * kemQ) % 2 ^ d)

/-- Decompress from `d` bits. -/
def kemDecompress (d : Nat) (f : Poly) : Poly := f.map (fun y => (y * kemQ * 2 + 2 ^ d) / 2 ^ (d + 1))

/-- The matrix of a seed: row `i`, column `j` from rho ‖ j ‖ i. -/
def kemMatrix (k : Nat) (rho : Bytes) : List (List Poly) :=
  (List.range k).map (fun i => (List.range k).map (fun j => kemSample rho j i))

/-- Dimension k of a parameter set (ASET 0x18, 0x19). -/
def kemK (aset : Nat) : Nat := if aset = 0x19 then 4 else 3

/-- Compression widths du and dv. -/
def kemDu (aset : Nat) : Nat := if aset = 0x19 then 11 else 10
def kemDv (aset : Nat) : Nat := if aset = 0x19 then 5 else 4

/-- The secret vector and the encapsulation key of a seed d. -/
def kemKeys (aset : Nat) (d : Bytes) : List Poly × Bytes :=
  let k := kemK aset
  let g := sha3 64 (d ++ [BitVec.ofNat 8 k])
  let rho := g.take 32
  let sigma := g.drop 32
  let s := (List.range k).map (fun i => kemNtt (kemNoise sigma i))
  let e := (List.range k).map (fun i => kemNtt (kemNoise sigma (k + i)))
  let t := List.zipWith (fun row e => polyAdd kemQ (kemDot row s) e) (kemMatrix k rho) e
  (s, t.flatMap (packBits 12) ++ rho)

/-- The encapsulation key of a seed d ‖ z. -/
def kemPublic (aset : Nat) (seed : Bytes) : Bytes := (kemKeys aset (seed.take 32)).2

/-- The modulus check of an encapsulation key. -/
def kemValid (aset : Nat) (ek : Bytes) : Bool :=
  ek.length == 384 * kemK aset + 32 &&
    (List.range (kemK aset)).all (fun i => (unpackBits 12 (ek.drop (384 * i))).all (· < kemQ))

/-- K-PKE.Encrypt. -/
def kemEncrypt (aset : Nat) (ek m r : Bytes) : Bytes :=
  let k := kemK aset
  let t := (List.range k).map (fun i => unpackBits 12 (ek.drop (384 * i)))
  let a := kemMatrix k (ek.drop (384 * k))
  let y := (List.range k).map (fun i => kemNtt (kemNoise r i))
  let u := (List.range k).map (fun i =>
    polyAdd kemQ (kemIntt (kemDot (a.map (fun row => row.getD i polyZero)) y)) (kemNoise r (k + i)))
  let mu := kemDecompress 1 (unpackBits 1 m)
  let v := polyAdd kemQ (polyAdd kemQ (kemIntt (kemDot t y)) (kemNoise r (2 * k))) mu
  u.flatMap (fun f => packBits (kemDu aset) (kemCompress (kemDu aset) f)) ++ packBits (kemDv aset) (kemCompress (kemDv aset) v)

/-- K-PKE.Decrypt. -/
def kemDecrypt (aset : Nat) (s : List Poly) (ct : Bytes) : Bytes :=
  let k := kemK aset
  let du := kemDu aset
  let u := (List.range k).map (fun i => kemDecompress du (unpackBits du (ct.drop (32 * du * i))))
  let v := kemDecompress (kemDv aset) (unpackBits (kemDv aset) (ct.drop (32 * du * k)))
  packBits 1 (kemCompress 1 (polySub kemQ v (kemIntt (kemDot s (u.map kemNtt)))))

/-- ML-KEM.Encaps_internal: the shared key and the ciphertext. -/
def mlkemEncaps (aset : Nat) (ek m : Bytes) : Bytes × Bytes :=
  let g := sha3 64 (m ++ sha3 32 ek)
  (g.take 32, kemEncrypt aset ek m (g.drop 32))

/-- ML-KEM.Decaps_internal with the key of a seed d ‖ z. -/
def mlkemDecaps (aset : Nat) (seed ct : Bytes) : Bytes :=
  let keys := kemKeys aset (seed.take 32)
  let m := kemDecrypt aset keys.1 ct
  let g := sha3 64 (m ++ sha3 32 keys.2)
  if kemEncrypt aset keys.2 m (g.drop 32) = ct then g.take 32 else shake 136 (seed.drop 32 ++ ct) 32

end Sys2Proof.Machine
end

