-- ==== Sys2Proof/Machine/Mldsa.lean ====
section
/-! DEFINITION. ML-DSA-44, -65 and -87, pure (R361, FIPS 204). -/

namespace Sys2Proof.Machine

/-- The modulus. -/
def dsaQ : Nat := 8380417

/-- A parameter set. -/
structure DsaSet where
  k     : Nat
  l     : Nat
  eta   : Nat
  tau   : Nat
  ctLen : Nat
  g1    : Nat
  g2    : Nat
  omega : Nat

/-- The parameter set of an ASET (0x10 to 0x12). -/
def dsaSet (aset : Nat) : DsaSet :=
  if aset = 0x10 then { k := 4, l := 4, eta := 2, tau := 39, ctLen := 32, g1 := 2 ^ 17, g2 := (dsaQ - 1) / 88, omega := 80 }
  else if aset = 0x11 then { k := 6, l := 5, eta := 4, tau := 49, ctLen := 48, g1 := 2 ^ 19, g2 := (dsaQ - 1) / 32, omega := 55 }
  else { k := 8, l := 7, eta := 2, tau := 60, ctLen := 64, g1 := 2 ^ 19, g2 := (dsaQ - 1) / 32, omega := 75 }

/-- Bits of a coefficient of y and z. -/
def DsaSet.zBits (s : DsaSet) : Nat := if s.g1 = 2 ^ 17 then 18 else 20

/-- Bits of a coefficient of w1. -/
def DsaSet.w1Bits (s : DsaSet) : Nat := if s.g2 = (dsaQ - 1) / 88 then 6 else 4

/-- The bound beta. -/
def DsaSet.beta (s : DsaSet) : Nat := s.tau * s.eta

/-! ### Arithmetic -/

/-- Powers of 1753, a 512th root of unity. -/
def dsaPows : List Nat := powTable dsaQ 1753 512 1

/-- A power of 1753. -/
def dsaZeta (e : Nat) : Nat := dsaPows.getD (e % 512) 0

/-- Factors of the transform by node. -/
def dsaZetas : List Nat := (List.range 256).map (fun k => dsaZeta (bitRev 8 k))

/-- Inverse factors by node. -/
def dsaInvs : List Nat := (List.range 256).map (fun k => dsaZeta (512 - bitRev 8 k))

/-- The transform. -/
def dsaNtt (f : Poly) : Poly := nttBy dsaQ (fun k => dsaZetas.getD k 0) 8 1 f

/-- The inverse transform. -/
def dsaIntt (f : Poly) : Poly := (inttBy dsaQ (fun k => dsaInvs.getD k 0) 8 1 f).map (fun x => x * 8347681 % dsaQ)

/-- Product of two transforms. -/
def dsaMul (f g : Poly) : Poly := List.zipWith (fun a b => a * b % dsaQ) f g

/-- Inner product of transforms. -/
def dsaDot (f g : List Poly) : Poly := (List.zipWith dsaMul f g).foldl (polyAdd dsaQ) polyZero

/-- The signed representative of a coefficient. -/
def dsaCentre (x : Nat) : Int := if x ≤ (dsaQ - 1) / 2 then (x : Int) else (x : Int) - dsaQ

/-- A signed number as a coefficient. -/
def dsaOf (x : Int) : Nat := (x % (dsaQ : Int)).toNat

/-- The largest absolute value of the coefficients of some polynomials. -/
def dsaNorm (fs : List Poly) : Nat := (fs.flatten.map (fun x => (dsaCentre x).natAbs)).foldl max 0

/-- Power2Round: high and low parts. -/
def power2Round (x : Nat) : Nat × Int :=
  let r := (x % 2 ^ 13 : Nat)
  let r0 : Int := if r ≤ 2 ^ 12 then (r : Int) else (r : Int) - 2 ^ 13
  (((x : Int) - r0).toNat / 2 ^ 13, r0)

/-- Decompose: high and low parts. -/
def dsaDecompose (g2 x : Nat) : Nat × Int :=
  let r := x % (2 * g2)
  let r0 : Int := if r ≤ g2 then (r : Int) else (r : Int) - (2 * g2 : Nat)
  if (x : Int) - r0 = (dsaQ - 1 : Nat) then (0, r0 - 1) else (((x : Int) - r0).toNat / (2 * g2), r0)

/-- UseHint on one coefficient. -/
def useHint (g2 h r : Nat) : Nat :=
  let m := (dsaQ - 1) / (2 * g2)
  let (r1, r0) := dsaDecompose g2 r
  if h = 0 then r1 else if 0 < r0 then (r1 + 1) % m else (r1 + m - 1) % m

/-- Coefficients in [-(2^d - 1 - b) .. b], stored as b minus the coefficient. -/
def packSigned (d b : Nat) (f : Poly) : Bytes := packBits d (f.map (fun x => ((b : Int) - dsaCentre x).toNat))

/-- The inverse of `packSigned`. -/
def unpackSigned (d b : Nat) (bs : Bytes) : Poly := (unpackBits d bs).map (fun v => dsaOf ((b : Int) - v))

/-! ### Sampling -/

/-- RejNTTPoly. -/
def dsaUniform (rho : Bytes) (s r : Nat) : Poly :=
  let cands := (triples (shake 168 (rho ++ [BitVec.ofNat 8 s, BitVec.ofNat 8 r]) 1008)).map (fun t =>
    t.1 + 2 ^ 8 * t.2.1 + 2 ^ 16 * (t.2.2 % 128))
  ((cands.filter (· < dsaQ)) ++ polyZero).take 256

/-- ExpandA: row `r`, column `s`. -/
def dsaMatrix (p : DsaSet) (rho : Bytes) : List (List Poly) :=
  (List.range p.k).map (fun r => (List.range p.l).map (fun s => dsaUniform rho s r))

/-- RejBoundedPoly. -/
def dsaBounded (eta : Nat) (seed : Bytes) (n : Nat) : Poly :=
  let cands := (shake 136 (seed ++ lePut 2 n) 544).flatMap (fun z => [z.toNat % 16, z.toNat / 16])
  let keep := if eta = 2 then (cands.filter (· < 15)).map (fun z => dsaOf (2 - (z % 5 : Nat)))
    else (cands.filter (· < 9)).map (fun z => dsaOf (4 - (z : Int)))
  (keep ++ polyZero).take 256

/-- ExpandMask: the vector y. -/
def dsaMask (p : DsaSet) (seed : Bytes) (kappa : Nat) : List Poly :=
  (List.range p.l).map (fun r => unpackSigned p.zBits p.g1 (shake 136 (seed ++ lePut 2 (kappa + r)) (32 * p.zBits)))

/-- SampleInBall over the positions still to fill: each takes the next byte that is no larger. -/
def ballStep (signs : Nat) : Nat → Nat → Bytes → List Int → List Int
  | 0, _, _, c => c
  | _, _, [], c => c
  | n + 1, i, b :: rest, c =>
    if i < b.toNat then ballStep signs (n + 1) i rest c
    else
      let s : Int := if signs % 2 = 1 then -1 else 1
      ballStep (signs / 2) n (i + 1) rest ((c.set i (c.getD b.toNat 0)).set b.toNat s)

/-- SampleInBall. -/
def dsaBall (tau : Nat) (seed : Bytes) : Poly :=
  let bs := shake 136 seed 680
  (ballStep (leAt bs 0 8) tau (256 - tau) (bs.drop 8) (List.replicate 256 0)).map dsaOf

/-! ### Keys -/

/-- The parts of a private key that a seed gives. -/
structure DsaKey where
  rho : Bytes
  k   : Bytes
  tr  : Bytes
  s1  : List Poly
  s2  : List Poly
  t0  : List Poly
  pk  : Bytes

/-- ML-DSA.KeyGen_internal. -/
def dsaKeys (aset : Nat) (xi : Bytes) : DsaKey :=
  let p := dsaSet aset
  let g := shake 136 (xi ++ [BitVec.ofNat 8 p.k, BitVec.ofNat 8 p.l]) 128
  let rho := g.take 32
  let rho' := slice g 32 64
  let s1 := (List.range p.l).map (dsaBounded p.eta rho')
  let s2 := (List.range p.k).map (fun r => dsaBounded p.eta rho' (p.l + r))
  let s1h := s1.map dsaNtt
  let t := List.zipWith (fun row s => polyAdd dsaQ (dsaIntt (dsaDot row s1h)) s) (dsaMatrix p rho) s2
  let pk := rho ++ t.flatMap (fun f => packBits 10 (f.map (fun x => (power2Round x).1)))
  { rho := rho, k := g.drop 96, tr := shake 136 pk 64, s1 := s1, s2 := s2
    t0 := t.map (fun f => f.map (fun x => dsaOf (power2Round x).2)), pk := pk }

/-- The public key of a seed. -/
def dsaPublic (aset : Nat) (xi : Bytes) : Bytes := (dsaKeys aset xi).pk

/-! ### Signing -/

/-- The hint: positions of the ones of each polynomial, then their running counts. -/
def packHint (p : DsaSet) (h : List (List Nat)) : Bytes :=
  let pos := h.map (fun f => (List.range 256).filter (fun i => f.getD i 0 == 1))
  let all := pos.flatten
  let ends := (List.range p.k).map (fun i => ((pos.take (i + 1)).flatten).length)
  (all ++ List.replicate (p.omega - all.length) 0 ++ ends).map (BitVec.ofNat 8)

/-- One try of the signing loop: a signature, or nothing. -/
def dsaTry (p : DsaSet) (key : DsaKey) (a : List (List Poly)) (mu mask : Bytes) (kappa : Nat) : Option Bytes :=
  let y := dsaMask p mask kappa
  let yh := y.map dsaNtt
  let w := a.map (fun row => dsaIntt (dsaDot row yh))
  let w1 := w.flatMap (fun f => packBits p.w1Bits (f.map (fun x => (dsaDecompose p.g2 x).1)))
  let ct := shake 136 (mu ++ w1) p.ctLen
  let c := dsaNtt (dsaBall p.tau ct)
  let times (s : List Poly) : List Poly := s.map (fun f => dsaIntt (dsaMul c (dsaNtt f)))
  let z := List.zipWith (polyAdd dsaQ) y (times key.s1)
  let r := List.zipWith (polySub dsaQ) w (times key.s2)
  let r0 := r.map (fun f => f.map (fun x => dsaOf (dsaDecompose p.g2 x).2))
  if p.g1 - p.beta ≤ dsaNorm z ∨ p.g2 - p.beta ≤ dsaNorm r0 then none
  else
    let ct0 := times key.t0
    let h := List.zipWith (fun f g => List.zipWith (fun x t =>
      if (dsaDecompose p.g2 x).1 = (dsaDecompose p.g2 ((x + t) % dsaQ)).1 then 0 else 1) f g) r ct0
    if p.g2 ≤ dsaNorm ct0 ∨ p.omega < h.flatten.sum then none
    else some (ct ++ z.flatMap (packSigned p.zBits p.g1) ++ packHint p h)

/-- The signing loop, `n` tries at most. -/
def dsaLoop (p : DsaSet) (key : DsaKey) (a : List (List Poly)) (mu mask : Bytes) : Nat → Nat → Bytes
  | 0, _ => []
  | n + 1, kappa => match dsaTry p key a mu mask kappa with
    | some s => s
    | none => dsaLoop p key a mu mask n (kappa + p.l)

/-- The message with its context, as pure ML-DSA hashes it. -/
def dsaMessage (ctx m : Bytes) : Bytes := [0x00, BitVec.ofNat 8 ctx.length] ++ ctx ++ m

/-- A signature with 32 random bytes (zeros: deterministic); the loop stops after the 814 tries of FIPS 204 appendix C. -/
def dsaSign (aset : Nat) (xi ctx m rnd : Bytes) : Bytes :=
  let p := dsaSet aset
  let key := dsaKeys aset xi
  let mu := shake 136 (key.tr ++ dsaMessage ctx m) 64
  dsaLoop p key (dsaMatrix p key.rho) mu (shake 136 (key.k ++ rnd ++ mu) 64) 814 0

/-! ### Verification -/

/-- Indices strictly rising. -/
def rising : List Nat → Bool
  | a :: b :: r => decide (a < b) && rising (b :: r)
  | _ => true

/-- HintBitUnpack: none where the encoding is malformed. -/
def unpackHint (p : DsaSet) (bs : Bytes) : Option (List Poly) :=
  let v := bs.map (·.toNat)
  let pos := v.take p.omega
  let ends := 0 :: v.drop p.omega
  let part (i : Nat) : List Nat := (pos.take (ends.getD (i + 1) 0)).drop (ends.getD i 0)
  let total := ends.getLast?.getD 0
  if (List.range p.k).all (fun i => decide (ends.getD i 0 ≤ ends.getD (i + 1) 0)) && decide (total ≤ p.omega) &&
      (List.range p.k).all (fun i => rising (part i)) && (pos.drop total).all (· == 0) then
    some ((List.range p.k).map (fun i => (List.range 256).map (fun x => if (part i).contains x then 1 else 0)))
  else none

/-- ML-DSA verification. -/
def dsaVerify (aset : Nat) (pk ctx m sig : Bytes) : Bool :=
  let p := dsaSet aset
  let rho := pk.take 32
  let t1 := (List.range p.k).map (fun i => unpackBits 10 (pk.drop (32 + 320 * i)))
  let ct := sig.take p.ctLen
  let zLen := 32 * p.zBits
  let z := (List.range p.l).map (fun i => unpackSigned p.zBits p.g1 (sig.drop (p.ctLen + zLen * i)))
  match unpackHint p (sig.drop (p.ctLen + zLen * p.l)) with
  | none => false
  | some h =>
    let mu := shake 136 (shake 136 pk 64 ++ dsaMessage ctx m) 64
    let c := dsaNtt (dsaBall p.tau ct)
    let zh := z.map dsaNtt
    let w := List.zipWith (fun row t =>
      dsaIntt (polySub dsaQ (dsaDot row zh) (dsaMul c (dsaNtt (t.map (fun x => x * 2 ^ 13 % dsaQ)))))) (dsaMatrix p rho) t1
    let w1 := (List.zipWith (fun f g => packBits p.w1Bits (List.zipWith (useHint p.g2) f g)) h w).flatten
    decide (dsaNorm z < p.g1 - p.beta) && shake 136 (mu ++ w1) p.ctLen == ct

end Sys2Proof.Machine
end

