-- ==== Sys2Proof/Machine/Pk.lean ====
section
/-! DEFINITION. The public-key schemes the engine supports (R361, R365, R366): parameter sets, sizes, the operations on keys. -/

namespace Sys2Proof.Machine

/-- The ASET of an asymmetric KEY_TYPE (R267, R361). -/
def asetOf : Nat → Option Nat
  | 0x10 => some 0x01
  | 0x11 => some 0x02
  | 0x12 => some 0x03
  | 0x13 => some 0x04
  | 0x14 => some 0x05
  | 0x18 => some 0x10
  | 0x19 => some 0x11
  | 0x1A => some 0x12
  | 0x1C => some 0x18
  | 0x1D => some 0x19
  | _ => none

/-- Public key sizes (R361); the RSA key is of variable length. -/
def pubLen : Nat → Nat
  | 0x01 | 0x04 => 65
  | 0x02 | 0x05 => 97
  | 0x03 => 32
  | 0x10 => 1312
  | 0x11 => 1952
  | 0x12 => 2592
  | 0x18 => 1184
  | 0x19 => 1568
  | 0x20 => 60
  | _ => 0

/-- Signature sizes, and ciphertext sizes of ML-KEM (R361); variable ones are 0 here. -/
def sigLen : Nat → Nat
  | 0x01 | 0x03 => 64
  | 0x02 => 96
  | 0x10 => 2420
  | 0x11 => 3309
  | 0x12 => 4627
  | 0x18 => 1088
  | 0x19 => 1568
  | _ => 0

/-- Length of a shared secret. -/
def secretLen (aset : Nat) : Nat := if aset = 0x05 then 48 else 32

/-- Length of a private key or seed. -/
def privLen : Nat → Nat
  | 0x02 | 0x05 => 48
  | 0x18 | 0x19 => 64
  | _ => 32

/-- A set of the lattice unit (R360). -/
def onLattice (aset : Nat) : Bool := decide (0x10 ≤ aset)

/-- ECDSA. -/
def isEcdsa (aset : Nat) : Bool := aset == 1 || aset == 2

/-- ECDH. -/
def isEcdh (aset : Nat) : Bool := aset == 4 || aset == 5

/-- RSA. -/
def isRsa (aset : Nat) : Bool := aset == 8 || aset == 9

/-- ML-DSA. -/
def isMldsa (aset : Nat) : Bool := decide (0x10 ≤ aset) && decide (aset ≤ 0x12)

/-- The curve of an ECDSA or ECDH set. -/
def curveOf (aset : Nat) : Curve := if aset = 0x01 ∨ aset = 0x04 then p256 else p384

/-- The public key of a private key or seed. -/
def pkPublic (aset : Nat) (priv : Bytes) : Bytes :=
  if isEcdsa aset || isEcdh aset then pointBytes (curveOf aset) (ecMul (curveOf aset) (beNat priv) (curveOf aset).base)
  else if aset = 0x03 then edPublic priv
  else if isMldsa aset then dsaPublic aset priv
  else kemPublic aset priv

/-- Random bytes that a private key is made from. -/
def privSeedLen (aset : Nat) : Nat := if isEcdsa aset || isEcdh aset then privLen aset + 8 else privLen aset

/-- A private key from random or derived bytes (R156: FIPS 186-5 A.2.1 for a scalar). -/
def pkPriv (aset : Nat) (seed : Bytes) : Bytes :=
  if isEcdsa aset || isEcdh aset then bePut (privLen aset) (scalarFrom (curveOf aset) seed) else seed

/-- Random bytes that a signature takes: ECDSA for k, ML-DSA for rnd (R365). -/
def signRndLen (aset : Nat) : Nat := if isEcdsa aset then privLen aset + 8 else if isMldsa aset then 32 else 0

/-- The hash that a signature is over: the message item itself with PREHASH. -/
def hashedMsg (prehash : Bool) (hash : Nat) (msg : Bytes) : Bytes :=
  if prehash then msg else digest hash msg ((algLen hash).getD 0)

/-- A signature. `rnd` empty: deterministic, by RFC 6979 or with rnd of zeros (R365). -/
def pkSign (aset : Nat) (priv : Bytes) (prehash : Bool) (hash : Nat) (ctx msg rnd : Bytes) : Bytes :=
  if isEcdsa aset then
    let c := curveOf aset
    let h := hashedMsg prehash hash msg
    ecdsaSignWith c (beNat priv) (if rnd.isEmpty then detK c hash (beNat priv) h else scalarFrom c rnd) h
  else if aset = 0x03 then edSign priv msg
  else dsaSign aset priv ctx msg (slice rnd 0 32)

/-- A public input is valid under R366. -/
def pkValid (aset : Nat) (pub : Bytes) : Bool :=
  if isEcdsa aset || isEcdh aset then (pointOf (curveOf aset) pub).isSome
  else if aset = 0x03 then (edPoint pub).isSome
  else if isRsa aset then rsaValid pub
  else if isMldsa aset then pub.length == pubLen aset
  else if aset = 0x20 then hssValid pub
  else kemValid aset pub

/-- A signature that R366 rejects as malformed: Ed25519 with a non-canonical R, or S not below L. -/
def pkSigValid (aset : Nat) (sig : Bytes) : Bool := aset != 0x03 || edSigOk sig

/-- A signature verifies. -/
def pkVerify (aset : Nat) (pub : Bytes) (prehash : Bool) (hash : Nat) (ctx msg sig : Bytes) : Bool :=
  if isEcdsa aset then ecdsaVerify (curveOf aset) pub (hashedMsg prehash hash msg) sig
  else if aset = 0x03 then edVerify pub msg sig
  else if isRsa aset then rsaVerify (aset == 9) hash pub (hashedMsg prehash hash msg) sig
  else if isMldsa aset then dsaVerify aset pub ctx msg sig
  else hssVerify pub msg sig

/-- Z of an agreement. -/
def pkAgree (aset : Nat) (priv peer : Bytes) : Bytes := ecdh (curveOf aset) (beNat priv) peer

/-- K and ct of an encapsulation with 32 random bytes. -/
def kemEncaps (aset : Nat) (ek m : Bytes) : Bytes × Bytes := mlkemEncaps aset ek m

/-- K of a decapsulation, implicit rejection included. -/
def kemDecaps (aset : Nat) (seed ct : Bytes) : Bytes := mlkemDecaps aset seed ct

end Sys2Proof.Machine
end

