-- ==== Sys2Proof/Machine/Cbor.lean ====
section
/-! DEFINITION. CBOR (RFC 8949, deterministic), and the COSE_Sign1 envelope of records, statements, offers and packages (R163). -/

namespace Sys2Proof.Machine

/-- A CBOR item. A map lists key, value, key, value. -/
inductive Cbor where
  | uint (n : Nat)
  /-- The negative integer -1 - n. -/
  | neg (n : Nat)
  | bytes (bs : Bytes)
  | text (bs : Bytes)
  | array (xs : List Cbor)
  | map (kvs : List Cbor)
  | tag (n : Nat) (x : Cbor)
  | bool (b : Bool)
  | null

/-- The head of an item: major type, argument in its shortest form. -/
def cborHead (major n : Nat) : Bytes :=
  let m := 32 * major
  if n < 24 then [BitVec.ofNat 8 (m + n)]
  else if n < 2 ^ 8 then BitVec.ofNat 8 (m + 24) :: bePut 1 n
  else if n < 2 ^ 16 then BitVec.ofNat 8 (m + 25) :: bePut 2 n
  else if n < 2 ^ 32 then BitVec.ofNat 8 (m + 26) :: bePut 4 n
  else BitVec.ofNat 8 (m + 27) :: bePut 8 n

mutual

/-- The encoding of an item. -/
def cborPut : Cbor → Bytes
  | .uint n => cborHead 0 n
  | .neg n => cborHead 1 n
  | .bytes bs => cborHead 2 bs.length ++ bs
  | .text bs => cborHead 3 bs.length ++ bs
  | .array xs => cborHead 4 xs.length ++ cborPuts xs
  | .map kvs => cborHead 5 (kvs.length / 2) ++ cborPuts kvs
  | .tag n x => cborHead 6 n ++ cborPut x
  | .bool b => [if b then 0xF5 else 0xF4]
  | .null => [0xF6]

/-- The encodings of items, one after the other. -/
def cborPuts : List Cbor → Bytes
  | [] => []
  | x :: xs => cborPut x ++ cborPuts xs

end

/-- Major type and argument of a head, with the rest. -/
def cborArg : Bytes → Option (Nat × Nat × Bytes)
  | [] => none
  | b :: rest =>
    let major := b.toNat / 32
    let a := b.toNat % 32
    let n := if a < 24 then 0 else if a = 24 then 1 else if a = 25 then 2 else if a = 26 then 4 else 8
    if 27 < a ∨ rest.length < n then none
    else some (major, if a < 24 then a else beNat (rest.take n), rest.drop n)

/-- Items in order, `n` of them, each read by `f`. -/
def cborMany (f : Bytes → Option (Cbor × Bytes)) : Nat → Bytes → Option (List Cbor × Bytes)
  | 0, bs => some ([], bs)
  | n + 1, bs =>
    match f bs with
    | none => none
    | some (x, rest) => (cborMany f n rest).map (fun p => (x :: p.1, p.2))

/-- Read one item, nested at most as deep as the fuel. -/
def cborGet : Nat → Bytes → Option (Cbor × Bytes)
  | 0, _ => none
  | fuel + 1, bs =>
    match cborArg bs with
    | none => none
    | some (major, n, rest) =>
      let string (f : Bytes → Cbor) : Option (Cbor × Bytes) := if n ≤ rest.length then some (f (rest.take n), rest.drop n) else none
      match major with
      | 0 => some (.uint n, rest)
      | 1 => some (.neg n, rest)
      | 2 => string .bytes
      | 3 => string .text
      | 4 => if n ≤ rest.length then (cborMany (cborGet fuel) n rest).map (fun p => (.array p.1, p.2)) else none
      | 5 => if 2 * n ≤ rest.length then (cborMany (cborGet fuel) (2 * n) rest).map (fun p => (.map p.1, p.2)) else none
      | 6 => (cborGet fuel rest).map (fun p => (.tag n p.1, p.2))
      | _ => if n = 20 then some (.bool false, rest) else if n = 21 then some (.bool true, rest)
        else if n = 22 then some (.null, rest) else none

/-- The item a byte string is, when it is one item in the deterministic form and nothing else. -/
def cborParse (bs : Bytes) : Option Cbor :=
  match cborGet 8 bs with
  | some (x, []) => if cborPut x = bs then some x else none
  | _ => none

/-- The value under an unsigned key of a map. -/
def Cbor.key (m : Cbor) (k : Nat) : Option Cbor :=
  match m with
  | .map kvs => go kvs
  | _ => none
where
  go : List Cbor → Option Cbor
    | .uint n :: v :: rest => if n = k then some v else go rest
    | _ :: _ :: rest => go rest
    | _ => none

/-- An unsigned integer. -/
def Cbor.nat? : Cbor → Option Nat
  | .uint n => some n
  | _ => none

/-- A byte string. -/
def Cbor.bytes? : Cbor → Option Bytes
  | .bytes bs => some bs
  | _ => none

/-- A map from unsigned keys, in the order given. -/
def cborMap (kvs : List (Nat × Cbor)) : Cbor := .map (kvs.flatMap (fun p => [.uint p.1, p.2]))

/-! ### The envelope (R163) -/

/-- kid: the first 16 bytes of SHA-384 of both Alias public keys (R163). -/
def kidOf (pubs : Bytes) : Bytes := (sha384 pubs).take 16

/-- The protected header. -/
def coseProtected (kid : Bytes) : Bytes := cborPut (.map [.uint 1, .neg 65600, .uint 3, .uint 61, .uint 4, .bytes kid])

/-- The Sig_structure of RFC 9052. -/
def coseToSign (prot payload : Bytes) : Bytes :=
  cborPut (.array [.text (ascii "Signature1"), .bytes prot, .bytes [], .bytes payload])

/-- The COSE_Sign1 encoding, tag 18. -/
def coseSign1 (prot payload sig : Bytes) : Bytes :=
  cborPut (.tag 18 (.array [.bytes prot, .map [], .bytes payload, .bytes sig]))

/-- Protected header, payload and signature of a COSE_Sign1 encoding. -/
def coseParse (bs : Bytes) : Option (Bytes × Bytes × Bytes) :=
  match cborParse bs with
  | some (.tag 18 (.array [.bytes prot, .map [], .bytes payload, .bytes sig])) => some (prot, payload, sig)
  | _ => none

/-- The hybrid signature of R163 verifies under an ECDSA P-384 and an ML-DSA-65 public key. -/
def hybridVerify (ecPub dsaPub msg sig : Bytes) : Bool :=
  sig.length == 3405 && pkValid 0x02 ecPub && pkVerify 0x02 ecPub false 0x02 [] msg (sig.take 96) &&
    pkVerify 0x11 dsaPub false 0 [] msg (sig.drop 96)

/-- The payload of a COSE_Sign1 that verifies under a pair of Alias public keys: ECDSA P-384 (97 bytes), then ML-DSA-65. -/
def coseOpen (pk bs : Bytes) : Option Bytes :=
  match coseParse bs with
  | some (prot, payload, sig) =>
    if prot = coseProtected (kidOf pk) ∧ hybridVerify (pk.take 97) (pk.drop 97) (coseToSign prot payload) sig = true then some payload
    else none
  | none => none

end Sys2Proof.Machine
end

