-- ==== Sys2Proof/Machine/Units.lean ====
section
/-! DEFINITION. Units: engine alarms, self-tests, quiesce, unit resets, pool sums (R21, R38, R302, R318, R319, R346, R347, R455 to
R459). -/

namespace Sys2Proof.Machine

/-- The engines work: neither in a chip reset nor in FROZEN. -/
def unitsRun (b : Block) : Bool := b.run.state != .reset && b.run.state != .frozen

/-! ### Pools (R36, R38) -/

/-- The pools whose sums do not match: 0 credits, 1 vault slots, 2 parked messages, 3 staging, 4 completions. -/
def badPools (b : Block) : List Nat :=
  let credits := b.q.cqs.all (fun c => !c.2.active || decide (heldOf b c.1 ≤ c.2.size))
  let slots := decide (freeCount b + b.vlt.slots.countP (fun s => decide (s.2.state ≠ SlotState.free)) = slotsOf b.run.variant)
  let parked := decide (parkedCount b ≤ parkedOf b.run.variant)
  let staging := decide (stagingHeld b ≤ holdAccountOf b.run.variant) && decide (imageHeld b ≤ imageShareOf b.run.variant) &&
    decide (stagingHeld b + imageHeld b ≤ stagingPoolOf b.run.variant)
  let done := b.q.sqs.all (fun s => decide (s.2.state = SqState.free) ||
    decide (s.2.held = s.2.reading + (jobsOf b s.1).length + (cqOf b s.2.cq).owners.countP (fun o => o == some s.1)))
  (if credits then [] else [0]) ++ (if slots then [] else [1]) ++ (if parked then [] else [2]) ++ (if staging then [] else [3]) ++
    (if done then [] else [4])

/-- The keeper checks the sums: each that does not match is an internal consistency alarm (R38). -/
def checkPools (b : Block) : Block := (badPools b).foldl (fun b n => stampAlarm (event 0x440 n b)) b

/-! ### What a unit holds when it stops -/

/-- Change a public-key unit. -/
def onPk (u : UnitId) (f : PkUnit → PkUnit) (b : Block) : Block :=
  b.onPke (fun p => if u = UnitId.pkLat then { p with lat := f p.lat } else { p with mod := f p.mod })

/-- A public-key unit. -/
def pkAt (b : Block) (u : UnitId) : PkUnit := if u = UnitId.pkLat then b.pke.lat else b.pke.mod

/-- The DETAIL of a unit (R252). -/
def unitDetail : UnitId → Nat
  | .lane n => 0x0100 + n
  | .core n => 0x0200 + n
  | .pipe n => 0x0300 + n
  | .pkMod => 0x0400
  | .pkLat => 0x0401
  | .vault => 0x0500
  | .rng => 0x0600

/-- A lane loses what it runs: the descriptor ends with a status, then the assigned one goes back, both banks are erased (R318, R319). -/
def stopLane (n progress status : Nat) (b : Block) : Block :=
  let b := match (laneAt b n).running with
    | some id => failOnUnit id progress status (unitDetail (.lane n)) 0 b
    | none => b
  let b := laneGiveBack n b
  onLane n (fun l => { l with running := none, bank := none, spare := none }) b

/-- Where a lane that is asked to quiesce for a reset stops: the next data-unit boundary after what its descriptor has issued (R319). -/
def unitBoundary (b : Block) (n progress : Nat) : Nat :=
  match (laneAt b n).running.bind (jobOf b) with
  | some j =>
    let u := 2 ^ bits (dParam j.desc) 4 0
    min (dLen j.desc) (u * ceilDiv (max progress j.wrote) u)
  | none => progress

/-- A core loses the part it runs, which ends its message with zeroing (R346, R347). The core keeps the part until its entry is written. -/
def stopPart (n progress status : Nat) (b : Block) : Block :=
  let b := match (b.sce.cores[n]?).bind (·.job) with
    | some id => failOnUnit id progress status (unitDetail (.core n)) 0 b
    | none => b
  onCore n (fun c => { c with key := none }) b

/-- A pipeline loses the descriptor it runs; pipeline 1, the digest of register mode (R456). -/
def stopPipe (n progress status : Nat) (b : Block) : Block :=
  if n = 1 then b.onDge (fun d => { d with rm := d.rm.aborted })
  else
    let b := match (b.dge.pipes[n]?).bind (·.job) with
      | some id => failOnUnit id progress status (unitDetail (.pipe n)) 0 b
      | none => b
    onPipe n (fun p => { p with job := none }) b

/-- The class 1 command that a public-key unit runs ends with a status (R367, R456). -/
def stopPk (u : UnitId) (status : Nat) (b : Block) : Block :=
  let b := match (pkAt b u).running.bind (fun id => b.kpr.hsm.find? (fun h => h.id == id)) with
    | some h => hsmFinish h status (unitDetail u) 0 [] b
    | none => b
  onPk u (fun p => { p with running := none }) b

/-- Loads end with a status (R300, R302): those in flight, and those that wait for one or for a place. -/
def stopAllLoads (status : Nat) (b : Block) : Block :=
  stopLoads (fun j => match j.stage with
    | .blobRead | .placeWait | .loadWait _ | .loadQueue | .unwrap _ => true
    | _ => false) status (unitDetail .vault) b

/-- The loads in flight alone end with a status; what waits for them goes on under R294 (R302). -/
def stopFlight (status : Nat) (b : Block) : Block :=
  stopLoads (fun j => match j.stage with
    | .blobRead | .placeWait | .unwrap _ => true
    | _ => false) status (unitDetail .vault) b

/-- A message with a part running, or its first part about to run, is to be abandoned once that part ends (R338, R457). -/
def doomRunning (m : Msg) : Msg :=
  match m.state with
  | .running _ | .opening => { m with doomed := true }
  | _ => m

/-- A vault reset (R456, R457): loads end, every context is erased, open messages are abandoned once their running part ends. -/
def stopVault (b : Block) : Block :=
  let b := eraseWhere (fun _ => true) (stopAllLoads stUnitReset b)
  abandonWhere (fun _ => true) (b.onSce (fun s => { s with msgs := s.msgs.map doomRunning }))

/-- RNG_FILL descriptors end with a status; both instances are uninstantiated (R373, R456). -/
def stopRng (status : Nat) (b : Block) : Block :=
  let ids := (b.work.jobs.filter (fun j => dOp j.desc == 0x50 && onUnit j.stage)).map (·.id)
  let b := ids.foldl (fun b id => failOnUnit id 0 status (unitDetail .rng) 0 b) b
  b.onRng (fun r => { r with inst0 := false, inst1 := false })

/-! ### Self-tests -/

/-- A unit starts its self-test, unless it is FAILED. -/
def startSelfTest (u : UnitId) (b : Block) : Block :=
  match u with
  | .lane n => onLane n (fun l => if l.state = .failed then l else { l with state := .selfTest }) b
  | .core n => onCore n (fun c => if c.state = .failed then c else { c with state := .selfTest }) b
  | .pipe n => onPipe n (fun p => if p.failed then p else { p with selfTest := true }) b
  | .pkMod | .pkLat => onPk u (fun p => if p.state = .failed then p else { p with state := .selfTest }) b
  | .vault => b.onVlt (fun v => if v.failed then v else { v with selfTest := true })
  | .rng => b.onRng (fun r => if r.state = .failed then r else { r with state := .selfTest, selfTests := r.selfTests + 1 })

/-- Class 1 jobs may start: JT-H48B, which has no units to withdraw, paces them (R461). -/
def pkPace (b : Block) : Bool := decide (b.run.variant ≠ .jtH48B) || paceOpen b

/-- The first job of a public-key unit's queue starts, class 0 first, in arrival order (R360). -/
def pkNext (u : UnitId) (b : Block) : Block :=
  let open_ := pkPace b
  onPk u (fun p =>
    if p.state = .idle ∧ p.running = none then
      match (p.queue.filter (fun q => q.2 == 0) ++ p.queue.filter (fun q => q.2 != 0 && open_)).head? with
      | some q => { p with state := .busy, running := some q.1, queue := p.queue.filter (fun x => x != q) }
      | none => p
    else p) b

/-- A unit is FAILED until chip reset: what waits for it alone ends with ENGINE_ALARM. -/
def pkFailed (u : UnitId) (b : Block) : Block :=
  let ids := (pkAt b u).queue.map (·.1)
  let b := onPk u (fun p => { p with queue := [] }) b
  ids.foldl (fun b id => match b.kpr.hsm.find? (fun h => h.id == id) with
    | some h => hsmFinish h stEngineAlarm (unitDetail u) 0 [] b
    | none => b) b

/-- A self-test has passed: the unit takes work again. A withdrawn lane or core goes OFF; the core that the basic level holds serves it. -/
def testPassed (u : UnitId) (b : Block) : Block :=
  match u with
  | .lane n => onLane n (fun l => { l with fails := 0, state := if l.admitted then .idle else .off }) b
  | .core n =>
    legStart (onCore n (fun c => { c with
      fails := 0, state := if b.leg.core = some n then .basic else if c.admitted then .idle else .off }) b)
  | .pipe n => onPipe n (fun p => { p with fails := 0, selfTest := false }) b
  | .pkMod | .pkLat => pkNext u (onPk u (fun p => { p with fails := 0, state := .idle }) b)
  | .vault => resumeResolves (b.onVlt (fun v => { v with fails := 0, selfTest := false }))
  | .rng => b

/-- A self-test has failed: it runs again, and a third failure in a row makes the unit FAILED until chip reset (R318, R346, R458). -/
def testFailed (u : UnitId) (b : Block) : Block :=
  match u with
  | .lane n => onLane n (fun l =>
      if 2 ≤ l.fails then { l with fails := 3, state := .failed, admitted := false } else { l with fails := l.fails + 1 }) b
  | .core n =>
    let lost := (b.sce.cores[n]?).any (fun c => decide (2 ≤ c.fails))
    let b := onCore n (fun c =>
      if 2 ≤ c.fails then { c with fails := 3, state := .failed, admitted := false } else { c with fails := c.fails + 1 }) b
    if lost && b.leg.core == some n then b.onLeg (fun l => { l with core := none }) else b
  | .pipe n => onPipe n (fun p =>
      if 2 ≤ p.fails then { p with fails := 3, failed := true, selfTest := false } else { p with fails := p.fails + 1 }) b
  | .pkMod | .pkLat =>
    let b := onPk u (fun p => if 2 ≤ p.fails then { p with fails := 3, state := .failed } else { p with fails := p.fails + 1 }) b
    if (pkAt b u).state = .failed then pkFailed u b else b
  | .vault =>
    let b := eraseWhere (fun _ => true) b
    let b := b.onVlt (fun v =>
      if 2 ≤ v.fails then { v with fails := 3, failed := true, selfTest := false } else { v with fails := v.fails + 1 })
    if b.vlt.failed then resumeResolves (stopAllLoads stEngineAlarm b) else b
  | .rng => b

/-- A unit is in its self-test. -/
def inSelfTest (b : Block) (u : UnitId) : Bool :=
  match u with
  | .lane n => (laneAt b n).state == .selfTest
  | .core n => (b.sce.cores[n]?).any (fun c => c.state == .selfTest)
  | .pipe n => (b.dge.pipes[n]?).any (·.selfTest)
  | .pkMod | .pkLat => (pkAt b u).state == .selfTest
  | .vault => b.vlt.selfTest
  | .rng => b.rng.state == .selfTest

/-- The self-test of a unit ends. -/
def selfTestDone (u : UnitId) (pass : Bool) (b : Block) : Block :=
  if u = .rng then rngTested pass b
  else if unitsRun b && inSelfTest b u then
    settleAll (if pass then unitResetEnded u 0 (testPassed u b) else unitResetEnded u 3 (testFailed u b))
  else b

/-! ### Engine alarms (R21) -/

/-- After an alarm the unit tests itself; when it quiesces, the self-test of its reset is the alarm's (R458). -/
def alarmTest (u : UnitId) (b : Block) : Block := if quiescing b u then b else startSelfTest u b

/-- A vault alarm (R302): the slot erased and its generation advanced, the descriptor ended; counted; self-test. Without a slot, 0xFFFFF is
reported. -/
def vaultAlarm (slot job : Option Nat) (b : Block) : Block :=
  let b := match slot with
    | some s => onSlot s (fun v => { v with gen := nextGen v.gen }) (eraseCtx s b)
    | none => b
  let b := match job.bind (jobOf b) with
    | some j => if viaVault j.desc then failOnUnit j.id 0 stEngineAlarm 0x0500 0 (stopUnwrap stEngineAlarm 0x0500 j.id b) else b
    | none => b
  let b := b.onVlt (fun v => { v with alarms := sat32 (v.alarms + 1) })
  stampAlarm (event 0x180 (slot.getD 0xFFFFF) (alarmTest .vault (reapUnits b)))

/-- An alarm of the key derivation engine (R20, R21): the keeper's command that uses it ends with ENGINE_ALARM; the spec gives this engine no
number for DETAIL, which is free. -/
def keyAlarm (job : Nat) (b : Block) : Block :=
  let b := match b.kpr.hsm.find? (fun h => h.id == job) with
    | some h =>
      let p := freeBytes 4 b
      hsmFinish h stEngineAlarm (leNat p.1) 0 [] p.2
    | none => b
  stampAlarm b

/-- An engine alarm of one unit. -/
def engineAlarm (a : Alarm) (b : Block) : Block :=
  if unitsRun b = false then b
  else match a with
    | .lane n progress =>
      if decide ((laneAt b n).state = .idle ∨ (laneAt b n).state = .busy) then
        let b := stopLane n progress stEngineAlarm b
        let b := alarmTest (.lane n) (onLane n (fun l => { l with alarms := min 255 (l.alarms + 1), state := .idle }) b)
        settleAll (stampAlarm (event 0x240 n b))
      else b
    | .core n progress =>
      match b.sce.cores[n]? with
      | none => b
      | some c =>
        if c.state = .off ∨ c.state = .failed ∨ c.state = .selfTest then b
        else
          let b := if c.state = .basic then legAbort stEngineAlarm (0x0200 + n) b else b
          let b := stopPart n progress stEngineAlarm b
          let b := match b.sce.cores[n]? with
            | some c => (match c.msg, c.job with
              | some (d, i), none => abandonMsg d i b
              | _, _ => b)
            | none => b
          let b := onCore n (fun c => { c with alarms := min 255 (c.alarms + 1), key := none, state := if c.state = .basic then .basic else .idle }) b
          settleAll (stampAlarm (event 0x200 n (alarmTest (.core n) b)))
    | .pipe n progress =>
      match b.dge.pipes[n]? with
      | none => b
      | some p =>
        if p.failed || p.selfTest then b
        else
          let b := onPipe n (fun p => { p with alarms := min 255 (p.alarms + 1) }) (stopPipe n progress stEngineAlarm b)
          settleAll (stampAlarm (event 0x1C0 n (alarmTest (.pipe n) b)))
    | .pkMod => pkAlarm .pkMod b
    | .pkLat => pkAlarm .pkLat b
    | .vaultSlot slot job => if b.vlt.failed then b else settleAll (vaultAlarm (some slot) (some job) b)
    | .vaultPort job => if b.vlt.failed then b else settleAll (vaultAlarm none (some job) b)
    | .unwrap => if b.vlt.failed then b else settleAll (vaultAlarm none none (stopFlight stEngineAlarm b))
    | .keyDerive job => settleAll (keyAlarm job b)
    | .rng => if rngRuns b && b.rng.state != .failed then settleAll (rngAlarm b) else b
where
  /-- An alarm of a public-key unit (R362, R367). -/
  pkAlarm (u : UnitId) (b : Block) : Block :=
    if (pkAt b u).state = .failed ∨ (pkAt b u).state = .selfTest then b
    else
      let b := onPk u (fun p => { p with state := .idle }) (stopPk u stEngineAlarm b)
      let b := b.onPke (fun p => { p with alarms := sat32 (p.alarms + 1) })
      settleAll (stampAlarm (event 0x280 (b2n (u == UnitId.pkLat)) (alarmTest u b)))

/-! ### Quiesce (R455 to R458) -/

/-- A quiesce request. A reset takes over from a power-down under way, after which the unit goes OFF. -/
def askQuiesce (u : UnitId) (p : Purpose) (b : Block) : Block :=
  let b := b.onPwr (fun w => { w with
    quiesce := if w.quiesce.any (fun q => q.1 == u) then
        w.quiesce.map (fun q => if q.1 = u then (u, if p = .reset then .reset else q.2) else q)
      else w.quiesce ++ [(u, p)] })
  match u with
  | .lane n => if p = .powerDown then laneGiveBack n b else b
  | .core n => match b.sce.cores[n]? with
    | some c => (match c.msg, c.job with
      | some (d, i), none => parkMsg d i b
      | _, _ => b)
    | none => b
  | _ => b

/-- The work a unit is still to finish or park before it acknowledges. -/
def quiesceWaits (b : Block) (u : UnitId) (p : Purpose) : Bool :=
  match u with
  | .lane n => p == .powerDown && (laneAt b n).running.isSome
  | .core n => match b.sce.cores[n]? with
    | some c => (p == .powerDown && c.job.isSome) || (c.job.isNone && c.msg.isSome)
    | none => false
  | _ => false

/-- A unit acknowledges its quiesce: what it runs ends with UNIT_RESET, its keys go, and it powers down or tests itself. -/
def quiesceStop (u : UnitId) (p : Purpose) (progress : Nat) (b : Block) : Block :=
  let b := match u with
    | .lane n => stopLane n (unitBoundary b n progress) stUnitReset b
    | .core n => stopPart n progress stUnitReset b
    | .pipe n => stopPipe n progress stUnitReset b
    | .pkMod | .pkLat => stopPk u stUnitReset b
    | .vault => stopVault b
    | .rng => stopRng stUnitReset b
  match p, u with
  | .powerDown, .lane n => onLane n (fun l => { l with state := .off }) b
  | .powerDown, .core n => onCore n (fun c => { c with state := .off }) b
  | _, _ => startSelfTest u b

/-! ### Unit resets (R459) -/

/-- The unit that UNIT and INSTANCE name on a variant. -/
def unitNamed (v : Variant) (unit inst : Nat) : Option UnitId :=
  if unit = 1 ∧ inst < lanesOf v then some (.lane inst)
  else if unit = 2 ∧ inst < coresOf v then some (.core inst)
  else if unit = 3 ∧ 2 ≤ inst ∧ inst ≤ 5 then some (.pipe inst)
  else if unit = 4 ∧ inst = 0 then some .pkMod
  else if unit = 4 ∧ inst = 1 then some .pkLat
  else if unit = 5 ∧ inst = 0 then some .vault
  else if unit = 6 ∧ inst = 0 then some .rng
  else none

/-- A unit is FAILED. -/
def unitFailed (b : Block) (u : UnitId) : Bool :=
  match u with
  | .lane n => (laneAt b n).state == .failed
  | .core n => (b.sce.cores[n]?).any (fun c => c.state == .failed)
  | .pipe n => (b.dge.pipes[n]?).any (·.failed)
  | .pkMod | .pkLat => (pkAt b u).state == .failed
  | .vault => b.vlt.failed
  | .rng => b.rng.state == .failed

/-- A request is refused: DONE with its RESULT. -/
def unitRefused (result : Nat) (b : Block) : Block :=
  monitorUnitDone (raiseIrq irqUnitReset (b.onPwr (fun p => { p with done := true, result := result })))

/-- GO of PWR_UNIT_CTRL, with the unit and instance it names. While a unit reset runs, it is ignored. -/
def unitGo (unit inst : Nat) (b : Block) : Block :=
  let b := b.onPwr (fun p => if p.resetting.isSome then p else { p with unitSel := unit, unitInst := inst })
  if b.pwr.resetting.isSome then b
  else match unitNamed b.run.variant unit inst with
    | none => unitRefused 1 b
    | some u =>
      if unitFailed b u then unitRefused 2 b
      else
        let b := if u = .core (b.leg.core.getD 64) then endWindow 1 stMessageAbandoned 0 b else b
        settleAll (askQuiesce u .reset (b.onPwr (fun p => { p with resetting := some u })))

/-- A write of PWR_UNIT_CTRL. -/
def unitCtrl (v : Word) (b : Block) : Block :=
  pf0Write 0x7FF0FF00 v (fun b =>
    if bit v.toNat 31 then unitGo (bits v.toNat 19 16) (bits v.toNat 7 0) b
    else b.onPwr (fun p => { p with unitSel := bits v.toNat 19 16, unitInst := bits v.toNat 7 0 })) b

/-! ### The commands -/

/-- ENGINE_ALARM (R21). -/
def execEngineAlarm (alarm : Alarm) (s : State) : Host.Outcome State Fault Refusal := .next { s with blk := engineAlarm alarm s.blk }
/-- UNIT_SELF_TEST_DONE (R458). -/
def execUnitSelfTestDone (unit : UnitId) (pass : Bool) (s : State) : Host.Outcome State Fault Refusal :=
  .next { s with blk := selfTestDone unit pass s.blk }
/-- UNIT_RESET (R459). -/
def execUnitReset (value : Word) (s : State) : Host.Outcome State Fault Refusal := .next { s with blk := unitCtrl value s.blk }

end Sys2Proof.Machine
end

