-- ==== Sys2Proof/Machine/Power.lean ====
section
/-! DEFINITION. The power governor: budget, fit, decisions, AVSBus, quiesce for power-down (R34, R73, R460 to R465). -/

namespace Sys2Proof.Machine

/-! ### Tables (R314, R344) -/

/-- Rates of a lane at a row of R314, in 0.1 Gbit/s: at Tj −10, 60 and 105 °C. -/
def laneRate : Nat → Nat × Nat × Nat
  | 600 => (980, 920, 840)
  | 700 => (1480, 1400, 1200)
  | 750 => (1700, 1600, 1400)
  | 800 => (1860, 1760, 1560)
  | _ => (2120, 2000, 1800)

/-- Rates of a core at a row of R344, in 0.1 Gbit/s. -/
def coreRate : Nat → Nat × Nat × Nat
  | 600 => (96, 90, 78)
  | 700 => (146, 138, 110)
  | 750 => (170, 160, 128)
  | 800 => (186, 176, 142)
  | _ => (212, 200, 164)

/-- A row's rate at a Tj, linear between the columns, times 3,150; the end columns beyond them. -/
def rateAt (r : Nat × Nat × Nat) (tj : Int) : Nat :=
  if tj ≤ 60 then
    let d := (60 - max tj (-10)).toNat
    3150 * r.2.1 + (r.1 - r.2.1) * d * 45
  else
    let d := (min tj 105 - 60).toNat
    3150 * r.2.1 - (r.2.1 - r.2.2) * d * 70

/-- A table's rate at one of the candidate voltages, times 6,300; 0.85 V is the mean of its neighbours (R461). -/
def rateOf (row : Nat → Nat × Nat × Nat) (mv : Nat) (tj : Int) : Nat :=
  if mv = 850 then rateAt (row 800) tj + rateAt (row 900) tj else 2 * rateAt (row mv) tj

/-- The next lower row of the rate tables (R462). -/
def lowerRow (mv : Nat) : Nat := if mv ≤ 700 then 600 else if mv = 750 then 700 else if mv = 800 then 750 else 800

/-! ### The choice (R461) -/

/-- Withdraw units while the budget is above the cap: of the class with the larger admitted fraction, cores on a tie, highest number first, one of
each kept. `nl` and `nc` are the units that may be admitted. -/
def fitGo (over_ : Nat → Nat → Bool) (nl nc : Nat) : Nat → List Nat → List Nat → List Nat × List Nat
  | 0, l, c => (l, c)
  | fuel + 1, l, c =>
    if over_ l.length c.length && (decide (1 < l.length) || decide (1 < c.length)) then
      let coreFirst := decide (l.length * nc ≤ c.length * nl)
      let core := if coreFirst then decide (1 < c.length) else !decide (1 < l.length)
      if core then fitGo over_ nl nc fuel l c.dropLast else fitGo over_ nl nc fuel l.dropLast c
    else (l, c)

/-- fit at a voltage: the units kept, and whether they fit the cap. -/
def fitAt (b : Block) (tj : Int) (mv : Nat) (lanes cores : List Nat) : List Nat × List Nat × Bool :=
  let over_ (l c : Nat) : Bool := decide (b.pwr.cap * 1000000 < budget b.run.variant tj mv l c)
  let r := fitGo over_ lanes.length cores.length (lanes.length + cores.length) lanes cores
  (r.1, r.2, !over_ r.1.length r.2.length)

/-- What the governor decides: voltage, lanes, cores, CAP_LIMITED. -/
structure Decision where
  mv      : Nat
  lanes   : List Nat
  cores   : List Nat
  limited : Bool
  deriving DecidableEq, Repr

/-- The best candidate voltage: highest score, the lower voltage on a tie. -/
def bestOf (b : Block) (tj : Int) (lanes cores : List Nat) : Option Decision :=
  let cands := if b.pwr.pref = 0 then [700, 750, 800, 850, 900] else [700]
  let score (mv l c : Nat) : Nat :=
    let r := if b.pwr.canarySlow then lowerRow mv else mv
    l * rateOf laneRate r tj + c * rateOf coreRate r tj
  (cands.foldl (fun (best : Option (Nat × Decision)) mv =>
    let f := fitAt b tj mv lanes cores
    if f.2.2 then
      let s := score mv f.1.length f.2.1.length
      match best with
      | some (t, d) => if t < s then some (s, { mv := mv, lanes := f.1, cores := f.2.1, limited := false }) else some (t, d)
      | none => some (s, { mv := mv, lanes := f.1, cores := f.2.1, limited := false })
    else best) none).map (·.2)

/-- The lanes that may be admitted: neither fenced nor FAILED. -/
def usableLanes (b : Block) : List Nat :=
  (List.range b.ste.lanes.length).filter (fun n => !bit b.ste.fence n && decide ((laneAt b n).state ≠ .failed))

/-- The cores that may be admitted: neither fenced, nor FAILED, nor reserved for the basic level. -/
def usableCores (b : Block) : List Nat :=
  (List.range b.sce.cores.length).filter (fun n => !bit b.sce.fence n && b.leg.core != some n &&
    (b.sce.cores[n]?).any (fun c => decide (c.state ≠ .failed)))

/-- Tj of the hotter die (R73); JT-H48S and JT-H48B have no vault die. -/
def hotter (b : Block) (g : Sensors) : Int := if b.run.variant = .jtH48F then max g.tjLogic g.tjVault else g.tjLogic

/-- The governor's choice (R461, R462, R465) from what its sensors read. From 100 °C it withdraws below what the cap allows (R73): how far is not
said, but by one lane and one core at least (DESIGN CHOICE, assumption 5). -/
def choose (b : Block) (g : Sensors) : Decision :=
  let l := usableLanes b
  let c := usableCores b
  let d : Decision :=
    if avsActive b = false ∨ b.pwr.avsFault = true then
      let mv := if b.pwr.avsFault then max b.pwr.target g.measured else g.measured
      let f := fitAt b (hotter b g) mv l c
      { mv := b.pwr.goal, lanes := f.1, cores := f.2.1, limited := !f.2.2 }
    else match bestOf b (hotter b g) l c with
      | none => { mv := 600, lanes := l.take 1, cores := c.take 1, limited := true }
      | some d =>
        if g.belowFloor && decide (d.mv < 900) then
          let f := fitAt b (hotter b g) (d.mv + 50) l c
          if f.2.2 then { mv := d.mv + 50, lanes := f.1, cores := f.2.1, limited := false } else d
        else d
  if 100 ≤ hotter b g then
    { d with lanes := d.lanes.take (min g.maxLanes (d.lanes.length - 1)), cores := d.cores.take (min g.maxCores (d.cores.length - 1)) }
  else d

/-! ### Carrying it out (R34, R463, R464) -/

/-- Withdraw a lane from admission; one with power quiesces. -/
def withdrawLane (n : Nat) (b : Block) : Block :=
  let b := onLane n (fun l => { l with admitted := false }) b
  if (laneAt b n).state = .off ∨ (laneAt b n).state = .failed then b else askQuiesce (.lane n) .powerDown b

/-- Withdraw a core from admission. -/
def withdrawCore (n : Nat) (b : Block) : Block :=
  let b := onCore n (fun c => { c with admitted := false }) b
  match b.sce.cores[n]? with
  | some c => if c.state = .off ∨ c.state = .failed ∨ c.state = .basic then b else askQuiesce (.core n) .powerDown b
  | none => b

/-- Admit the units of the decision that are not admitted; one without power tests itself. -/
def admitGoal (b : Block) : Block :=
  let b := b.pwr.goalLanes.foldl (fun b n => onLane n (fun l =>
    if l.admitted then l else { l with admitted := true, state := if l.state = .off then .selfTest else l.state }) b) b
  b.pwr.goalCores.foldl (fun b n => onCore n (fun c =>
    if c.admitted then c else { c with admitted := true, state := if c.state = .off then .selfTest else c.state }) b) b

/-- A withdrawn unit has not acknowledged yet. -/
def withdrawing (b : Block) : Bool :=
  b.pwr.quiesce.any (fun q => match q.1 with
    | .lane n => !(laneAt b n).admitted
    | .core n => (b.sce.cores[n]?).any (fun c => !c.admitted)
    | _ => false)

/-- The regulator takes a voltage request: 100 µs have passed since it acknowledged the last one (R464). -/
def avsFree (b : Block) : Bool := !b.pwr.avsBusy && decide (b.pwr.avsFrom ≤ b.time.usec)

/-- The next move towards the decision: a voltage request of at most 50 mV, upwards only once the withdrawn units have acknowledged; once voltage and
withdrawals have settled, admission. -/
def governorStep (b : Block) : Block :=
  if b.pwr.settling = false ∨ b.pwr.avsBusy = true then b
  else if avsActive b && !b.pwr.avsFault && b.pwr.target != b.pwr.goal then
    if avsFree b = false then b
    else if b.pwr.target < b.pwr.goal then
      if withdrawing b then b
      else
        let mv := min b.pwr.goal (b.pwr.target + 50)
        send (.avs mv) (b.onPwr (fun p => { p with target := mv, avsBusy := true }))
    else
      let mv := max b.pwr.goal (b.pwr.target - 50)
      send (.avs mv) (b.onPwr (fun p => { p with target := mv, avsBusy := true }))
  else if withdrawing b then b
  else raiseIrq irqGovernor (admitGoal (b.onPwr (fun p => { p with settling := false })))

/-- One decision of the governor; in SERVICE alone are there units to admit. -/
def governorDecision (g : Sensors) (b : Block) : Block :=
  let tj := hotter b g
  let b := if 100 < tj ∧ b.pwr.tj ≤ 100 ∧ unitsRun b = true then event 0x042 tj.toNat b else b
  let d := choose b g
  let rose := (d.limited && !b.pwr.capLimited) || (g.canarySlow && !b.pwr.canarySlow)
  let b := b.onPwr (fun p => { p with tj := tj, measured := g.measured })
  if b.run.state ≠ .service then b
  else
    let b := b.onPwr (fun p => { p with canarySlow := g.canarySlow, capLimited := d.limited })
    let b := if rose then raiseIrq irqGovernor b else b
    if d.lanes = b.pwr.goalLanes ∧ d.cores = b.pwr.goalCores ∧ d.mv = b.pwr.goal then b
    else
      let b := b.onPwr (fun p => { p with
        decisions := sat32 (p.decisions + 1), settling := true, goal := d.mv, goalLanes := d.lanes, goalCores := d.cores })
      let b := (List.range b.ste.lanes.length).foldl (fun b n =>
        if (laneAt b n).admitted && !d.lanes.contains n then withdrawLane n b else b) b
      let b := (List.range b.sce.cores.length).foldl (fun b n =>
        if (b.sce.cores[n]?).any (·.admitted) && !d.cores.contains n && b.leg.core != some n then withdrawCore n b else b) b
      settleAll (governorStep b)

/-- The regulator has acknowledged a request (R464). -/
def avsAck (measured : Nat) (b : Block) : Block :=
  if b.pwr.avsBusy then settleAll (governorStep (b.onPwr (fun p => { p with
    avsBusy := false, avsFrom := b.time.usec + 100, measured := measured }))) else b

/-- An AVSBus error (R465): no further request until chip reset, and a decision by admission alone. -/
def avsFault (g : Sensors) (b : Block) : Block :=
  if avsActive b = false ∨ unitsRun b = false then b
  else
    let rose := !b.pwr.avsFault
    let b := b.onPwr (fun p => { p with avsFault := true, avsBusy := false, avsErrors := sat32 (p.avsErrors + 1) })
    let b := if rose then raiseIrq irqGovernor b else b
    settleAll (governorStep (governorDecision g b))

/-- A unit acknowledges its quiesce (R455): the pool sums are checked (R38), then it powers down or tests itself. -/
def quiesceAck (u : UnitId) (progress : Nat) (b : Block) : Block :=
  match b.pwr.quiesce.find? (fun q => q.1 == u) with
  | none => b
  | some (_, p) =>
    if quiesceWaits b u p then b
    else
      let b := quiesceStop u p progress b
      settleAll (governorStep (checkPools (b.onPwr (fun w => { w with quiesce := w.quiesce.filter (fun q => q.1 != u) }))))

/-- SET_POWER_CAP (R227, R461): the cap and preference; RESULT is the previous cap. -/
def setPowerCap (id : Nat) : Block → Block := adminRun 0x88 id (fun j b =>
  concludeCore j.id (success 0 b.pwr.cap) (b.onPwr (fun p => { p with cap := aCap j.desc, pref := aPref j.desc })))

/-! ### The commands -/

/-- SET_POWER_CAP. -/
def execSetPowerCap (job : Nat) (s : State) : Host.Outcome State Fault Refusal := .next { s with blk := setPowerCap job s.blk }
/-- GOVERNOR_DECISION (R461). -/
def execGovernorDecision (sensors : Sensors) (s : State) : Host.Outcome State Fault Refusal :=
  .next { s with blk := governorDecision sensors s.blk }
/-- AVS_ACK (R464). -/
def execAvsAck (measured : Nat) (s : State) : Host.Outcome State Fault Refusal := .next { s with blk := avsAck measured s.blk }
/-- AVS_FAULT (R465). -/
def execAvsFault (sensors : Sensors) (s : State) : Host.Outcome State Fault Refusal := .next { s with blk := avsFault sensors s.blk }
/-- QUIESCE_ACK (R455). -/
def execQuiesceAck (unit : UnitId) (progress : Nat) (s : State) : Host.Outcome State Fault Refusal :=
  .next { s with blk := quiesceAck unit progress s.blk }

end Sys2Proof.Machine
end

