-- ==== Sys2Proof/Machine/Link.lean ====
section
/-! DEFINITION. The host link: training, link and function resets, power states, host power-good, answers to device reads of host
memory, bad requests (R183 to R205). -/

namespace Sys2Proof.Machine

/-! ### Training (R184, R185) -/

/-- The link answers training (R184): SERVICE or FROZEN, the host not held in reset. -/
def linkAnswers (b : Block) : Bool :=
  (decide (b.run.state = .service) || decide (b.run.state = .frozen)) && !hostInReset b

/-- A module that may be part of the link: carried by the variant (R183), not left out at this training. -/
def moduleUsable (b : Block) (m : Nat) : Bool :=
  if m = 0 then !b.link.left0 else !b.link.left1 && decide (b.run.variant ≠ .jtH48B)

/-- The link is up at a rate and widths (R184): what was held for it leaves (R40, R185). A module left out stays out until the link
trains from DOWN again. -/
def linkTrained (rate : LinkRate) (w0 w1 : LinkWidth) (repaired : Nat) (b : Block) : Block :=
  let w0 := if moduleUsable b 0 then w0 else .none
  let w1 := if moduleUsable b 1 then w1 else .none
  if b.link.phase = .active ∨ linkAnswers b = false ∨ (w0 = .none ∧ w1 = .none) then b
  else
    let again := decide (b.link.phase = .retrain)
    let b := b.onLink (fun l => { l with
      phase := .active, rate := some rate, w0 := w0, w1 := w1, repaired := min 15 repaired, refclk := true })
    settleAll (flushHeld (if again then raiseIrq irqLink b else b))

/-- A module has not trained within 20 ms and is left out (R184). -/
def moduleTimeout (m : Nat) (b : Block) : Block :=
  if linkAnswers b = true ∧ (b.link.phase = .down ∨ b.link.phase = .training) then
    b.onLink (fun l => { l with phase := .training, left0 := l.left0 || m == 0, left1 := l.left1 || m == 1 })
  else b

/-- A retrain that keeps DL_Up starts (R185): counted, recorded. -/
def retrain (b : Block) : Block :=
  if b.link.phase = .active then
    event 0x004 0 (b.onLink (fun l => { l with phase := .retrain, retrains := sat32 (l.retrains + 1) }))
  else b

/-- DL_Down (R185, R203). -/
def dlDown (b : Block) : Block := if b.link.phase = .down then b else settleAll (linkDown b)

/-! ### Functions (R188, R196, R203) -/

/-- A virtual function that exists now. -/
def vfEnabled (b : Block) (fn : Nat) : Bool := decide (fn ≠ 0) && fnEnabled b fn

/-- VF Enable cleared (R188): a function-level reset of every VF. -/
def vfEnableClear (b : Block) : Block :=
  if b.link.vfEnable then
    settleAll (((List.range b.link.numVfs).foldl (fun b i => vfReset (i + 1) b) b).onLink (fun l => { l with vfEnable := false }))
  else b

/-- Bus Master Enable of a function written (R203): a clear holds its requests, and ends a locked TDI (R196); a set resumes. -/
def busMaster (fn : Nat) (on : Bool) (b : Block) : Block :=
  if fnEnabled b fn = false ∨ (fnOf b fn).bme = on then b
  else
    let b := onFn b fn (fun f => { f with bme := on })
    settleAll (if on then resumeHeld b else tdiViolation fn b)

/-- A function enters D3hot, or returns to D0 (R203). -/
def powerState (fn : Nat) (d3 : Bool) (b : Block) : Block :=
  if fnEnabled b fn = false ∨ (fnOf b fn).d3hot = d3 then b
  else
    let b := onFn b fn (fun f => { f with d3hot := d3 })
    settleAll (if d3 then tdiViolation fn b else resumeHeld b)

/-- A configuration write that a locked TDI does not permit (R196): to a VF's own registers, or (function 0) to PF0's SR-IOV controls. -/
def configViolation (fn : Nat) (b : Block) : Block :=
  settleAll (if fn = 0 then (List.range b.link.numVfs).foldl (fun b i => tdiViolation (i + 1) b) b else tdiViolation fn b)

/-! ### Requests nothing serves (R201, R202, R502) -/

/-- An offset that a function's BAR0 implements (R189, R501, R502, R505). -/
def implemented (fn off : Nat) : Bool :=
  let within (lo hi : Nat) : Bool := decide (lo ≤ off) && decide (off ≤ hi)
  if fn = 0 then
    within 0 0xFFFFF || within 0x1000000 0x11FFFFF || within 0x2000000 0x20080FF || within 0x3000000 0x300FFFF
  else within 0 0x87FFF || within 0x88000 0x880FF || within 0x90000 0x90FFF

/-- A request is answered Unsupported Request (R201); a posted write has no completion. -/
def unsupported (fn : Nat) (posted : Bool) (b : Block) : Block :=
  let b := advise fn aerUnsupported b
  if posted then b else reply fn .unsupported [] b

/-- A request that finds nothing to serve it (R201, R205). The table of commands has no row for the two correctable link errors of R201; this command
carries them (DESIGN CHOICE, assumption 19): they are latched in AER, and the retrain that replay exhausted brings is RETRAIN's. -/
def badRequest (r : BadRequest) (posted : Bool) (b : Block) : Block :=
  match r with
  | .unimplementedRange fn off => if fnEnabled b fn = true ∧ implemented fn off = false then unsupported fn posted b else b
  | .disabledVf fn => if fnEnabled b fn then b else unsupported 0 posted b
  | .pf0BarInD3hot => if (fnOf b 0).d3hot then unsupported 0 posted b else b
  | .unsupportedFeature fn => unsupported (if fnEnabled b fn then fn else 0) posted b
  | .flitCorrected => if b.link.phase = .active then correctable 0 0 b else b
  | .replayExhausted => if b.link.phase = .active then correctable 0 8 b else b

/-- A poisoned write to a BAR is dropped (R201). -/
def poisonedWrite (fn : Nat) (b : Block) : Block :=
  if fnEnabled b fn then advise fn aerPoisoned b else b

/-- An access of a width or alignment that R14 does not allow. -/
def badWidth (fn : Nat) (isWrite : Bool) (off len : Nat) (b : Block) : Block :=
  if (len = 4 ∧ off % 4 = 0) ∨ (len = 8 ∧ off % 8 = 0) then b
  else if fnEnabled b fn = false ∨ (fnOf b fn).d3hot = true ∨ implemented fn off = false then
    unsupported (if fnEnabled b fn then fn else 0) isWrite b
  else
    let b := advise fn aerUnsupported b
    let b := raiseIrq irqBadAccess (b.onLink (fun l => { l with
      badAccess := sat32 (l.badAccess + 1), badAccAddr := fn * 2 ^ 24 + off % 2 ^ 24 }))
    if isWrite then b else reply fn .success (List.replicate len 0xFF) b

/-! ### Host power-good and the reset handshake (R198 to R200) -/

/-- Change what host power-good is made of; a fall of the effective value is recorded (R199, R200). -/
def pwrgdChange (f : Block → Block) (b : Block) : Block :=
  let b' := f b
  if hostPwrgdOk b && !hostPwrgdOk b' then event 0x001 0 b' else b'

/-- HOST_PWRGD over the sideband, acknowledged with an ACK (R198). -/
def pwrgdMsg (good : Bool) (b : Block) : Block :=
  send (.sideband 3 good) (pwrgdChange (fun b => b.onLink (fun l => { l with pwrgdMsg := good })) b)

/-- Effective power-good has fallen in SERVICE (R200). -/
def pwrgdFall (b : Block) : Block :=
  if b.run.state = .service ∧ hostPwrgdOk b = false ∧ b.pins.pwrgdHold = false then
    settleAll (holdHost (fun p => { p with pwrgdHold := true }) b)
  else b

/-- Power-good has been 1 again for 1 ms in SERVICE (R200); in any other state a change has no effect before step K6. -/
def pwrgdStable (b : Block) : Block :=
  if b.run.state = .service ∧ b.pins.pwrgdHold = true ∧ hostPwrgdOk b = true then onHostReset (fun p => { p with pwrgdHold := false }) b else b

/-- The host die acknowledges HOST_RESET (R198). -/
def hostAck (value : Bool) (b : Block) : Block :=
  if b.link.hsPending = some value then b.onLink (fun l => { l with hsPending := none, hsResends := 0 }) else b

/-- HOST_RESET has gone unacknowledged and is sent again (R198). -/
def hostResend (b : Block) : Block :=
  match b.link.hsPending with
  | none => b
  | some v =>
    let b := if b.link.hsNoAck then b else raiseIrq irqLink b
    let n := sat32 (b.link.hsResends + 1)
    event 0x002 n (send (.sideband 1 v) (b.onLink (fun l => { l with hsNoAck := true, hsResends := n })))

/-- The module 0 sideband first comes up after a chip reset (R198). -/
def sidebandUp (b : Block) : Block :=
  if b.sb.up then b else send (.sideband 4 false) (b.onSb (fun s => { s with up := true }))

/-! ### MSI-X (R193) -/

/-- The mask bit of a vector is cleared. -/
def msixUnmask (fn vec : Nat) (b : Block) : Block :=
  barWrite fn (fun b => msixRelease fn vec
    (onFn b fn (fun f => { f with msix := tset f.msix vec { msixEntry f vec with mask := false } }))) b

/-! ### Answers to device reads (R201) -/

/-- The DETAIL kind that event 0x003 reports for a read (R252, R437). -/
def readKindNo : ReadKind → Nat
  | .descs _ _ | .drain _ => 1
  | .srcPiece _ => 2
  | .dstPiece _ => 3
  | .blob _ | .callerKey _ => 4
  | .iv _ => 5
  | .source _ => 6
  | .block _ => 7
  | .dataCheck _ | .zeroCheck _ | .tombCheck _ _ => 8

/-- Count and report the failed parts of a read. -/
def countReadErrors (r : ReadReq) (n : Nat) (b : Block) : Block :=
  (List.range n).foldl (fun b _ => event 0x003 (readKindNo r.kind)
    (raiseIrq irqDmaError (b.onLink (fun l => { l with dmaErrors := sat32 (l.dmaErrors + 1) })))) b

/-- What a read brings, to whoever asked for it. -/
def deliver (r : ReadReq) (res : HostData) (progress : Nat) (b : Block) : Block :=
  match r.kind with
  | .descs n k => descsArrived n k r.world res b
  | .drain n => drainArrived n res b
  | .blob i =>
    if (firstErr res).isSome then nextLoads (concludeCore i (verdict stDataFetch (fetchDetail 4 0) 0 0) b)
    else blobArrived i (slice res.data 0 r.len) b
  | .callerKey i => keyArrived i res b
  | .iv i => ivArrived i r.len res b
  | .srcPiece i => srcPieceArrived i progress res b
  | .dstPiece i => dstPieceArrived i progress res b
  | .source i => sourceArrived i progress r.len res b
  | .block i => blockArrived i r.len res b
  | .dataCheck i => match jobOf b i with
    | some j => (match j.stage with
      | .dataCheck v => dataChecked i v res b
      | _ => b)
    | none => b
  | .zeroCheck i => match jobOf b i with
    | some j => (match j.stage with
      | .zeroCheck v => zeroChecked i v res b
      | _ => b)
    | none => b
  | .tombCheck n i => tombChecked n i res b

/-- A read has returned whole: it is delivered. -/
def readEnds (r : ReadReq) (res : HostData) (progress : Nat) (b : Block) : Block :=
  let b := dropReads (fun x => x.num == r.num) b
  settleAll (purgeBanks (reapUnits (deliver r res progress b)))

/-- What a read request brought, cut to its length. -/
def pieceData (p : ReadPiece) (res : HostData) : HostData :=
  { data := slice res.data 0 p.len
    errs := (res.errs.filter (fun e => decide (e.off < p.len))).map (fun e => { e with len := min e.len (p.len - e.off) }) }

/-- A read put together from its requests, in stream order (R313). -/
def wholeRead (got : Table HostData) : HostData :=
  { data := got.flatMap (fun g => g.2.data), errs := got.flatMap (fun g => g.2.errs.map (fun e => { e with off := e.off + g.1 })) }

/-- A read request ends: its tag is free, its failed parts are counted, and with the last request of a read the read is delivered. What comes for a
read that has ended is dropped. -/
def pieceEnds (tag : Nat) (p : ReadPiece) (res : HostData) (progress : Nat) (b : Block) : Block :=
  let b := pumpReads (b.onWork (fun w => { w with pieces := tdel w.pieces tag }))
  match b.work.reads.find? (fun r => r.num == p.num) with
  | none => b
  | some r =>
    let res := pieceData p res
    let b := countReadErrors r res.errs.length b
    let r := { r with got := tset r.got p.off res }
    if b.work.pieces.any (fun q => q.2.num == p.num) || b.work.unsent.any (fun q => q.num == p.num) then
      b.onWork (fun w => { w with reads := w.reads.map (fun x => if x.num = r.num then r else x) })
    else readEnds r (wholeRead r.got) progress b

/-- Host memory completes a read request. One that had timed out is dropped as an unexpected completion (R201). -/
def readCompletion (tag : Nat) (res : HostData) (progress : Nat) (b : Block) : Block :=
  match tget b.work.pieces tag with
  | some p =>
    pieceEnds tag p res progress (if res.errs.any (fun e => e.kind == .poisoned) then advise p.fn aerPoisoned b else b)
  | none =>
    match tget b.work.timedOut tag with
    | some fn => advise fn aerUnexpected
        (b.onWork (fun w => { w with timedOut := tdel w.timedOut tag }))
    | none => b

/-- No completion has come within the timeout (R192) for what is missing of a read request after the bytes got. -/
def readTimeout (tag : Nat) (got : Bytes) (progress : Nat) (b : Block) : Block :=
  match tget b.work.pieces tag with
  | none => b
  | some p =>
    if p.len ≤ got.length then b
    else
      pieceEnds tag p { data := got, errs := [{ off := got.length, len := p.len - got.length, kind := .ur }] } progress
        ((advise p.fn aerTimeout b).onWork (fun w => { w with timedOut := tset w.timedOut tag p.fn }))

/-! ### The commands -/

/-- LINK_TRAINED (R184). -/
def execLinkTrained (rate : LinkRate) (w0 w1 : LinkWidth) (repaired : Nat) (s : State) : Host.Outcome State Fault Refusal :=
  .next { s with blk := linkTrained rate w0 w1 repaired s.blk }

/-- MODULE_TRAIN_TIMEOUT (R184). -/
def execModuleTrainTimeout (m : Nat) (s : State) : Host.Outcome State Fault Refusal := .next { s with blk := moduleTimeout m s.blk }

/-- RETRAIN (R185). -/
def execRetrain (s : State) : Host.Outcome State Fault Refusal := .next { s with blk := retrain s.blk }

/-- DL_DOWN (R185). -/
def execDlDown (s : State) : Host.Outcome State Fault Refusal := .next { s with blk := dlDown s.blk }

/-- REFCLK_LOSS (R515): the link goes down. -/
def execRefclkLoss (s : State) : Host.Outcome State Fault Refusal :=
  .next { s with blk := (dlDown s.blk).onLink (fun l => { l with refclk := false }) }

/-- HOT_RESET (R203). -/
def execHotReset (s : State) : Host.Outcome State Fault Refusal := .next { s with blk := dlDown s.blk }

/-- VF_FUNCTION_LEVEL_RESET (R203). -/
def execVfFunctionLevelReset (fn : Nat) (s : State) : Host.Outcome State Fault Refusal :=
  .next { s with blk := if vfEnabled s.blk fn then settleAll (vfReset fn s.blk) else s.blk }

/-- PF0_FUNCTION_LEVEL_RESET (R203). -/
def execPf0FunctionLevelReset (s : State) : Host.Outcome State Fault Refusal := .next { s with blk := settleAll (pf0Reset s.blk) }

/-- VF_ENABLE_CLEAR (R188). -/
def execVfEnableClear (s : State) : Host.Outcome State Fault Refusal := .next { s with blk := vfEnableClear s.blk }

/-- BUS_MASTER_ENABLE_CLEAR (R203). -/
def execBusMasterEnableClear (fn : Nat) (s : State) : Host.Outcome State Fault Refusal :=
  .next { s with blk := busMaster fn false s.blk }

/-- BUS_MASTER_ENABLE_SET (R203). -/
def execBusMasterEnableSet (fn : Nat) (s : State) : Host.Outcome State Fault Refusal :=
  .next { s with blk := busMaster fn true s.blk }

/-- D3HOT_ENTRY (R203). -/
def execD3hotEntry (fn : Nat) (s : State) : Host.Outcome State Fault Refusal := .next { s with blk := powerState fn true s.blk }

/-- D0_ENTRY (R203). -/
def execD0Entry (fn : Nat) (s : State) : Host.Outcome State Fault Refusal := .next { s with blk := powerState fn false s.blk }

/-- HOST_READ_COMPLETION (R201). -/
def execHostReadCompletion (tag : Nat) (res : HostData) (progress : Nat) (s : State) : Host.Outcome State Fault Refusal :=
  .next { s with blk := readCompletion tag res progress s.blk }

/-- COMPLETION_TIMEOUT (R201). -/
def execCompletionTimeout (tag : Nat) (got : Bytes) (progress : Nat) (s : State) : Host.Outcome State Fault Refusal :=
  .next { s with blk := readTimeout tag got progress s.blk }

/-- UNSUPPORTED_REQUEST (R201). -/
def execUnsupportedRequest (req : BadRequest) (posted : Bool) (s : State) : Host.Outcome State Fault Refusal :=
  .next { s with blk := badRequest req posted s.blk }

/-- POISONED_BAR_WRITE (R201). -/
def execPoisonedBarWrite (fn : Nat) (s : State) : Host.Outcome State Fault Refusal := .next { s with blk := poisonedWrite fn s.blk }

/-- BAD_WIDTH_ACCESS (R14, R201). -/
def execBadWidthAccess (fn : Nat) (isWrite : Bool) (off len : Nat) (s : State) : Host.Outcome State Fault Refusal :=
  .next { s with blk := badWidth fn isWrite off len s.blk }

/-- HOST_PWRGD_MSG (R198). -/
def execHostPwrgdMsg (good : Bool) (s : State) : Host.Outcome State Fault Refusal := .next { s with blk := pwrgdMsg good s.blk }

/-- HOST_PWRGD_PIN_CHANGE (R199). -/
def execHostPwrgdPinChange (level : Bool) (s : State) : Host.Outcome State Fault Refusal :=
  .next { s with blk := pwrgdChange (fun b => b.onPins (fun p => { p with hostPwrgd := level })) s.blk }

/-- HOST_PWRGD_FALL (R200). -/
def execHostPwrgdFall (s : State) : Host.Outcome State Fault Refusal := .next { s with blk := pwrgdFall s.blk }

/-- HOST_PWRGD_STABLE (R200). -/
def execHostPwrgdStable (s : State) : Host.Outcome State Fault Refusal := .next { s with blk := pwrgdStable s.blk }

/-- SIDEBAND_ACK (R198). -/
def execSidebandAck (value : Bool) (s : State) : Host.Outcome State Fault Refusal := .next { s with blk := hostAck value s.blk }

/-- HOST_RESET_RESEND (R198). -/
def execHostResetResend (s : State) : Host.Outcome State Fault Refusal := .next { s with blk := hostResend s.blk }

/-- MSIX_UNMASK (R193). -/
def execMsixUnmask (fn vec : Nat) (s : State) : Host.Outcome State Fault Refusal := .next { s with blk := msixUnmask fn vec s.blk }

/-- SIDEBAND_COMES_UP (R198). -/
def execSidebandComesUp (s : State) : Host.Outcome State Fault Refusal := .next { s with blk := sidebandUp s.blk }

/-- TDI_CONFIG_VIOLATION (R196). -/
def execTdiConfigViolation (fn : Nat) (s : State) : Host.Outcome State Fault Refusal := .next { s with blk := configViolation fn s.blk }

end Sys2Proof.Machine
end

