-- ==== Sys2Proof/Machine/Pke.lean ====
section
/-! DEFINITION. The public-key commands of the keeper (R360, R364 to R367). -/

namespace Sys2Proof.Machine

/-! ### Parameters (R365) -/

/-- The parameter header of R365. -/
structure PkHead where
  aset    : Nat
  mode    : Nat
  ctxLen  : Nat
  outCap  : Nat
  msgLen  : Nat
  hash    : Nat
  deriving DecidableEq, Repr

/-- The items of a public-key command; one the command does not have is empty. -/
structure PkItems where
  blob : Bytes
  pub  : Bytes
  sig  : Bytes
  ctx  : Bytes
  msg  : Bytes
  tmpl : Bytes
  deriving DecidableEq, Repr

/-- MODE.PREHASH. -/
def PkHead.prehash (h : PkHead) : Bool := bit h.mode 0

/-- MODE.DETERMINISTIC. -/
def PkHead.deterministic (h : PkHead) : Bool := bit h.mode 1

/-- The header of a parameter area, as it stands. -/
def pkHead (p : Bytes) : PkHead :=
  { aset := leAt p 0 1, mode := leAt p 1 1, ctxLen := leAt p 2 2, outCap := leAt p 4 4, msgLen := leAt p 8 4, hash := leAt p 0x0C 1 }

/-- A command with a message item: PK_SIGN, PK_VERIFY. -/
def pkTakesMsg (code : Nat) : Bool := code == 0x41 || code == 0x42

/-- Reason 0x0401 for the header: too short, a reserved bit set, a length that the command or set has no use for (R365). -/
def pkHeadBad (code : Nat) (p : Bytes) : Bool :=
  let h := pkHead p
  decide (p.length < 16) || !allZero p 0x0D 3 || decide (4 ≤ h.mode) || decide (255 < h.ctxLen) ||
    (h.ctxLen != 0 && !(isMldsa h.aset && pkTakesMsg code)) || (h.msgLen != 0 && !pkTakesMsg code)

/-- The sets a command takes (R364). -/
def pkAsets : Nat → List Nat
  | 0x40 => [0x01, 0x02, 0x03, 0x04, 0x05, 0x10, 0x11, 0x12, 0x18, 0x19]
  | 0x41 => [0x01, 0x02, 0x03, 0x10, 0x11, 0x12]
  | 0x42 => [0x01, 0x02, 0x03, 0x08, 0x09, 0x10, 0x11, 0x12, 0x20]
  | 0x43 => [0x04, 0x05]
  | 0x44 | 0x45 => [0x18, 0x19]
  | _ => []

/-- Reason 0x0402 (R364, R365): ASET, MODE or HASH. A PK_PUBLIC of an ECDSA set may carry a HASH, which it does not use. -/
def pkModeBad (code : Nat) (h : PkHead) : Bool :=
  let hashed := isEcdsa h.aset || isRsa h.aset
  let hashOk := decide (1 ≤ h.hash) && decide (h.hash ≤ 6)
  !(pkAsets code).contains h.aset ||
    (h.prehash && !(hashed && pkTakesMsg code)) ||
    (h.deterministic && !(code == 0x41 && (isEcdsa h.aset || isMldsa h.aset))) ||
    (if hashed && pkTakesMsg code then !hashOk else if hashed then !hashOk && h.hash != 0 else h.hash != 0)

/-- The last item, of a length the header gives: it ends where the block ends. -/
def lastItem (p : Bytes) (off n : Nat) : Option Bytes :=
  if n = 0 then (if itemsEnd p off then some [] else none)
  else match fixedItem p off n with
    | some (m, e) => if e = p.length then some m else none
    | none => none

/-- An item that may be empty. -/
def maybeItem (p : Bytes) (off n : Nat) : Option (Bytes × Nat) := if n = 0 then some ([], off) else fixedItem p off n

/-- The public key item of a set: for RSA a u32le k, 4 zero bytes, n and e (R361). -/
def pubItem (p : Bytes) (aset off : Nat) : Option (Bytes × Nat) :=
  if isRsa aset then
    match fixedItem p off 8 with
    | some (w, _) =>
      let k := leAt w 0 4
      if [256, 384, 512].contains k ∧ allZero w 4 4 then fixedItem p off (k + 12) else none
    | none => none
  else fixedItem p off (pubLen aset)

/-- The signature item of a set: for RSA and LMS-HSS a variable item (R364). -/
def sigItem (p : Bytes) (aset : Nat) (pub : Bytes) (off : Nat) : Option (Bytes × Nat) :=
  if isRsa aset then
    match varItem p off with
    | some (s, e) => if s.length = leAt pub 0 4 then some (s, e) else none
    | none => none
  else if aset = 0x20 then varItem p off
  else fixedItem p off (sigLen aset)

/-- The items of a command (R364); none where they do not fit the block. -/
def pkItems (code : Nat) (p : Bytes) : Option PkItems :=
  let h := pkHead p
  let none_ : PkItems := { blob := [], pub := [], sig := [], ctx := [], msg := [], tmpl := [] }
  let hashed (m : Bytes) : Bool := !h.prehash || algLen h.hash == some m.length
  if code = 0x40 then do
    let (blob, e) ← fixedItem p 16 144
    if itemsEnd p e then some { none_ with blob := blob } else none
  else if code = 0x41 then do
    let (blob, e) ← fixedItem p 16 144
    let (ctx, e) ← maybeItem p e h.ctxLen
    let msg ← lastItem p e h.msgLen
    if hashed msg then some { none_ with blob := blob, ctx := ctx, msg := msg } else none
  else if code = 0x42 then do
    let (pub, e) ← pubItem p h.aset 16
    let (sig, e) ← sigItem p h.aset pub e
    let (ctx, e) ← maybeItem p e h.ctxLen
    let msg ← lastItem p e h.msgLen
    if hashed msg then some { none_ with pub := pub, sig := sig, ctx := ctx, msg := msg } else none
  else if code = 0x43 then do
    let (blob, e) ← fixedItem p 16 144
    let (peer, e) ← fixedItem p e (pubLen h.aset)
    let (tmpl, e) ← fixedItem p e 32
    if itemsEnd p e then some { none_ with blob := blob, pub := peer, tmpl := tmpl } else none
  else if code = 0x44 then do
    let (ek, e) ← fixedItem p 16 (pubLen h.aset)
    let (tmpl, e) ← fixedItem p e 32
    if itemsEnd p e then some { none_ with pub := ek, tmpl := tmpl } else none
  else do
    let (blob, e) ← fixedItem p 16 144
    let (ct, e) ← fixedItem p e (sigLen h.aset)
    let (tmpl, e) ← fixedItem p e 32
    if itemsEnd p e then some { none_ with blob := blob, sig := ct, tmpl := tmpl } else none

/-! ### Judging a command (R366, R367) -/

/-- Owner keys are there for the commands of R279 and R364: TEST to RETURN, and R28, R31. -/
def keyCommandsRun (b : Block) : Bool := ownerKeys b && decide (1 ≤ b.run.lcs) && decide (b.run.lcs ≤ 4)

/-- The usage a command asks of its blob (R364). -/
def pkUsageOk (code usage : Nat) : Bool :=
  if code = 0x41 then bit usage useSign
  else if code = 0x43 then bit usage useDerive
  else if code = 0x45 then bit usage useUnwrap || bit usage useDerive
  else true

/-- The template of a shared secret (R364). -/
def pkTmplOk (aset : Nat) (t : Bytes) : Bool := templateOk t && hType t == 8 && hKeyLen t == secretLen aset

/-- Output length of a command. -/
def pkOutLen (code aset : Nat) : Nat :=
  if code = 0x40 then pubLen aset
  else if code = 0x41 then sigLen aset
  else if code = 0x42 then 0
  else if code = 0x44 then sigLen aset + 144
  else 144

/-- What a command is refused for, and RESULT; or its items with the private key that its blob holds. -/
def pkJudge (b : Block) (code : Nat) (h : HsmJob) : Except NoKey (PkItems × Bytes) :=
  let p := bkParam h.block
  let hd := pkHead p
  if code ≠ 0x42 ∧ keyCommandsRun b = false then .error (.refused 0x0408 0)
  else if pkHeadBad code p then .error (.refused 0x0401 0)
  else if pkModeBad code hd then .error (.refused 0x0402 0)
  else match pkItems code p with
    | none => .error (.refused 0x0401 0)
    | some it =>
      let hasTmpl := decide (0x43 ≤ code)
      if hasTmpl && !pkTmplOk hd.aset it.tmpl then .error (.refused 0x0406 0)
      else if hasTmpl && hOwner it.tmpl != bkAuth h.block then .error (.refused 0x0303 0)
      else
        let key : Except NoKey Bytes :=
          if it.blob = [] then .ok []
          else match commandBlob b 0x0403 (reqFn h.req) h.world it.blob with
            | .error e => .error e
            | .ok k =>
              if asetOf (hType it.blob) = some hd.aset ∧ pkUsageOk code (hUsage it.blob) = true then .ok k
              else .error (.refused 0x0404 0)
        match key with
        | .error e => .error e
        | .ok k =>
          if (it.pub ≠ [] ∧ pkValid hd.aset it.pub = false) ∨ (code = 0x42 ∧ pkSigValid hd.aset it.sig = false) then .error (.refused 0x0405 0)
          else if hd.outCap < pkOutLen code hd.aset then .error (.refused 0x0407 (pkOutLen code hd.aset))
          else .ok (it, k)

/-! ### On the engine (R360) -/

/-- The unit that runs a set. -/
def pkUnitOf (aset : Nat) : UnitId := if onLattice aset then .pkLat else .pkMod

/-- Change a command that the keeper holds. -/
def onHsm (id : Nat) (f : HsmJob → HsmJob) (b : Block) : Block :=
  b.onKpr (fun k => { k with hsm := k.hsm.map (fun h => if h.id = id then f h else h) })

/-- A class 1 job is queued on its unit; the command waits while the class is full. A FAILED unit ends it (R367). -/
def pkSubmit (u : UnitId) (h : HsmJob) (note : Bytes) (b : Block) : Block :=
  let p := pkAt b u
  if p.state = .failed then hsmFinish h stEngineAlarm (unitDetail u) 0 [] b
  else if 32 ≤ p.queue.countP (fun q => q.2 != 0) then b
  else
    pkNext u (onPk u (fun p => { p with queue := p.queue ++ [(h.id, 1)] })
      (onHsm h.id (fun h => { h with stage := .engine, note := note }) b))

/-- Random bytes that a command draws: for a signature that is not deterministic, or an encapsulation (R362, R365, R372). -/
def pkRndLen (b : Block) (code : Nat) (hd : PkHead) : Nat :=
  if code = 0x41 then (if hd.deterministic || decide (b.rng.state = .failed) then 0 else signRndLen hd.aset)
  else if code = 0x44 then 32
  else 0

/-- The KEK of a command's own blob. -/
def pkBlobKek (it : PkItems) (h : HsmJob) (b : Block) : Block :=
  if it.blob = [] then b else commandKek (reqFn h.req) h.world it.blob b

/-- The KEK under which a command will wrap its output, held from its start: KEYS_LOCKED may set while it runs (R263, R283). -/
def pkKek (code : Nat) (it : PkItems) (b : Block) : Block := if 0x43 ≤ code then holdKek (hOwner it.tmpl) b.key.epoch b else b

/-- The owner KEK of the blob that a command opens is held (R263): where the command fails no later than at its blob, if it gets that far. -/
def pkOpened (code : Nat) (h : HsmJob) (b : Block) : Block :=
  match pkJudge b code h, pkItems code (bkParam h.block) with
  | .error (.refused r _), some it =>
    if [0x0404, 0x0405, 0x0407].contains r || (r == 0x0403) then pkBlobKek it h b else b
  | .ok _, some it => pkBlobKek it h b
  | _, _ => b

/-- A public-key command, judged and handed to its unit with its key and its random bytes. -/
def pkCommand (code : Nat) (h : HsmJob) (b : Block) : Block :=
  match pkJudge b code h with
  | .error e => hsmNoKey h e (pkOpened code h b)
  | .ok (it, key) =>
    let hd := pkHead (bkParam h.block)
    if 32 ≤ (pkAt b (pkUnitOf hd.aset)).queue.countP (fun q => q.2 != 0) then b
    else
      let b := pkKek code it (pkOpened code h b)
      let r := if code = 0x44 then drawSeed 32 b else draw1 (pkRndLen b code hd) b
      pkSubmit (pkUnitOf hd.aset) h (key ++ r.1) (if pkRndLen b code hd = 0 then b else r.2)

/-- What a command asks of the random source. -/
def pkRandomness (code : Nat) (h : HsmJob) : Randomness :=
  let hd := pkHead (bkParam h.block)
  if code = 0x41 then (if hd.deterministic || signRndLen hd.aset == 0 then .none else .signs)
  else if 0x43 ≤ code then .needed
  else .none

/-- A signature has been released (PKE_SIGNS). -/
def countSign (b : Block) : Block := b.onPke (fun p => { p with signs := sat32 (p.signs + 1) })

/-- A verification has run (PKE_VERIFIES). -/
def countVerify (b : Block) : Block := b.onPke (fun p => { p with verifies := sat32 (p.verifies + 1) })

/-- The effect of a command whose engine job has ended. -/
def pkResult (h : HsmJob) (b : Block) : Block :=
  let code := bkCommand h.block
  let hd := pkHead (bkParam h.block)
  match pkItems code (bkParam h.block) with
  | none => b
  | some it =>
    let key := h.note.take (privLen hd.aset)
    let blobOf (secret : Bytes) (front : Bytes) : Block :=
      let r := makeBlob it.tmpl secret b
      hsmCommit h 0x030D (front.length + 144) (front ++ r.1) r.2 b
    if code = 0x40 then hsmOk h (pubLen hd.aset) (pkPublic hd.aset key) b
    else if code = 0x41 then
      hsmOk h (sigLen hd.aset) (pkSign hd.aset key hd.prehash hd.hash it.ctx it.msg (h.note.drop (privLen hd.aset))) (countSign b)
    else if code = 0x42 then
      hsmOk h (b2n (pkVerify hd.aset it.pub hd.prehash hd.hash it.ctx it.msg it.sig)) [] (countVerify b)
    else if code = 0x43 then blobOf (pkAgree hd.aset key it.pub) []
    else if code = 0x44 then
      let r := kemEncaps hd.aset it.pub h.note
      blobOf r.1 r.2
    else blobOf (kemDecaps hd.aset key it.sig) []

/-- A public-key unit ends its job, and takes the next. A command that produces a blob waits for the random source, or ends with
ENGINE_ALARM once that is FAILED (R372). -/
def pkJobDone (u : UnitId) (b : Block) : Block :=
  if (u ≠ .pkMod ∧ u ≠ .pkLat) ∨ (pkAt b u).state ≠ .busy then b
  else
    let free (b : Block) : Block := pkNext u (onPk u (fun p => { p with state := .idle, running := none }) b)
    match b.kpr.hsm.find? (fun h => some h.id == (pkAt b u).running) with
    | none => settleAll (free b)
    | some h =>
      if hsmOrphan b h then settleAll (free (dropKeks (b.onKpr (fun k => { k with hsm := k.hsm.filter (fun x => x.id != h.id) }))))
      else if bkCommand h.block < 0x43 ∨ b.rng.state = .ready then settleAll (free (pkResult h b))
      else if b.rng.state = .failed then settleAll (free (hsmFinish h stEngineAlarm 0x0601 0 [] b))
      else b

/-- A public-key command of a bound function. -/
def pkRun (code id : Nat) : Block → Block :=
  hsmRun code id (fun h b => ruleBound b h.req h.block) (pkRandomness code) (fun h _ b => pkCommand code h b)

/-- PK_VERIFY: from any function, for no authority. -/
def pkVerifyRun (id : Nat) : Block → Block :=
  hsmRun 0x42 id (fun h _ => { ruleAny h.block with sender := isFn h.req }) (pkRandomness 0x42) (fun h _ b => pkCommand 0x42 h b)

/-! ### The commands -/

/-- PK_PUBLIC (R364). -/
def execPkPublic (job : Nat) (s : State) : Host.Outcome State Fault Refusal := .next { s with blk := pkRun 0x40 job s.blk }

/-- PK_SIGN (R364). -/
def execPkSign (job : Nat) (s : State) : Host.Outcome State Fault Refusal := .next { s with blk := pkRun 0x41 job s.blk }

/-- PK_VERIFY (R364). -/
def execPkVerify (job : Nat) (s : State) : Host.Outcome State Fault Refusal :=
  .next { s with blk := pkVerifyRun job s.blk }

/-- PK_AGREE (R364). -/
def execPkAgree (job : Nat) (s : State) : Host.Outcome State Fault Refusal := .next { s with blk := pkRun 0x43 job s.blk }

/-- KEM_ENCAP (R364). -/
def execKemEncap (job : Nat) (s : State) : Host.Outcome State Fault Refusal := .next { s with blk := pkRun 0x44 job s.blk }

/-- KEM_DECAP (R364). -/
def execKemDecap (job : Nat) (s : State) : Host.Outcome State Fault Refusal := .next { s with blk := pkRun 0x45 job s.blk }

/-- PKE_JOB_DONE (R360). -/
def execPkeJobDone (unit : UnitId) (s : State) : Host.Outcome State Fault Refusal := .next { s with blk := pkJobDone unit s.blk }

end Sys2Proof.Machine
end

