-- ==== Sys2Proof/Machine/Identity.lean ====
section
/-! DEFINITION. Identities of the stack and what the Alias keys sign (R155 to R163). -/

namespace Sys2Proof.Machine

/-! ### Compound device identifiers (R155, R261) -/

/-- The physically unclonable secret. -/
def pusBytes : Bytes := (List.range 32).map Config.pus

/-- The life-cycle constant of a state (R78). -/
def lcsConst (lcs : Nat) : Bytes := (List.range 32).map (Config.lcsConstant lcs)

/-- The ROM measurement (R155). -/
def romDigest : Bytes := (List.range 48).map Config.romMeasurement

/-- The manufacturing CDI: the same in every state from TEST onward. -/
def mfgCdiOf : Bytes := kdf pusBytes "JKH deviceid cdi" (lcsConst 1 ++ romDigest) 32

/-- The ECDSA P-384 private key of a CDI (R156). -/
def cdiEc (cdi : Bytes) : Bytes := pkPriv 0x02 (kdf cdi "JKH ecdsa p384" [] 56)

/-- The ML-DSA-65 seed of a CDI (R156). -/
def cdiDsa (cdi : Bytes) : Bytes := kdf cdi "JKH mldsa65" [] 32

/-- Both public keys of a CDI: ECDSA P-384 (97 bytes), then ML-DSA-65 (1,952 bytes). -/
def cdiPub (cdi : Bytes) : Bytes := pkPublic 0x02 (cdiEc cdi) ++ pkPublic 0x11 (cdiDsa cdi)

/-- The CDI of the certificate chain's root: the manufacturing ID, in BLANK the DeviceID (R159). -/
def rootCdi (b : Block) : Bytes := if b.run.lcs = 0 then b.key.deviceIdCdi.getD [] else mfgCdiOf

/-- The UEID (R160), 33 bytes. -/
def ueid (b : Block) : Bytes := [0x01] ++ (sha384 (pkPublic 0x02 (cdiEc (rootCdi b)))).take 32

/-- The Alias CDI in force. -/
def aliasCdi (b : Block) : Bytes := b.key.aliasCdi.getD []

/-- Both Alias public keys. -/
def aliasPub (b : Block) : Bytes := cdiPub (aliasCdi b)

/-! ### Signatures (R163, R372) -/

/-- A hybrid signature by the Alias keys: ECDSA with k, ML-DSA-65 with rnd, from DRBG instance 1; deterministic while the random source is
FAILED. -/
def aliasSign (msg : Bytes) (b : Block) : Bytes × Block :=
  let cdi := aliasCdi b
  let r := if b.rng.state = .failed then ([], event 0x2C2 0 b) else draw1 (56 + 32) b
  let b := countSign (countSign r.2)
  (pkSign 0x02 (cdiEc cdi) false 0x02 [] msg (r.1.take 56) ++ pkSign 0x11 (cdiDsa cdi) false 0 [] msg (r.1.drop 56), b)

/-- A payload in the envelope of R163. -/
def aliasCose (payload : Bytes) (b : Block) : Bytes × Block :=
  let prot := coseProtected (kidOf (aliasPub b))
  let r := aliasSign (coseToSign prot payload) b
  (coseSign1 prot payload r.1, r.2)

/-- A unit of the public-key engine that a hybrid signature or check needs is FAILED (R367). -/
def hybridDead (b : Block) : Option UnitId :=
  if b.pke.mod.state = .failed then some .pkMod else if b.pke.lat.state = .failed then some .pkLat else none

end Sys2Proof.Machine
end

