-- ==== Sys2Proof/Machine/KeyBlock.lean ====
section
/-! DEFINITION. X9.143 key blocks, version D (R281). The key block format itself is PRESUMED, assumption 16 from X9.143. -/

namespace Sys2Proof.Machine

/-- Decimal digits of a number, `n` of them. -/
def decDigits (n v : Nat) : Bytes := (List.range n).map (fun i => BitVec.ofNat 8 (48 + v / 10 ^ (n - 1 - i) % 10))

/-- The number that decimal digits spell. -/
def decNat (bs : Bytes) : Option Nat :=
  bs.foldl (fun acc c => match acc with
    | some v => if 48 ≤ c.toNat ∧ c.toNat ≤ 57 then some (10 * v + (c.toNat - 48)) else none
    | none => none) (some 0)

/-- A hexadecimal digit, upper case. -/
def hexDigit (v : Nat) : Byte := BitVec.ofNat 8 (if v < 10 then 48 + v else 55 + v)

/-- Bytes in upper-case hexadecimal. -/
def hexOf (bs : Bytes) : Bytes := bs.flatMap (fun b => [hexDigit (b.toNat / 16), hexDigit (b.toNat % 16)])

/-- The value of a hexadecimal digit, upper case. -/
def hexVal (c : Byte) : Option Nat :=
  let v := c.toNat
  if 48 ≤ v ∧ v ≤ 57 then some (v - 48) else if 65 ≤ v ∧ v ≤ 70 then some (v - 55) else none

/-- Bytes from upper-case hexadecimal. -/
def hexBytes : Bytes → Option Bytes
  | [] => some []
  | a :: b :: rest =>
    match hexVal a, hexVal b, hexBytes rest with
    | some x, some y, some r => some (BitVec.ofNat 8 (16 * x + y) :: r)
    | _, _, _ => none
  | _ => none

/-- A key derived from the key block protection key: usage 0 encryption, 1 authentication. -/
def kbDerive (kbpk : Bytes) (usage : Nat) : Bytes :=
  let part (i : Nat) : Bytes := cmac kbpk ([BitVec.ofNat 8 i] ++ bePut 2 usage ++ [0x00] ++ bePut 2 4 ++ bePut 2 256)
  part 1 ++ part 2

/-- A parsed header: usage (two characters), algorithm, mode of use, exportability. -/
structure KbHead where
  usage : Bytes
  alg   : Byte
  mode  : Byte
  exp   : Byte
  deriving DecidableEq, Repr

/-- Optional blocks, `n` of them: PB alone is supported. Where they end. -/
def kbOptional (kb : Bytes) : Nat → Nat → Option Nat
  | 0, off => some off
  | n + 1, off =>
    if (kb.drop off).take 2 ≠ ascii "PB" then none
    else match hexBytes (slice kb (off + 2) 2) with
      | some [l] => if 4 ≤ l.toNat ∧ off + l.toNat ≤ kb.length then kbOptional kb n (off + l.toNat) else none
      | _ => none

/-- The header of a key block and where the encrypted part begins; none where the block is malformed or uses an option that R281 does not
support. -/
def kbParse (kb : Bytes) : Option (KbHead × Nat) :=
  let h : KbHead := { usage := slice kb 5 2, alg := byteAt kb 7, mode := byteAt kb 8, exp := byteAt kb 11 }
  let ctx := byteAt kb 14
  match decNat (slice kb 12 2) with
  | none => none
  | some n =>
    match kbOptional kb n 16 with
    | none => none
    | some off =>
      if kb.length < 16 ∨ byteAt kb 0 ≠ 0x44 ∨ decNat (slice kb 1 4) ≠ some kb.length ∨ slice kb 9 2 ≠ ascii "00" ∨
          ¬(ctx = 0x30 ∨ ctx = 0x32) ∨ byteAt kb 15 ≠ 0x30 ∨ off % 16 ≠ 0 ∨ kb.length < off + 64 ∨ (kb.length - off) % 32 ≠ 0 then none
      else if ¬([ascii "D0", ascii "K0", ascii "K1", ascii "M6", ascii "M7"].contains h.usage) then none
      else if ¬(h.alg = 0x41 ∨ h.alg = 0x48) then none
      else if ¬(h.exp = 0x45 ∨ h.exp = 0x4E ∨ h.exp = 0x53) then none
      else if (hexBytes (kb.drop off)).isNone then none
      else some (h, off)

/-- Decrypt and authenticate: the key. -/
def kbOpen (kbpk kb : Bytes) (off : Nat) : Option Bytes :=
  let body := (hexBytes (kb.drop off)).getD []
  let ct := body.take (body.length - 16)
  let mac := body.drop (body.length - 16)
  let pt := (cbcDec (aesRoundKeys (kbDerive kbpk 0)) mac ct).1
  let bitLen := beAt pt 0 2
  if cmac (kbDerive kbpk 1) (kb.take off ++ pt) = mac ∧ bitLen % 8 = 0 ∧ bitLen / 8 + 2 ≤ pt.length then some (slice pt 2 (bitLen / 8)) else none

/-- The key type that usage, algorithm and key length map to (R281). -/
def kbType (h : KbHead) (n : Nat) : Option Nat :=
  let aes : Option Nat := if n = 16 then some 0x01 else if n = 32 then some 0x02 else none
  if h.usage = ascii "D0" ∧ h.alg = 0x41 then aes
  else if (h.usage = ascii "K0" ∨ h.usage = ascii "K1") ∧ h.alg = 0x41 then (if n = 32 then some 0x07 else none)
  else if h.usage = ascii "M6" ∧ h.alg = 0x41 then aes
  else if h.usage = ascii "M7" ∧ h.alg = 0x48 then some 0x05
  else none

/-- The USAGE that mode of use and exportability map to (R281). -/
def kbUsage (h : KbHead) : Option Nat :=
  let e := if h.exp = 0x45 then 2 ^ useExportable else 0
  let two (a b : Nat) : Option Nat :=
    if h.mode = 0x42 then some (2 ^ a + 2 ^ b + e) else if h.mode = 0x45 then some (2 ^ a + e)
    else if h.mode = 0x44 then some (2 ^ b + e) else none
  if h.usage = ascii "D0" then two useEncrypt useDecrypt
  else if h.usage = ascii "K0" ∨ h.usage = ascii "K1" then two useWrap useUnwrap
  else if h.mode = 0x43 then some (2 ^ useMac + e) else none

/-- Usage, algorithm and mode of use that map back to a type and USAGE on export (R281); a KEK is exported as K0. -/
def kbAttrs (t usage : Nat) : Option (Bytes × Byte × Byte) :=
  let mode (a b : Nat) : Option Byte :=
    if usage &&& 0x1F = 2 ^ a + 2 ^ b then some 0x42 else if usage &&& 0x1F = 2 ^ a then some 0x45
    else if usage &&& 0x1F = 2 ^ b then some 0x44 else none
  if t = 0x01 ∨ t = 0x02 then
    match mode useEncrypt useDecrypt with
    | some m => some (ascii "D0", 0x41, m)
    | none => if usage &&& 0x1F = 2 ^ useMac then some (ascii "M6", 0x41, 0x43) else none
  else if t = 0x07 then (mode useWrap useUnwrap).map (fun m => (ascii "K0", 0x41, m))
  else if t = 0x05 ∧ usage &&& 0x1F = 2 ^ useMac then some (ascii "M7", 0x48, 0x43)
  else none

/-- Bytes of padding that a key of `n` bytes takes in the encrypted part. -/
def kbPadLen (n : Nat) : Nat := (16 - (n + 2) % 16) % 16

/-- Length of an exported key block. -/
def kbLen (n : Nat) : Nat := 16 + 2 * (n + 2 + kbPadLen n) + 32

/-- An exported key block (R281): no optional block, not exportable further, key context 2. -/
def kbSeal (kbpk key pad : Bytes) (a : Bytes × Byte × Byte) : Bytes :=
  let pt := bePut 2 (8 * key.length) ++ key ++ pad
  let head := ascii "D" ++ decDigits 4 (kbLen key.length) ++ a.1 ++ [a.2.1, a.2.2] ++ ascii "00N00" ++ ascii "20"
  let mac := cmac (kbDerive kbpk 1) (head ++ pt)
  head ++ hexOf (cbcEnc (aesRoundKeys (kbDerive kbpk 0)) mac pt).1 ++ hexOf mac

end Sys2Proof.Machine
end

