-- ==== Sys2Proof/Machine/Keys.lean ====
section
/-! DEFINITION. The key commands of the keeper (R278 to R283, R394, R530). -/

namespace Sys2Proof.Machine

/-! ### What every key command asks (R279, R282) -/

/-- Reasons 0x0305 and 0x0306: the life-cycle state, then KEYS_LOCKED and the domain root. -/
def keyGate (b : Block) (states : List Nat) : Option Nat :=
  if states.contains b.run.lcs = false then some 0x0305 else if ownerKeys b = false then some 0x0306 else none

/-- TEST to RETURN. -/
def lcsAny : List Nat := [1, 2, 3, 4]

/-- PROVISION, PRODUCTION. -/
def lcsField : List Nat := [2, 3]

/-- A slot index of owner keys. -/
def ownerSlot (i : Nat) : Bool := decide (8 ≤ i) && decide (i ≤ 63)

/-! ### ATTR of key slots (R273) -/

/-- ATTR in the form of a blob header. -/
def attrHeader (a : Bytes) : Bytes :=
  lePut 4 0x4A4B4231 ++ [0x01] ++ slice a 1 7 ++ slice a 0x0A 2 ++ zeros 2 ++ slice a 9 1 ++ slice a 8 1 ++ zeros 14

/-- ATTR without GEN is well formed. -/
def attrOk (a : Bytes) : Bool :=
  allZero a 0 1 && allZero a 0x0C 4 && templateOk (attrHeader a) && decide (hKeyLen (attrHeader a) ≤ 64)

/-! ### Keys that a command names -/

/-- A key with the header fields of its blob or slot. -/
structure NamedKey where
  key  : Bytes
  head : Bytes
  deriving DecidableEq, Repr

/-- The key of a blob; why it does not open. -/
def blobNamed (b : Block) (h : HsmJob) (blob : Bytes) : Except NoKey NamedKey :=
  match commandBlob b 0x030E (reqFn h.req) h.world blob with
  | .error e => .error e
  | .ok k => .ok { key := k, head := blob.take 32 }

/-- The key of an owner slot. -/
def slotNamed (b : Block) (i : Nat) : Except NoKey NamedKey :=
  match slotKey b i with
  | none => .error (.refused 0x0308 0)
  | some (k, a) => if unwrapDead b then .error .dead else .ok { key := k, head := attrHeader a }

/-- A key named by slot index, or, with index 0, by a blob. -/
def eitherNamed (b : Block) (h : HsmJob) (i : Nat) (blob : Bytes) : Except NoKey NamedKey :=
  if i = 0 then blobNamed b h blob else slotNamed b i

/-- A slot that a command looks at and finds CORRUPT is counted (R274). -/
def slotFound (i : Nat) (b : Block) : Block := if slotState b i = .corrupt then noteCorrupt i b else b

/-- What opening a named blob does: its owner KEK is held. -/
def blobOpened (h : HsmJob) (blob : Bytes) (b : Block) : Block := commandKek (reqFn h.req) h.world blob b

/-- What opening a key named by slot index or by a blob does. -/
def eitherOpened (h : HsmJob) (i : Nat) (blob : Bytes) (b : Block) : Block := if i = 0 then blobOpened h blob b else slotFound i b

/-- An XTS key whose two halves are equal (R309). -/
def xtsTwin (t : Nat) (key : Bytes) : Bool := t == 3 && key.take 32 == key.drop 32

/-- REQ, WORLD_MASK and LCS_MASK of a named key allow the requester. -/
def namedAllowed (b : Block) (h : HsmJob) (k : NamedKey) : Bool :=
  reqAllowed b k.head (reqFn h.req) && bit (hWorld k.head) (b2n h.world) && bit (hLcs k.head) b.run.lcs

/-- A named key has a type and a usage bit, for this requester. -/
def namedFits (b : Block) (h : HsmJob) (k : NamedKey) (type use : Nat) : Bool :=
  hType k.head == type && bit (hUsage k.head) use && namedAllowed b h k

/-- A KEK blob follows only an index of 0. -/
def kekItem (p : Bytes) (i : Nat) : Option (Bytes × Nat) := if i = 0 then fixedItem p 8 144 else some ([], 8)

/-- The unit that makes the public key of an asymmetric type is FAILED. -/
def asymDead (b : Block) (t : Nat) : Option UnitId :=
  (asetOf t).bind (fun a => if (pkAt b (pkUnitOf a)).state = .failed then some (pkUnitOf a) else none)

/-- A symmetric key from the DRBG; an XTS key is drawn again until its halves differ (R309), 16 times at most: equal halves after that are
refused as in a key from outside (DESIGN CHOICE, assumption 10). -/
def drawKey (t n : Nat) : Nat → Block → Bytes × Block
  | 0, b => drawSeed n b
  | fuel + 1, b =>
    let r := drawSeed n b
    if xtsTwin t r.1 then drawKey t n fuel r.2 else r

/-- A key of a template from the DRBG (R370): for an asymmetric type a private key of it. -/
def freshKey (t n : Nat) (b : Block) : Bytes × Block :=
  match asetOf t with
  | some a => let r := drawSeed (privSeedLen a) b; (pkPriv a r.1, r.2)
  | none => drawKey t n 15 b

/-- The public key of a key of a type; nothing for a symmetric one. -/
def publicOf (t : Nat) (key : Bytes) : Bytes :=
  match asetOf t with
  | some a => pkPublic a key
  | none => []

/-- The blob of a key under a template, as the command's output after `back`; BLOB_LIMIT may have to be committed first (R272). An XTS key with
equal halves is refused (R309). -/
def giveBlob (h : HsmJob) (tmpl key back : Bytes) (b : Block) : Block :=
  if xtsTwin (hType tmpl) key then hsmFail h 0x0302 0 b
  else
    let r := makeBlob tmpl key b
    hsmCommit h 0x030D (144 + back.length) (r.1 ++ back) r.2 b

/-- A key goes into a slot with ATTR, `out` as the command's output; an XTS key with equal halves is refused (R309). -/
def giveSlot (h : HsmJob) (i : Nat) (key attr out : Bytes) (b : Block) : Block :=
  if xtsTwin (hType (attrHeader attr)) key then hsmFail h 0x0302 0 b
  else hsmCommit h 0x030D i out (commitSlot i key attr b) b

/-- The template of a command, with the owner in AUTHORITY: reasons 0x0302 and 0x0303. -/
def tmplBad (h : HsmJob) (t : Bytes) : Option Nat :=
  if templateOk t = false then some 0x0302 else if hOwner t ≠ bkAuth h.block then some 0x0303 else none

/-! ### KEY_GENERATE, KEY_DERIVE -/

/-- KEY_GENERATE (R279): a template alone. -/
def keyGenerate (h : HsmJob) (b : Block) : Block :=
  let p := bkParam h.block
  match keyGate b lcsAny, fixedItem p 0 32 with
  | some r, _ => hsmFail h r 0 b
  | none, none => hsmFail h 0x0301 0 b
  | none, some (t, e) =>
    if itemsEnd p e = false then hsmFail h 0x0301 0 b
    else match tmplBad h t, asymDead b (hType t) with
      | some r, _ => hsmFail h r 0 b
      | none, some u => hsmFinish h stEngineAlarm (unitDetail u) 0 [] b
      | none, none =>
        let k := freshKey (hType t) (hKeyLen t) b
        giveBlob h t k.1 (publicOf (hType t) k.1) k.2

/-- KEY_DERIVE (R261, R279, R530). -/
def keyDerive (h : HsmJob) (b : Block) : Block :=
  let p := bkParam h.block
  let i := leAt p 0 1
  let items : Option (Bytes × Bytes × Bytes) := do
    let (blob, e) ← kekItem p i
    let (t, e) ← fixedItem p e 32
    let (c, e) ← varItem p e
    if itemsEnd p e && decide (c.length ≤ 64) && allZero p 1 3 && decide (8 ≤ p.length) then some (blob, t, c) else none
  match keyGate b lcsAny, items with
  | some r, _ => hsmFail h r 0 b
  | none, none => hsmFail h 0x0301 0 b
  | none, some (blob, t, c) =>
    if i ≠ 0 ∧ ownerSlot i = false then hsmFail h 0x0307 0 b
    else match tmplBad h t, eitherNamed b h i blob with
      | some r, _ => hsmFail h r 0 b
      | none, .error e => hsmNoKey h e (eitherOpened h i blob b)
      | none, .ok k =>
        let b := eitherOpened h i blob b
        if hOwner k.head ≠ hOwner t then hsmFail h 0x0303 0 b
        else if namedFits b h k 0x08 useDerive = false then hsmFail h 0x0309 0 b
        else if leAt p 4 4 < 144 then hsmFail h 0x030F 144 b
        else giveBlob h t (kdf k.key "JKH owner derive" (slice t 4 16 ++ c) (hKeyLen t)) [] b

/-! ### Imports under an import session (R280) -/

/-- The private keys of an import session: the ML-KEM-1024 seed, the ECDH P-384 key. -/
def importKeys (s : ImportSession) : Bytes × Bytes := (s.seed.take 64, pkPriv 0x05 (s.seed.drop 64))

/-- IMPORT_SESSION (R280): it replaces an earlier one. -/
def importSession (h : HsmJob) (b : Block) : Block :=
  match keyGate b [2] with
  | some r => hsmFail h r 0 b
  | none =>
    if bkParam h.block ≠ [] then hsmFail h 0x0301 0 b
    else match hybridDead b with
      | some u => hsmFinish h stEngineAlarm (unitDetail u) 0 [] b
      | none =>
        let r := drawSeed 120 b
        let sid := b.key.nextImport
        let s : ImportSession := { sid := sid, seed := r.1, opened := b.time.secs }
        let b := r.2.onKey (fun k => { k with imp := some s, nextImport := k.nextImport % (2 ^ 32 - 1) + 1 })
        let keys := importKeys s
        let out := aliasCose (cborPut (cborMap [(1, .bytes (pkPublic 0x19 keys.1)), (2, .bytes (pkPublic 0x05 keys.2)), (3, .uint sid)])) b
        hsmOk h sid out.1 out.2

/-- The import session has lasted 600 s (R280). -/
def importExpiry (b : Block) : Block := b.onKey (fun k => { k with imp := none })

/-- The key in a transport envelope (R280): reason 0x030B where the session is unknown or expired, or the tag fails. -/
def openEnvelope (b : Block) (sid n : Nat) (aad env : Bytes) : Option Bytes :=
  match b.key.imp with
  | none => none
  | some s =>
    if s.sid ≠ sid ∨ s.opened + 600 ≤ b.time.secs then none
    else
      let keys := importKeys s
      let ct := env.take 1568
      let qi := slice env 0x620 97
      if pkValid 0x05 qi = false then none
      else
        let secret := kemDecaps 0x19 keys.1 ct ++ pkAgree 0x05 keys.2 qi
        let tk := kdf secret "JKH import transport"
          (sha384 (pkPublic 0x19 keys.1 ++ pkPublic 0x05 keys.2 ++ ct ++ qi)) 32
        gcmOpen tk (slice env 0x684 12) aad (slice env 0x690 n) (slice env (0x690 + n) 16)

/-- The ephemeral keys go after the first import that names the session (R280). -/
def importUsed (sid : Nat) (b : Block) : Block :=
  match b.key.imp with
  | some s => if s.sid = sid then importExpiry b else b
  | none => b

/-- IMPORT_BLOB_CLEAR: session number and 4 zero bytes, template, envelope. -/
def importBlob (h : HsmJob) (b : Block) : Block :=
  let p := bkParam h.block
  let sid := leAt p 0 4
  let items : Option (Bytes × Bytes) := do
    let (t, e) ← fixedItem p 8 32
    let (env, e) ← fixedItem p e (0x690 + hKeyLen t + 16)
    if itemsEnd p e && allZero p 4 4 && allZero env 0x681 3 then some (t, env) else none
  match keyGate b [2], items with
  | some r, _ => hsmFail h r 0 b
  | none, none => hsmFail h 0x0301 0 b
  | none, some (t, env) =>
    match tmplBad h t, openEnvelope b sid (hKeyLen t) t env with
    | some r, _ => hsmFail h r 0 b
    | none, none => hsmFail h 0x030B 0 b
    | none, some key => giveBlob h t key [] b

/-- Reasons 0x0307, 0x0302 and 0x0303 for a slot and the ATTR it is to have, and for the owner it has now. -/
def slotBad (b : Block) (h : HsmJob) (i : Nat) (a : Bytes) : Option Nat :=
  if ownerSlot i = false then some 0x0307
  else if attrOk a = false then some 0x0302
  else if hOwner (attrHeader a) ≠ bkAuth h.block then some 0x0303
  else match slotState b i, slotKey b i with
    | .corrupt, _ => some 0x0308
    | _, some (_, old) => if hOwner (attrHeader old) ≠ bkAuth h.block then some 0x0303 else none
    | _, none => none

/-- A CORRUPT slot behind reason 0x0308 is counted (R274). -/
def slotJudged (reason i : Nat) (b : Block) : Block := if reason = 0x0308 then slotFound i b else b

/-- IMPORT_SLOT_CLEAR: session number, slot and 3 zero bytes, ATTR, envelope. -/
def importSlot (h : HsmJob) (b : Block) : Block :=
  let p := bkParam h.block
  let sid := leAt p 0 4
  let i := leAt p 4 1
  let items : Option (Bytes × Bytes) := do
    let (a, e) ← fixedItem p 8 16
    let (env, e) ← fixedItem p e (0x690 + leAt a 3 1 + 16)
    if itemsEnd p e && allZero p 5 3 && allZero env 0x681 3 then some (a, env) else none
  match keyGate b [2], items with
  | some r, _ => hsmFail h r 0 b
  | none, none => hsmFail h 0x0301 0 b
  | none, some (a, env) =>
    match slotBad b h i a, openEnvelope b sid (leAt a 3 1) a env with
    | some r, _ => hsmFail h r 0 (slotJudged r i b)
    | none, none => hsmFail h 0x030B 0 b
    | none, some key => giveSlot h i key a [] b

/-! ### Key slots -/

/-- SLOT_GENERATE: slot and 7 zero bytes, ATTR. -/
def slotGenerate (h : HsmJob) (b : Block) : Block :=
  let p := bkParam h.block
  let i := leAt p 0 1
  match keyGate b lcsField, fixedItem p 8 16 with
  | some r, _ => hsmFail h r 0 b
  | none, none => hsmFail h 0x0301 0 b
  | none, some (a, e) =>
    if (itemsEnd p e && allZero p 1 7) = false then hsmFail h 0x0301 0 b
    else
      let t := hType (attrHeader a)
      match slotBad b h i a, asymDead b t with
      | some r, _ => hsmFail h r 0 (slotJudged r i b)
      | none, some u => hsmFinish h stEngineAlarm (unitDetail u) 0 [] b
      | none, none =>
        let k := freshKey t (hKeyLen (attrHeader a)) b
        giveSlot h i k.1 a (publicOf t k.1) k.2

/-- The owner whose quorum erases a slot (R279): its own, owner 0 for a CORRUPT one; anybody's for an EMPTY one. -/
def slotOwner (b : Block) (i : Nat) : Option Nat :=
  match slotState b i, slotKey b i with
  | .corrupt, _ => some 0
  | _, some (_, a) => some (hOwner (attrHeader a))
  | _, none => none

/-- SLOT_ERASE: slot and 7 zero bytes. -/
def slotErase (h : HsmJob) (b : Block) : Block :=
  let p := bkParam h.block
  let i := leAt p 0 1
  match keyGate b lcsAny with
  | some r => hsmFail h r 0 b
  | none =>
    if p.length ≠ 8 ∨ allZero p 1 7 = false then hsmFail h 0x0301 0 b
    else if ownerSlot i = false then hsmFail h 0x0307 0 b
    else hsmOk h i [] (eraseSlot i b)

/-- SLOT_STATUS (R530). -/
def slotStatus (h : HsmJob) (b : Block) : Block :=
  let p := bkParam h.block
  let i := leAt p 0 1
  match keyGate b lcsAny with
  | some r => hsmFail h r 0 b
  | none =>
    if p.length ≠ 8 ∨ allZero p 1 3 = false then hsmFail h 0x0301 0 b
    else if ownerSlot i = false then hsmFail h 0x0307 0 b
    else if leAt p 4 4 < 24 then hsmFail h 0x030F 24 b
    else
      let out (st g : Nat) (a : Bytes) : Bytes := lePut 1 st ++ lePut 1 g ++ zeros 6 ++ slice a 0 16
      match slotState b i with
      | .empty => hsmOk h 0 (out 0 0 []) b
      | .valid g c => hsmOk h 1 (out 1 g (c.drop 0x40)) b
      | .corrupt => hsmOk h 2 (out 2 0 []) (noteCorrupt i b)

/-! ### Key blocks and wrapped exports (R281) -/

/-- KEYBLOCK_IMPORT: KEK slot or 0, 3 zero bytes, OUT_CAP; the KEK blob, the template, the key block as a variable item. -/
def keyblockImport (h : HsmJob) (b : Block) : Block :=
  let p := bkParam h.block
  let i := leAt p 0 1
  let items : Option (Bytes × Bytes × Bytes) := do
    let (blob, e) ← kekItem p i
    let (t, e) ← fixedItem p e 32
    let (kb, e) ← varItem p e
    if itemsEnd p e && allZero p 1 3 then some (blob, t, kb) else none
  match keyGate b lcsField, items with
  | some r, _ => hsmFail h r 0 b
  | none, none => hsmFail h 0x0301 0 b
  | none, some (blob, t, kb) =>
    if i ≠ 0 ∧ ownerSlot i = false then hsmFail h 0x0307 0 b
    else match tmplBad h t, eitherNamed b h i blob with
      | some r, _ => hsmFail h r 0 b
      | none, .error e => hsmNoKey h e (eitherOpened h i blob b)
      | none, .ok kek =>
        let b := eitherOpened h i blob b
        if hOwner kek.head ≠ hOwner t then hsmFail h 0x0303 0 b
        else if namedFits b h kek 0x07 useUnwrap = false then hsmFail h 0x0309 0 b
        else match kbParse kb with
          | none => hsmFail h 0x030A 0 b
          | some (kh, off) =>
            match kbOpen kek.key kb off with
            | none => hsmFail h 0x030B 0 b
            | some key =>
              let free := 2 ^ useHoldOnly + 2 ^ useRetro + 2 ^ useStream
              let want := hUsage t &&& (0xFFFF - free)
              let mapped := (kbUsage kh).getD 0
              if kbType kh key.length ≠ some (hType t) ∨ key.length ≠ hKeyLen t ∨ kbUsage kh = none ∨ want &&& mapped ≠ want then
                hsmFail h 0x030C 0 b
              else if leAt p 4 4 < 144 then hsmFail h 0x030F 144 b
              else giveBlob h t key [] b

/-- An export: KEK slot or 0, 3 zero bytes, OUT_CAP; the KEK blob, the blob. `len` gives the output length, nothing for a blob that
does not map; `out` the output. -/
def exportKey (len : NamedKey → Option Nat) (out : NamedKey → NamedKey → Block → Bytes × Block) (h : HsmJob) (b : Block) : Block :=
  let p := bkParam h.block
  let i := leAt p 0 1
  let items : Option (Bytes × Bytes) := do
    let (kek, e) ← kekItem p i
    let (blob, e) ← fixedItem p e 144
    if itemsEnd p e && allZero p 1 3 then some (kek, blob) else none
  match keyGate b lcsField, items with
  | some r, _ => hsmFail h r 0 b
  | none, none => hsmFail h 0x0301 0 b
  | none, some (kb, blob) =>
    if i ≠ 0 ∧ ownerSlot i = false then hsmFail h 0x0307 0 b
    else match eitherNamed b h i kb, blobNamed b h blob with
      | .error e, _ => hsmNoKey h e (eitherOpened h i kb b)
      | .ok _, .error e => hsmNoKey h e (blobOpened h blob (eitherOpened h i kb b))
      | .ok kek, .ok k =>
        let b := blobOpened h blob (eitherOpened h i kb b)
        if hOwner kek.head ≠ hOwner k.head then hsmFail h 0x0303 0 b
        else if namedFits b h kek 0x07 useWrap = false ∨ bit (hUsage k.head) useExportable = false then hsmFail h 0x0309 0 b
        else match len k with
          | none => hsmFail h 0x030C 0 b
          | some n =>
            if leAt p 4 4 < n then hsmFail h 0x030F n b
            else
              let r := out kek k b
              hsmOk h n r.1 r.2

/-- KEYBLOCK_EXPORT. -/
def keyblockExport (h : HsmJob) (b : Block) : Block :=
  exportKey (fun k => (kbAttrs (hType k.head) (hUsage k.head)).map (fun _ => kbLen k.key.length))
    (fun kek k b =>
      let r := draw1 (kbPadLen k.key.length) b
      (kbSeal kek.key k.key r.1 ((kbAttrs (hType k.head) (hUsage k.head)).getD ([], 0, 0)), r.2)) h b

/-- KWP_EXPORT (RFC 5649). -/
def kwpExport (h : HsmJob) (b : Block) : Block :=
  exportKey (fun k => some (8 * ceilDiv k.key.length 8 + 8)) (fun kek k b => (kwpWrap kek.key k.key, b)) h b

/-- BLOB_REWRAP (R394, R530). -/
def blobRewrap (h : HsmJob) (b : Block) : Block :=
  let p := bkParam h.block
  match keyGate b lcsAny, fixedItem p 8 144 with
  | some r, _ => hsmFail h r 0 b
  | none, none => hsmFail h 0x0301 0 b
  | none, some (blob, e) =>
    if (itemsEnd p e && allZero p 4 4) = false then hsmFail h 0x0301 0 b
    else match blobNamed b h blob with
      | .error e => hsmNoKey h e (blobOpened h blob b)
      | .ok k =>
        let b := blobOpened h blob b
        if leAt p 0 4 < 144 then hsmFail h 0x030F 144 b else giveBlob h k.head k.key [] b

/-! ### The commands -/

/-- A key command without a quorum. -/
def keyRun (code : Nat) (rnd : Randomness) (f : HsmJob → Block → Block) (id : Nat) : Block → Block :=
  hsmRun code id (fun h b => ruleBound b h.req h.block) (fun _ => rnd) (fun h _ b => f h b)

/-- A key command under its owner's quorum. -/
def keyQuorumRun (code : Nat) (rnd : Randomness) (required : HsmJob → Block → Bool) (f : HsmJob → Block → Block) (id : Nat) :
    Block → Block :=
  hsmRun code id (fun h b => ruleOwner b h.req h.block (required h b)) (fun _ => rnd) (fun h _ b => f h b)

/-- An import: the session that its parameters name is over once it has ended, however it ended (R280). -/
def importRun (code : Nat) (rnd : Randomness) (f : HsmJob → Block → Block) (id : Nat) (b : Block) : Block :=
  let r := keyQuorumRun code rnd (fun _ _ => true) f id b
  match hsmReady b code id with
  | none => r
  | some h =>
    if hsmOrphan b h = true ∨ r.kpr.hsm.any (fun x => x.id == id) = true ∨ (bkParam h.block).length < 4 then r
    else importUsed (leAt (bkParam h.block) 0 4) r

/-- SLOT_ERASE asks whose quorum the slot needs: a CORRUPT one is counted (R274). -/
def eraseJudged (id : Nat) (b : Block) : Block :=
  match hsmReady b 0x36 id with
  | none => b
  | some h =>
    let i := leAt (bkParam h.block) 0 1
    if hsmOrphan b h = false ∧ (ruleBound b h.req h.block).sender = true ∧ ownerSlot i = true then slotFound i b else b

/-- The session's authority is the one that erases the slot. -/
def eraseAllowed (h : HsmJob) (b : Block) : Bool :=
  match slotOwner b (leAt (bkParam h.block) 0 1) with
  | some o => o == bkAuth h.block
  | none => true

/-- KEY_GENERATE. -/
def execKeyGenerate (job : Nat) (s : State) : Host.Outcome State Fault Refusal :=
  .next { s with blk := keyRun 0x30 .needed keyGenerate job s.blk }

/-- KEY_DERIVE. -/
def execKeyDerive (job : Nat) (s : State) : Host.Outcome State Fault Refusal :=
  .next { s with blk := keyRun 0x31 .needed keyDerive job s.blk }

/-- IMPORT_SESSION. -/
def execImportSession (job : Nat) (s : State) : Host.Outcome State Fault Refusal :=
  .next { s with blk := keyRun 0x32 .needed importSession job s.blk }

/-- IMPORT_SESSION_EXPIRY. -/
def execImportSessionExpiry (s : State) : Host.Outcome State Fault Refusal := .next { s with blk := importExpiry s.blk }

/-- IMPORT_BLOB_CLEAR. -/
def execImportBlobClear (job : Nat) (s : State) : Host.Outcome State Fault Refusal :=
  .next { s with blk := importRun 0x33 .needed importBlob job s.blk }

/-- IMPORT_SLOT_CLEAR. -/
def execImportSlotClear (job : Nat) (s : State) : Host.Outcome State Fault Refusal :=
  .next { s with blk := importRun 0x34 .none importSlot job s.blk }

/-- SLOT_GENERATE. -/
def execSlotGenerate (job : Nat) (s : State) : Host.Outcome State Fault Refusal :=
  .next { s with blk := keyQuorumRun 0x35 .needed (fun _ _ => true) slotGenerate job s.blk }

/-- SLOT_ERASE. -/
def execSlotErase (job : Nat) (s : State) : Host.Outcome State Fault Refusal :=
  .next { s with blk := keyQuorumRun 0x36 .none eraseAllowed slotErase job (eraseJudged job s.blk) }

/-- SLOT_STATUS. -/
def execSlotStatus (job : Nat) (s : State) : Host.Outcome State Fault Refusal :=
  .next { s with blk := keyRun 0x37 .none slotStatus job s.blk }

/-- KEYBLOCK_IMPORT. -/
def execKeyblockImport (job : Nat) (s : State) : Host.Outcome State Fault Refusal :=
  .next { s with blk := keyRun 0x38 .needed keyblockImport job s.blk }

/-- KEYBLOCK_EXPORT. -/
def execKeyblockExport (job : Nat) (s : State) : Host.Outcome State Fault Refusal :=
  .next { s with blk := keyRun 0x39 .needed keyblockExport job s.blk }

/-- KWP_EXPORT. -/
def execKwpExport (job : Nat) (s : State) : Host.Outcome State Fault Refusal :=
  .next { s with blk := keyRun 0x3A .none kwpExport job s.blk }

/-- BLOB_REWRAP. -/
def execBlobRewrap (job : Nat) (s : State) : Host.Outcome State Fault Refusal :=
  .next { s with blk := keyRun 0x3B .needed blobRewrap job s.blk }

end Sys2Proof.Machine
end

