-- ==== Sys2Proof/Machine/Erasure.lean ====
section
/-! DEFINITION. Owner keys that end: KEYS_LOCKED sets, or an epoch is retired (R28, R263, R300, R338, R487). -/

namespace Sys2Proof.Machine

/-- A load that has not reached step 8 (R292). -/
def loading (j : Job) : Bool :=
  match j.stage with
  | .blobRead | .placeWait | .loadWait _ | .loadQueue | .unwrap _ => true
  | _ => false

/-- The owner KEKs, contexts, loads and messages whose key has a header that a condition names end, with a status; `all` takes loads whose
blob is not known yet as well. -/
def endKeys (hit : Bytes → Bool) (all : Bool) (status detail : Nat) (b : Block) : Block :=
  let ctx (slot : Nat) : Bool := hit (slotAt b slot).header
  let mine (m : Msg) : Bool := ctx m.ctx.1
  let b := stopLoads (fun j => loading j && (all || (!j.blob.isEmpty && hit (j.blob.take 32)))) status detail b
  let b := b.onSce (fun s => { s with msgs := s.msgs.map (fun m => if mine m then doomRunning m else m) })
  let b := abandonWhere mine b
  let b := match b.leg.key with
    | some (slot, _, _) => if ctx slot then legAbort status detail b else b
    | none => b
  eraseWhere (fun v => v.state != .free && hit v.header) b

/-- An epoch is retired (R263, R300, R338). -/
def retireEpoch (e : Nat) (b : Block) : Block :=
  let b := b.onKey (fun k => { k with keks := k.keks.filter (fun p => decide (p.1 / 4096 ≠ e)) })
  settleAll (endKeys (fun h => hEpoch h == e) false stEpochRetired e b)

/-- The epochs that were accepted and no longer are, retired. -/
def retireOld (before : List Nat) (b : Block) : Block :=
  (before.filter (fun e => !(epochsNow b).contains e)).foldl (fun b e => retireEpoch e b) b

/-- KEYS_LOCKED sets (R28). -/
def lockKeys (b : Block) : Block :=
  if b.run.keysLocked then b
  else
    let b := raiseIrq irqKeysLocked (b.onRun (fun r => { r with keysLocked := true }))
    let b := dropKeks b
    let b := endKeys (fun _ => true) true stPolicyDenied 7 b
    settleAll (b.onVlt (fun v => { v with keysErased := true }))

end Sys2Proof.Machine
end

