-- ==== Sys2Proof/Machine/Equinox.lean ====
section
/-! DEFINITION. Equinox sessions, the owner registry, bindings and key domains (R378 to R395). -/

namespace Sys2Proof.Machine

/-! ### Sessions (R383 to R386) -/

/-- Erase the sessions whose EXPIRY has come. -/
def purgeSessions (b : Block) : Block :=
  b.onKpr (fun k => { k with sessions := k.sessions.filter (fun s => decide (b.time.secs < s.expiry)) })

/-- An EXPIRY has come: the session is erased. -/
def sessionExpiry (sid : Nat) (b : Block) : Block := dropSession sid b

/-- A requester that could open a session of an authority. -/
def couldOpen (b : Block) (r : Requester) (auth : Nat) : Bool :=
  if auth = 0x1000 then isPf0 r else decide (auth ≤ 4095) && (isPf0 r || reqBound b r auth)

/-- The rule of the session commands. -/
def ruleSession (b : Block) (h : HsmJob) : HsmRule :=
  let a := bkAuth h.block
  { ruleAny h.block with sender := couldOpen b h.req a || !(decide (a ≤ 0x1000)), authOk := decide (a ≤ 0x1000) }

/-- The rule of EQX_CLOSE: the opener and PF0. -/
def ruleClose (b : Block) (h : HsmJob) : HsmRule :=
  let s := sessionOf b (leAt (bkParam h.block) 0 4)
  { ruleSession b h with sender := isPf0 h.req || (match s with
    | some s => decide (s.opener = h.req)
    | none => (ruleSession b h).sender) }

/-- The TBS of a session (R384). -/
def tbsOf (b : Block) (sid auth expiry : Nat) (nonce authDigest cmd : Bytes) : Bytes :=
  ascii "JEQX0001" ++ ueid b ++ zeros 3 ++ lePut 4 sid ++ nonce ++ lePut 2 auth ++ lePut 1 b.run.lcs ++ zeros 1 ++ lePut 4 expiry ++
    authDigest ++ cmd

/-- The record or charter that EQX_OPEN presents is good: live, and leading to REGISTRY_ROOT; or the domain's own charter. -/
def presented (b : Block) (auth : Nat) (rec path : Bytes) : Bool :=
  let d := domRec b
  if auth = 0x1000 then charterOk rec && (!domMember d || domainIdOf rec == domId d)
  else recordOk rec && leAt rec 4 2 == auth && pathRoot auth (treeLeaf rec) path == domRoot d

/-- EQX_OPEN. -/
def eqxOpen (h : HsmJob) (b : Block) : Block :=
  let p := bkParam h.block
  let auth := bkAuth h.block
  let b := purgeSessions b
  let items : Option (Bytes × Bytes × Bytes) := do
    let (_, e) ← fixedItem p 0 8
    let (cmd, e) ← fixedItem p e 48
    let (rec, e) ← fixedItem p e 816
    let (path, e) ← if auth = 0x1000 then some ([], e) else fixedItem p e 576
    if itemsEnd p e then some (cmd, rec, path) else none
  match items with
  | none => hsmFail h 0x0501 0 b
  | some (cmd, rec, path) =>
    if leAt p 0 2 < 10 ∨ 3600 < leAt p 0 2 ∨ leAt p 2 2 ≠ 0 then hsmFail h 0x0504 0 b
    else if presented b auth rec path = false then hsmFail h 0x0505 0 b
    else if b.kpr.sessions.any (fun s => s.authority == auth) ∨ 16 ≤ b.kpr.sessions.length then hsmFail h 0x0507 0 b
    else if leAt p 4 4 < 184 then hsmFail h 0x050F 184 b
    else
      let i := draw1 4 b
      let n := draw1 32 i.2
      let sid := max 1 (leNat i.1)
      let expiry := b.time.secs + leAt p 0 2
      let tbs := tbsOf b sid auth expiry n.1 (if auth = 0x1000 then sha384 rec else treeLeaf rec) cmd
      let s : EqxSession :=
        { sid := sid, authority := auth, opener := h.req, nonce := n.1, expiry := expiry, record := rec, path := path,
          member := domMember (domRec b), cmdDigest := cmd, tbs := tbs, approved := [], failures := 0 }
      hsmOk h sid tbs (n.2.onKpr (fun k => { k with sessions := k.sessions ++ [s] }))

/-- The approval mask of a session. -/
def approvalMask (s : EqxSession) : Nat := s.approved.foldl (fun n i => n ||| 2 ^ i) 0

/-- A public key pair as two items: ECDSA P-384, ML-DSA-65; then where they end. -/
def pairItem (p : Bytes) (off : Nat) : Option (Bytes × Nat) := do
  let (e1, o) ← fixedItem p off 97
  let (e2, o) ← fixedItem p o 1952
  some (e1 ++ e2, o)

/-- An approval that does not count: the eighth erases the session (R385). -/
def approvalFails (h : HsmJob) (s : EqxSession) (b : Block) : Block :=
  let b := if 7 ≤ s.failures then dropSession s.sid b
    else b.onKpr (fun k => { k with sessions := k.sessions.map (fun x => if x.sid = s.sid then { x with failures := x.failures + 1 } else x) })
  hsmFail h 0x0508 0 b

/-- EQX_APPROVE. -/
def eqxApprove (h : HsmJob) (b : Block) : Block :=
  let p := bkParam h.block
  let i := leAt p 4 1
  let items : Option (Bytes × Bytes) := do
    let (_, e) ← fixedItem p 0 8
    let (pk, e) ← pairItem p e
    let (s1, e) ← fixedItem p e 96
    let (s2, e) ← fixedItem p e 3309
    if itemsEnd p e then some (pk, s1 ++ s2) else none
  match items with
  | none => hsmFail h 0x0501 0 b
  | some (pk, sig) =>
    if 15 < i ∨ allZero p 5 3 = false then hsmFail h 0x0504 0 b
    else match sessionOf b (leAt p 0 4), hybridDead b with
      | none, _ => hsmFail h 0x0506 0 b
      | some s, dead =>
        if s.expiry ≤ b.time.secs ∨ s.authority ≠ bkAuth h.block then hsmFail h 0x0506 0 b
        else if leAt s.record 6 1 ≤ i ∨ sha384 pk ≠ recOfficer s.record i then approvalFails h s b
        else match dead with
          | some u => hsmFinish h stEngineAlarm (unitDetail u) 0 [] b
          | none =>
            let b := countVerify (countVerify b)
            if hybridVerify (pk.take 97) (pk.drop 97) s.tbs sig = false then approvalFails h s b
            else
              let s' := if s.approved.contains i then s else { s with approved := s.approved ++ [i] }
              let b := b.onKpr (fun k => { k with sessions := k.sessions.map (fun x => if x.sid = s.sid then s' else x) })
              hsmOk h (approvalMask s' + 2 ^ 16 * s'.approved.length + 2 ^ 24 * s'.quorum) [] b

/-- A command whose parameter area is one u32 or less, padded. -/
def fixedOnly (p : Bytes) (n : Nat) : Bool := decide (n ≤ p.length) && itemsEnd p n

/-- EQX_STATUS. -/
def eqxStatus (h : HsmJob) (b : Block) : Block :=
  let p := bkParam h.block
  if fixedOnly p 4 = false then hsmFail h 0x0501 0 b
  else match sessionOf b (leAt p 0 4) with
    | none => hsmOk h 0 [] b
    | some s =>
      if s.authority ≠ bkAuth h.block then hsmFail h 0x0506 0 b
      else if s.expiry ≤ b.time.secs then hsmOk h 0 [] b
      else hsmOk h ((if s.met then 2 else 1) + 2 ^ 16 * approvalMask s + 2 ^ 32 * (s.expiry - b.time.secs)) [] b

/-- EQX_CLOSE. -/
def eqxClose (h : HsmJob) (b : Block) : Block :=
  let p := bkParam h.block
  if fixedOnly p 4 = false then hsmFail h 0x0501 0 b
  else match sessionOf b (leAt p 0 4) with
    | none => hsmFail h 0x0506 0 b
    | some s =>
      if s.authority ≠ bkAuth h.block ∨ s.expiry ≤ b.time.secs then hsmFail h 0x0506 0 b
      else hsmOk h 0 [] (dropSession s.sid b)

/-! ### The registry (R381) -/

/-- RELEASE_DIGEST of a device in the local domain (R408): owner 0's leaf, or zero. -/
def releaseLeaf (b : Block) : Block :=
  if domMember (domRec b) then b else b.onTmp (fun t => { t with digest := b.bbram.owner0.getD (zeros 48) })

/-- RELEASE_DIGEST of a device that has created or joined a domain under a session. -/
def releaseCharter (s : Option EqxSession) (b : Block) : Block :=
  b.onTmp (fun t => { t with digest := sha384 ((s.map (·.record)).getD []) })

/-- A registry change: the new root and OWNER_COUNT committed with REGISTRY_SEQ one higher; the owner's other sessions go, and the bindings that
the new record does not allow. -/
def changeRegistry (h : HsmJob) (rec path : Bytes) (owners : Nat) (b : Block) : Block :=
  let id := leAt rec 4 2
  let d := domRec b
  let seq := (domSeq d + 1) % 2 ^ 32
  let d := patch (patch (patch d 0x0C (lePut 4 seq)) 0x30 (pathRoot id (treeLeaf rec) path)) 0x60 (lePut 2 owners)
  let b' := (commitDom d b).onKpr (fun k => { k with
    sessions := k.sessions.filter (fun s => s.authority != id)
    bindings := k.bindings.filter (fun p => p.2 != id || recFn rec p.1) })
  let b' := if id = 0 then releaseLeaf (b'.onBbram (fun m => { m with owner0 := some (treeLeaf rec) })) else b'
  hsmCommit h 0x050D seq [] b' b

/-- The parameters of OWNER_CREATE: OLD, the new record, its path, the tombstone. -/
def createItems (p : Bytes) : Option (Bytes × Bytes × Bytes) := do
  let (_, e) ← fixedItem p 0 8
  let (rec, e) ← fixedItem p e 816
  let (path, e) ← fixedItem p e 576
  let (old, e) ← if leAt p 0 1 = 1 then fixedItem p e 816 else some ([], e)
  if itemsEnd p e then some (rec, path, old) else none

/-- The command creates owner 0 at an empty leaf (R381). -/
def createsOwner0 (b : Block) (p : Bytes) : Bool :=
  match createItems p with
  | some (rec, path, _) => leAt p 0 1 == 0 && leAt rec 4 2 == 0 && pathRoot 0 (zeros 48) path == domRoot (domRec b)
  | none => false

/-- Who may create an owner (R381, R532). -/
def ruleCreate (h : HsmJob) (b : Block) : HsmRule :=
  if createsOwner0 b (bkParam h.block) then
    if b.run.lcs = 1 ∨ b.run.lcs = 2 then rulePlain h.req h.block else ruleQuorum h.req h.block 0x1000 0x0506 0x0509
  else ruleQuorum h.req h.block (if domMember (domRec b) then 0x1000 else 0) 0x0506 0x0509

/-- OWNER_CREATE. -/
def ownerCreate (h : HsmJob) (b : Block) : Block :=
  let p := bkParam h.block
  let d := domRec b
  match createItems p with
  | none => hsmFail h 0x0501 0 b
  | some (rec, path, old) =>
    let id := leAt rec 4 2
    if 1 < leAt p 0 1 ∨ allZero p 1 7 = false then hsmFail h 0x0504 0 b
    else if lcsAny.contains b.run.lcs = false then hsmFail h 0x050E 0 b
    else if recordOk rec = false then hsmFail h 0x0505 0 b
    else
      let was := if leAt p 0 1 = 0 then zeros 48 else treeLeaf old
      let leads := pathRoot id was path == domRoot d
      if leAt p 0 1 = 1 ∧ (tombOk old = false ∨ leAt old 4 2 ≠ id ∨ leads = false) then hsmFail h 0x0505 0 b
      else if leads = false ∨ (leAt p 0 1 = 1 ∧ domEpoch d < leAt old 0x0C 2 + 2) ∨
          leAt rec 8 4 ≠ (if leAt p 0 1 = 0 then 1 else leAt old 8 4 + 1) then hsmFail h 0x050A 0 b
      else changeRegistry h rec path (domOwners d + (if id = 0 then 0 else 1)) b

/-- Who may update or delete an owner: PF0, or a function bound to the owner in AUTHORITY. -/
def ruleSelf (h : HsmJob) (b : Block) : HsmRule :=
  let a := bkAuth h.block
  { ruleOwner b h.req h.block true with
    sender := isPf0 h.req || (isFn h.req && decide (a ≤ 4095) && reqBound b h.req a), whyAuth := 0x0506, whyQuorum := 0x0509 }

/-- OWNER_UPDATE: the record of the session is replaced. -/
def ownerUpdate (h : HsmJob) (s : Option EqxSession) (b : Block) : Block :=
  let p := bkParam h.block
  match s, fixedItem p 0 816 with
  | some s, some (rec, e) =>
    let id := leAt s.record 4 2
    if itemsEnd p e = false then hsmFail h 0x0501 0 b
    else if lcsAny.contains b.run.lcs = false then hsmFail h 0x050E 0 b
    else if recordOk rec = false ∨ pathRoot id (treeLeaf s.record) s.path ≠ domRoot (domRec b) then hsmFail h 0x0505 0 b
    else if leAt rec 4 2 ≠ id ∨ leAt rec 8 4 ≠ leAt s.record 8 4 + 1 then hsmFail h 0x050A 0 b
    else changeRegistry h rec s.path (domOwners (domRec b)) b
  | _, _ => hsmFail h 0x0501 0 b

/-- OWNER_DELETE: of the session's owner, or under owner 0 of the record given. -/
def ownerDelete (h : HsmJob) (s : Option EqxSession) (b : Block) : Block :=
  let p := bkParam h.block
  let target : Option (Bytes × Bytes) :=
    if bkAuth h.block = 0 then do
      let (rec, e) ← fixedItem p 0 816
      let (path, e) ← fixedItem p e 576
      if itemsEnd p e then some (rec, path) else none
    else if p = [] then s.map (fun s => (s.record, s.path)) else none
  match target with
  | none => hsmFail h 0x0501 0 b
  | some (rec, path) =>
    let id := leAt rec 4 2
    if lcsAny.contains b.run.lcs = false then hsmFail h 0x050E 0 b
    else if recordOk rec = false ∨ pathRoot id (treeLeaf rec) path ≠ domRoot (domRec b) then hsmFail h 0x0505 0 b
    else if id = 0 then hsmFail h 0x050A 0 b
    else changeRegistry h (tombstoneOf rec (domEpoch (domRec b))) path (domOwners (domRec b) - 1) b

/-! ### Bindings (R382) -/

/-- A VF that may be bound or unbound: enabled, its TDI CONFIG_UNLOCKED. -/
def bindable (b : Block) (fn : Nat) : Bool := fnEnabled b fn && decide ((fnOf b fn).tdi = Tdi.configUnlocked)

/-- FN_BIND. -/
def fnBind (h : HsmJob) (b : Block) : Block :=
  let p := bkParam h.block
  let fn := leAt p 0 2
  let items : Option (Bytes × Bytes) := do
    let (_, e) ← fixedItem p 0 8
    let (rec, e) ← fixedItem p e 816
    let (path, e) ← fixedItem p e 576
    if itemsEnd p e then some (rec, path) else none
  match items with
  | none => hsmFail h 0x0501 0 b
  | some (rec, path) =>
    let id := leAt rec 4 2
    if fn = 0 ∨ 255 < fn ∨ allZero p 2 6 = false then hsmFail h 0x0504 0 b
    else if recordOk rec = false ∨ pathRoot id (treeLeaf rec) path ≠ domRoot (domRec b) then hsmFail h 0x0505 0 b
    else if recFn rec fn = false ∨ bindable b fn = false ∨ (tgetD id b.kpr.bindings fn ≠ id) then hsmFail h 0x050A 0 b
    else hsmOk h 0 [] (b.onKpr (fun k => { k with bindings := tset k.bindings fn id }))

/-- FN_UNBIND: RESULT is the owner. -/
def fnUnbind (h : HsmJob) (b : Block) : Block :=
  let p := bkParam h.block
  let fn := leAt p 0 2
  if fixedOnly p 2 = false then hsmFail h 0x0501 0 b
  else if fn = 0 ∨ 255 < fn then hsmFail h 0x0504 0 b
  else match tget b.kpr.bindings fn with
    | none => hsmFail h 0x050A 0 b
    | some o =>
      if bindable b fn = false then hsmFail h 0x050A 0 b
      else hsmOk h o [] (b.onKpr (fun k => { k with bindings := tdel k.bindings fn }))

/-! ### Domains: what each command asks (R393) -/

/-- No domain command runs while KEYS_LOCKED is 1, or outside PROVISION and PRODUCTION. -/
def domainGate (h : HsmJob) (f : Block → Block) (b : Block) : Block :=
  if b.run.keysLocked ∨ lcsField.contains b.run.lcs = false then hsmFail h 0x050E 0 b else f b

/-- The device has left the domain: local domain, an empty bitmap, slots 0 and 1 erased. -/
def leaveDomain (b : Block) : Block :=
  let before := epochsNow b
  let d := patch (patch (patch (domRec b) 1 (zeros 2)) 4 (zeros 8)) 0x10 (zeros 16)
  let b := eraseSlot 1 (eraseSlot 0 (zeroBitmap d b))
  releaseLeaf (retireOld before (refreshDomain b))

/-- The record 3 of a membership. -/
def memberRec (b : Block) (id : Bytes) (epoch index : Nat) (prev : Option Nat) : Bytes :=
  let d := domFlag 1 prev.isSome (domFlag 0 true (domRec b))
  patch (patch (patch (patch d 4 (lePut 2 epoch)) 6 (lePut 2 (prev.getD 0))) 8 (lePut 2 index)) 0x10 id

/-- New roots are adopted, and epochs no longer accepted are retired. -/
def adopt (d root : Bytes) (prev : Option Bytes) (b : Block) : Block :=
  let before := epochsNow b
  retireOld before (adoptRoots d root prev b)

/-- The previous epoch is retired: record 3 without PREV_VALID, slot 1 erased. -/
def retirePrev (b : Block) : Block :=
  let before := epochsNow b
  let b := commitDom (patch (domFlag 1 false (domRec b)) 6 (zeros 2)) b
  retireOld before (refreshDomain (eraseSlot 1 b))

/-- A device that may create or join a domain. -/
def mayJoin (b : Block) : Bool := !domMember (domRec b) && domOwners (domRec b) == 0

/-- DOMAIN_CREATE. -/
def domainCreate (h : HsmJob) (s : Option EqxSession) : Block → Block := domainGate h (fun b =>
  let p := bkParam h.block
  let i := leAt p 0 2
  if fixedOnly p 2 = false then hsmFail h 0x0501 0 b
  else if 16384 ≤ i then hsmFail h 0x0504 0 b
  else if mayJoin b = false then hsmFail h 0x050B 0 b
  else
    let r := draw1 32 b
    let id := domainIdOf ((s.map (·.record)).getD [])
    hsmCommit h 0x050D 1 [] (releaseCharter s (adopt (memberRec r.2 id 1 i none) r.1 none r.2)) b)

/-- DOMAIN_ROTATE. -/
def domainRotate (h : HsmJob) : Block → Block := domainGate h (fun b =>
  let d := domRec b
  if bkParam h.block ≠ [] then hsmFail h 0x0501 0 b
  else match b.key.root with
    | none => hsmFail h 0x050B 0 b
    | some old =>
      if domMember d = false ∨ 65535 ≤ domEpoch d then hsmFail h 0x050B 0 b
      else
        let r := draw1 32 b
        let e := domEpoch d
        hsmCommit h 0x050D (e + 1) [] (adopt (memberRec r.2 (domId d) (e + 1) (domIndex d) (some e)) r.1 (some old) r.2) b)

/-- DOMAIN_RETIRE. -/
def domainRetire (h : HsmJob) : Block → Block := domainGate h (fun b =>
  let p := bkParam h.block
  let d := domRec b
  if fixedOnly p 2 = false then hsmFail h 0x0501 0 b
  else if domPrevValid d = false ∨ leAt p 0 2 ≠ domPrev d then hsmFail h 0x050B 0 b
  else hsmCommit h 0x050D 0 [] (retirePrev b) b)

/-- DOMAIN_REVOKE. -/
def domainRevoke (h : HsmJob) : Block → Block := domainGate h (fun b =>
  let p := bkParam h.block
  let d := domRec b
  let i := leAt p 0 2
  if fixedOnly p 2 = false then hsmFail h 0x0501 0 b
  else if 16384 ≤ i then hsmFail h 0x0504 0 b
  else if domMember d = false ∨ i = domIndex d then hsmFail h 0x050B 0 b
  else hsmCommit h 0x050D 0 [] (setRevoked i b) b)

/-- DOMAIN_LEAVE. -/
def domainLeave (h : HsmJob) : Block → Block := domainGate h (fun b =>
  if bkParam h.block ≠ [] then hsmFail h 0x0501 0 b
  else if domMember (domRec b) = false ∧ b.key.domState ≠ 2 then hsmFail h 0x050B 0 b
  else hsmCommit h 0x050D 0 [] (leaveDomain b) b)

/-! ### Offers (R389) -/

/-- The private keys of an offer: ML-KEM-1024, ECDH P-384. -/
def offerKeys (o : DomainOffer) : Bytes × Bytes := (o.seed.take 64, pkPriv 0x05 (o.seed.drop 64))

/-- The offer ends: its keys are erased. -/
def offerExpiry (b : Block) : Block := b.onKpr (fun k => { k with offer := none })

/-- The hash of the newest record in the retained region, or nothing. -/
def newestHash (b : Block) : Cbor :=
  match b.kept.frames.getLast? with
  | some f => .bytes (sha384 (slice f.frame 0x20 (leAt f.frame 4 2)))
  | none => .null

/-- Null for a non-member. -/
def orNull (m : Bool) (x : Cbor) : Cbor := if m then x else .null

/-- Keys 1 to 11 of an offer payload. -/
def offerBody (b : Block) (kind oid : Nat) (ek qj : Bytes) : List (Nat × Cbor) :=
  let d := domRec b
  let m := domMember d
  [(1, .uint kind), (2, .uint oid), (3, .bytes ek), (4, .bytes qj), (5, .bytes (ueid b)), (6, .uint b.run.lcs),
   (7, .uint (b2n b.run.keysLocked)), (8, newestHash b), (9, orNull m (.bytes (domId d))), (10, .uint (domEpoch d)),
   (11, orNull m (.uint (domIndex d)))]

/-- OFFER_TAG or CONFIRM: a MAC under a root over the map without its own key. -/
def rootMac (root : Bytes) (s : String) (kvs : List (Nat × Cbor)) : Bytes :=
  kmac256 root (sha384 (cborPut (cborMap kvs))) 32 (ascii s)

/-- DOMAIN_OFFER: it replaces an earlier offer. -/
def domainOffer (h : HsmJob) : Block → Block := domainGate h (fun b =>
  let p := bkParam h.block
  let kind := leAt p 0 1
  let m := domMember (domRec b)
  if fixedOnly p 8 = false then hsmFail h 0x0501 0 b
  else if 1 < kind ∨ allZero p 1 3 = false then hsmFail h 0x0504 0 b
  else if (if kind = 0 then mayJoin b else m && b.key.root.isSome) = false then hsmFail h 0x050B 0 b
  else match hybridDead b with
    | some u => hsmFinish h stEngineAlarm (unitDetail u) 0 [] b
    | none =>
      let i := draw1 4 b
      let r := draw1 120 i.2
      let o : DomainOffer := { oid := leNat i.1, kind := kind, seed := r.1, bytes := [], opened := b.time.secs }
      let keys := offerKeys o
      let body := offerBody b kind o.oid (pkPublic 0x19 keys.1) (pkPublic 0x05 keys.2)
      let tag : Cbor := orNull m (.bytes (rootMac (b.key.root.getD []) "JDO" body))
      let c := aliasCose (cborPut (cborMap (body ++ [(12, tag)]))) r.2
      if leAt p 4 4 < c.1.length then hsmFail h 0x050F c.1.length c.2
      else hsmOk h o.oid c.1 (c.2.onKpr (fun k => { k with offer := some { o with bytes := c.1 } })))

/-- The map of an offer or package that verifies under a pair of Alias public keys. -/
def openMap (pk bs : Bytes) : Option Cbor := (coseOpen pk bs).bind cborParse

/-- An unsigned value of a map. -/
def Cbor.num (m : Cbor) (k : Nat) : Option Nat := (m.key k).bind Cbor.nat?

/-- A byte string of a map. -/
def Cbor.str (m : Cbor) (k : Nat) : Option Bytes := (m.key k).bind Cbor.bytes?

/-- A map without one key. -/
def Cbor.without (m : Cbor) (k : Nat) : Cbor :=
  match m with
  | .map kvs => .map (go kvs)
  | x => x
where
  go : List Cbor → List Cbor
    | .uint n :: v :: rest => if n = k then go rest else .uint n :: v :: go rest
    | a :: v :: rest => a :: v :: go rest
    | rest => rest

/-- The hash of a map without one key. -/
def mapDigest (m : Cbor) (k : Nat) : Bytes := sha384 (cborPut (m.without k))

/-! ### Packages (R389) -/

/-- The root of an epoch that the device accepts. -/
def memberRoot (b : Block) (e : Nat) : Option Bytes := if b.key.domState = 1 then domainRoot b e else none

/-- The content of a package. -/
def packageContent (b : Block) (index : Nat) : Bytes :=
  let d := domRec b
  domId d ++ lePut 2 (domEpoch d) ++ lePut 2 (if domPrevValid d then domPrev d else 0) ++ lePut 2 index ++ zeros 10 ++
    slice (b.key.root.getD []) 0 32 ++ slice ((b.key.prevRoot.map (·.2)).getD []) 0 32 ++ bitmapBytes b.bbram.bitmap

/-- Build the package that answers an offer; `confirm` is the root that CONFIRM uses in a sync package. -/
def buildPackage (kind index : Nat) (offer ek qj : Bytes) (confirm : Option Bytes) (b : Block) : Bytes × Block :=
  let d := domRec b
  let r := draw1 (32 + 56 + 12) b
  let enc := kemEncaps 0x19 ek (r.1.take 32)
  let priv := pkPriv 0x05 (slice r.1 32 56)
  let qs := pkPublic 0x05 priv
  let iv := r.1.drop 88
  let tk := kdf (enc.1 ++ pkAgree 0x05 priv qj) "JKH domain transport" (sha384 (ek ++ qj ++ enc.2 ++ qs)) 32
  let sealed := gcmSeal tk iv (sha384 offer) (packageContent b index)
  let body : List (Nat × Cbor) :=
    [(1, .uint kind), (2, .bytes (sha384 offer)), (3, .bytes enc.2), (4, .bytes qs), (5, .bytes iv), (6, .bytes (sealed.1 ++ sealed.2)),
     (7, .bytes (ueid b)), (8, .uint (domIndex d)), (9, .bytes (domId d)), (10, .uint (domEpoch d))]
  let body := match confirm with
    | some root => body ++ [(11, Cbor.bytes (rootMac root "JDC" body))]
    | none => body
  aliasCose (cborPut (cborMap body)) r.2

/-- The public keys of an offer are valid (R366). -/
def offerPublic (m : Cbor) : Option (Bytes × Bytes) := do
  let ek ← m.str 3
  let qj ← m.str 4
  if ek.length = 1568 ∧ pkValid 0x19 ek = true ∧ pkValid 0x05 qj = true then some (ek, qj) else none

/-- A package answers the command, when it fits OUT_CAP. -/
def givePackage (h : HsmJob) (cap : Nat) (r : Bytes × Block) : Block :=
  if cap < r.1.length then hsmFail h 0x050F r.1.length r.2 else hsmOk h r.1.length r.1 r.2

/-- DOMAIN_SPONSOR (R390, step 2). -/
def domainSponsor (h : HsmJob) : Block → Block := domainGate h (fun b =>
  let p := bkParam h.block
  let d := domRec b
  let i := leAt p 0 2
  let items : Option (Bytes × Bytes) := do
    let (offer, e) ← varItem p 8
    let (pk, e) ← pairItem p e
    if itemsEnd p e then some (offer, pk) else none
  match items, hybridDead b with
  | none, _ => hsmFail h 0x0501 0 b
  | some _, some u => hsmFinish h stEngineAlarm (unitDetail u) 0 [] b
  | some (offer, pk), none =>
    if 16384 ≤ i ∨ leAt p 2 2 ≠ 0 then hsmFail h 0x0504 0 b
    else if domMember d = false ∨ domStale d ∨ b.key.root = none ∨ b.bbram.bitmap.contains i ∨ i = domIndex d then hsmFail h 0x050B 0 b
    else match openMap pk offer with
      | none => hsmFail h 0x050C 0 b
      | some m => match offerPublic m with
        | none => hsmFail h 0x050C 0 b
        | some (ek, qj) =>
          if m.num 1 ≠ some 0 ∨ m.num 7 ≠ some 0 ∨ (m.num 6 ≠ some 2 ∧ m.num 6 ≠ some 3) then hsmFail h 0x050C 0 b
          else givePackage h (leAt p 4 4) (buildPackage 0 i offer ek qj none b))

/-- DOMAIN_SEND (R391): what it refuses of an offer. -/
def syncOfferBad (b : Block) (m : Cbor) : Bool :=
  let d := domRec b
  domStale d || m.num 1 != some 1 || m.str 9 != some (domId d) ||
    (match m.num 10, m.num 11 with
    | some e, some i => b.bbram.bitmap.contains i ||
      (match memberRoot b e with
      | some root => m.str 12 != some (kmac256 root (mapDigest m 12) 32 (ascii "JDO"))
      | none => true)
    | _, _ => true)

/-- DOMAIN_SEND. -/
def domainSend (h : HsmJob) : Block → Block := domainGate h (fun b =>
  let p := bkParam h.block
  let items : Option (Bytes × Bytes) := do
    let (_, e) ← fixedItem p 0 4
    let (offer, e) ← varItem p e
    let (pk, e) ← pairItem p e
    if itemsEnd p e then some (offer, pk) else none
  match items, hybridDead b with
  | none, _ => hsmFail h 0x0501 0 b
  | some _, some u => hsmFinish h stEngineAlarm (unitDetail u) 0 [] b
  | some (offer, pk), none =>
    if domMember (domRec b) = false ∨ b.key.root = none then hsmFail h 0x050B 0 b
    else match openMap pk offer with
      | none => hsmFail h 0x050C 0 b
      | some m => match offerPublic m with
        | none => hsmFail h 0x050C 0 b
        | some (ek, qj) =>
          if syncOfferBad b m then hsmFail h 0x050C 0 b
          else givePackage h (leAt p 0 4) (buildPackage 1 0xFFFF offer ek qj ((m.num 10).bind (memberRoot b)) b))

/-- The content of a package that names the outstanding offer and opens. -/
def openPackage (b : Block) (o : DomainOffer) (kind : Nat) (m : Cbor) : Option Bytes := do
  let ct ← m.str 3
  let qs ← m.str 4
  let iv ← m.str 5
  let c ← m.str 6
  if m.num 1 ≠ some kind ∨ o.kind ≠ kind ∨ o.opened + 600 ≤ b.time.secs ∨ ct.length ≠ 1568 ∨ pkValid 0x05 qs = false ∨ iv.length ≠ 12 ∨
      c.length ≠ 2160 then none
  else
    let keys := offerKeys o
    let ek := pkPublic 0x19 keys.1
    let qj := pkPublic 0x05 keys.2
    let tk := kdf (kemDecaps 0x19 keys.1 ct ++ pkAgree 0x05 keys.2 qs) "JKH domain transport" (sha384 (ek ++ qj ++ ct ++ qs)) 32
    gcmOpen tk iv (sha384 o.bytes) (c.take 2144) (c.drop 2144)

/-- The offer that a package names. -/
def namedOffer (b : Block) (m : Cbor) : Option DomainOffer :=
  b.kpr.offer.bind (fun o => if m.str 2 = some (sha384 o.bytes) then some o else none)

/-- The bits of a package's bitmap are set one at a time, BITMAP_STALE is cleared; a device that finds its own index revoked leaves (R391). -/
def mergeBitmap (content : Bytes) (b : Block) : Block :=
  let new := (bitmapBits (content.drop 0x60)).filter (fun i => !b.bbram.bitmap.contains i)
  let b := new.foldl (fun b i => setRevoked i b) b
  let b := if domStale (domRec b) then commitDom (domFlag 2 false (domRec b)) b else b
  if b.bbram.bitmap.contains (domIndex (domRec b)) then leaveDomain b else b

/-- The roots and epochs of a package's content are adopted. -/
def adoptContent (c id : Bytes) (index : Nat) (b : Block) : Block :=
  let pe := leAt c 0x12 2
  let prev := if pe = 0 then none else some pe
  adopt (memberRec b id (leAt c 0x10 2) index prev) (slice c 0x20 32) (prev.map (fun _ => slice c 0x40 32)) b

/-- The package and the sender's pk of DOMAIN_JOIN and DOMAIN_RECEIVE. -/
def packageItems (p : Bytes) : Option (Bytes × Bytes) := do
  let (pkg, e) ← varItem p 0
  let (pk, e) ← pairItem p e
  if itemsEnd p e then some (pkg, pk) else none

/-- DOMAIN_JOIN and DOMAIN_RECEIVE: the package verifies, names the outstanding offer, and opens. -/
def withPackage (h : HsmJob) (kind : Nat) (pre : Block → Bool) (f : Cbor → DomainOffer → Bytes → Block → Block) : Block → Block :=
  domainGate h (fun b =>
    match packageItems (bkParam h.block), hybridDead b with
    | none, _ => hsmFail h 0x0501 0 b
    | some _, some u => hsmFinish h stEngineAlarm (unitDetail u) 0 [] b
    | some (pkg, pk), none =>
      match openMap pk pkg with
      | none => hsmFail h 0x050C 0 b
      | some m => match namedOffer b m with
        | none => hsmFail h 0x050C 0 b
        | some o =>
          if pre b = false then hsmFail h 0x050B 0 b
          else match openPackage b o kind m with
            | none => hsmFail h 0x050C 0 b
            | some c => f m o c b)

/-- The offer that a command's package names, whether or not the package verifies. -/
def offerNamed (b : Block) (h : HsmJob) : Option DomainOffer := do
  let (pkg, _) ← packageItems (bkParam h.block)
  let x ← coseParse pkg
  let m ← cborParse x.2.1
  namedOffer b m

/-- A join or a receipt: the private keys of the offer that it names go once it has ended, however it ended (R389). -/
def offerRun (code id : Nat) (before after : Block) : Block :=
  match hsmReady before code id with
  | none => after
  | some h =>
    if hsmOrphan before h = false ∧ after.kpr.hsm.any (fun x => x.id == id) = false ∧ (offerNamed before h).isSome = true then offerExpiry after
    else after

/-- DOMAIN_JOIN (R390, step 4). -/
def domainJoin (h : HsmJob) (s : Option EqxSession) : Block → Block :=
  withPackage h 0 mayJoin (fun _ _ c b =>
    let id := domainIdOf ((s.map (·.record)).getD [])
    if c.take 16 ≠ id then hsmFail h 0x050C 0 b
    else
      let b' := mergeBitmap c (releaseCharter s (adoptContent c id (leAt c 0x14 2) b))
      hsmCommit h 0x050D b'.key.epoch [] b' b)

/-- DOMAIN_RECEIVE (R391). -/
def domainReceive (h : HsmJob) : Block → Block :=
  withPackage h 1 (fun b => domMember (domRec b) && b.key.root.isSome) (fun m o c b =>
    let d := domRec b
    let offered := ((coseParse o.bytes).bind (fun x => cborParse x.2.1)).bind (fun x => x.num 10)
    let confirmed : Bool := match offered.bind (memberRoot b) with
      | some root => m.str 11 == some (kmac256 root (mapDigest m 11) 32 (ascii "JDC"))
      | none => false
    let revoked : Bool := match m.num 8 with
      | some i => b.bbram.bitmap.contains i
      | none => true
    let e := leAt c 0x10 2
    if confirmed = false ∨ revoked = true then hsmFail h 0x050C 0 b
    else if e = domEpoch d + 1 then
      let b' := mergeBitmap c (adoptContent c (domId d) (domIndex d) b)
      hsmCommit h 0x050D b'.key.epoch [] b' b
    else if e = domEpoch d then
      let b' := mergeBitmap c (if leAt c 0x12 2 = 0 ∧ domPrevValid d then retirePrev b else b)
      hsmCommit h 0x050D b'.key.epoch [] b' b
    else hsmFail h 0x050B 0 b)

/-! ### The commands -/

/-- A domain command of PF0 under the domain's quorum. -/
def domainRun (code : Nat) (rnd : Randomness) (f : HsmJob → Option EqxSession → Block → Block) (id : Nat) : Block → Block :=
  hsmRun code id (fun h _ => ruleQuorum h.req h.block 0x1000 0x0506 0x0509) (fun _ => rnd) f

/-- A command of PF0 without a quorum. -/
def plainRun (code : Nat) (rnd : Randomness) (f : HsmJob → Block → Block) (id : Nat) : Block → Block :=
  hsmRun code id (fun h _ => rulePlain h.req h.block) (fun _ => rnd) (fun h _ b => f h b)

/-- Who may have the device leave its domain. -/
def ruleLeave (h : HsmJob) : HsmRule :=
  let a := bkAuth h.block
  { ruleQuorum h.req h.block a 0x0506 0x0509 with authOk := a == 0 || a == 0x1000 }

/-- EQX_OPEN. -/
def execEqxOpen (job : Nat) (s : State) : Host.Outcome State Fault Refusal :=
  .next { s with blk := hsmRun 0x50 job (fun h b => ruleSession b h) (fun _ => .needed) (fun h _ b => eqxOpen h b) s.blk }

/-- EQX_APPROVE. -/
def execEqxApprove (job : Nat) (s : State) : Host.Outcome State Fault Refusal :=
  .next { s with blk := hsmRun 0x51 job (fun h b => ruleSession b h) (fun _ => .none) (fun h _ b => eqxApprove h b) s.blk }

/-- EQX_STATUS. -/
def execEqxStatus (job : Nat) (s : State) : Host.Outcome State Fault Refusal :=
  .next { s with blk := hsmRun 0x52 job (fun h b => ruleSession b h) (fun _ => .none) (fun h _ b => eqxStatus h b) s.blk }

/-- EQX_CLOSE. -/
def execEqxClose (job : Nat) (s : State) : Host.Outcome State Fault Refusal :=
  .next { s with blk := hsmRun 0x53 job (fun h b => ruleClose b h) (fun _ => .none) (fun h _ b => eqxClose h b) s.blk }

/-- SESSION_EXPIRY. -/
def execSessionExpiry (sid : Nat) (s : State) : Host.Outcome State Fault Refusal := .next { s with blk := sessionExpiry sid s.blk }

/-- OWNER_CREATE. -/
def execOwnerCreate (job : Nat) (s : State) : Host.Outcome State Fault Refusal :=
  .next { s with blk := hsmRun 0x58 job ruleCreate (fun _ => .none) (fun h _ b => ownerCreate h b) s.blk }

/-- OWNER_UPDATE. -/
def execOwnerUpdate (job : Nat) (s : State) : Host.Outcome State Fault Refusal :=
  .next { s with blk := hsmRun 0x59 job ruleSelf (fun _ => .none) ownerUpdate s.blk }

/-- OWNER_DELETE. -/
def execOwnerDelete (job : Nat) (s : State) : Host.Outcome State Fault Refusal :=
  .next { s with blk := hsmRun 0x5A job ruleSelf (fun _ => .none) ownerDelete s.blk }

/-- FN_BIND. -/
def execFnBind (job : Nat) (s : State) : Host.Outcome State Fault Refusal := .next { s with blk := plainRun 0x5B .none fnBind job s.blk }

/-- FN_UNBIND. -/
def execFnUnbind (job : Nat) (s : State) : Host.Outcome State Fault Refusal :=
  .next { s with blk := plainRun 0x5C .none fnUnbind job s.blk }

/-- DOMAIN_CREATE. -/
def execDomainCreate (job : Nat) (s : State) : Host.Outcome State Fault Refusal :=
  .next { s with blk := domainRun 0x60 .needed domainCreate job s.blk }

/-- DOMAIN_OFFER. -/
def execDomainOffer (job : Nat) (s : State) : Host.Outcome State Fault Refusal :=
  .next { s with blk := plainRun 0x61 .needed domainOffer job s.blk }

/-- OFFER_EXPIRY. -/
def execOfferExpiry (s : State) : Host.Outcome State Fault Refusal := .next { s with blk := offerExpiry s.blk }

/-- DOMAIN_SPONSOR. -/
def execDomainSponsor (job : Nat) (s : State) : Host.Outcome State Fault Refusal :=
  .next { s with blk := domainRun 0x62 .needed (fun h _ => domainSponsor h) job s.blk }

/-- DOMAIN_JOIN. -/
def execDomainJoin (job : Nat) (s : State) : Host.Outcome State Fault Refusal :=
  .next { s with blk := offerRun 0x63 job s.blk (domainRun 0x63 .none domainJoin job s.blk) }

/-- DOMAIN_SEND. -/
def execDomainSend (job : Nat) (s : State) : Host.Outcome State Fault Refusal :=
  .next { s with blk := plainRun 0x64 .needed domainSend job s.blk }

/-- DOMAIN_RECEIVE. -/
def execDomainReceive (job : Nat) (s : State) : Host.Outcome State Fault Refusal :=
  .next { s with blk := offerRun 0x65 job s.blk (plainRun 0x65 .none domainReceive job s.blk) }

/-- DOMAIN_ROTATE. -/
def execDomainRotate (job : Nat) (s : State) : Host.Outcome State Fault Refusal :=
  .next { s with blk := domainRun 0x66 .needed (fun h _ => domainRotate h) job s.blk }

/-- DOMAIN_RETIRE. -/
def execDomainRetire (job : Nat) (s : State) : Host.Outcome State Fault Refusal :=
  .next { s with blk := domainRun 0x67 .none (fun h _ => domainRetire h) job s.blk }

/-- DOMAIN_REVOKE. -/
def execDomainRevoke (job : Nat) (s : State) : Host.Outcome State Fault Refusal :=
  .next { s with blk := domainRun 0x68 .none (fun h _ => domainRevoke h) job s.blk }

/-- DOMAIN_LEAVE. -/
def execDomainLeave (job : Nat) (s : State) : Host.Outcome State Fault Refusal :=
  .next { s with blk := hsmRun 0x69 job (fun h _ => ruleLeave h) (fun _ => .none) (fun h _ => domainLeave h) s.blk }

end Sys2Proof.Machine
end

