-- ==== Sys2Proof/Machine/Otp.lean ====
section
/-! DEFINITION. The fuse array: fields, the life-cycle state it encodes, programming, root keys (R81, R82, R93, R112). -/

namespace Sys2Proof.Machine

/-- An OTP word as it stands now. -/
def otpWord (b : Block) (w : Nat) : Nat := tgetD 0 b.otp.cells w

/-- An OTP word in the shadow of the last ROM entry. -/
def otpShadow (b : Block) (w : Nat) : Nat := tgetD 0 b.otp.shadow w

/-- Program bits of a word, only from 0 to 1, and only while VDD_ANA is good (R82). -/
def otpProgram (w v : Nat) (b : Block) : Block :=
  if b.sup.ana.good then b.onOtp (fun o => { o with cells := tset o.cells w (tgetD 0 o.cells w ||| v) }) else b

/-- `n` words from `w` as little-endian bytes. -/
def otpBytes (read : Nat → Nat) (w n : Nat) : Bytes := (List.range n).flatMap (fun i => lePut 4 (read (w + i)))

/-- LCS_STATE as one number. -/
def lcsField64 (b : Block) : Nat := otpWord b 0 + 2 ^ 32 * otpWord b 1

/-- The bits of a transition group. -/
def groupBits (g : Nat) : Nat := 0xFFF * 2 ^ (12 * g)

/-- A group is taken (R81). -/
def groupTaken (v g : Nat) : Bool := bits v (12 * g + 11) (12 * g) != 0

/-- The state that LCS_STATE encodes (R81): the highest taken group plus one. -/
def stateOfFuses (v : Nat) : Nat :=
  match [4, 3, 2, 1, 0].find? (groupTaken v) with
  | some g => g + 1
  | none => 0

/-- Program bits of LCS_STATE. -/
def programLcs (v : Nat) (b : Block) : Block := otpProgram 1 (v / 2 ^ 32) (otpProgram 0 (v % 2 ^ 32) b)

/-! ### CONFIG0 (R93) -/

/-- SIG_POLICY of a CONFIG0 word. -/
def sigPolicy (c : Nat) : Nat := bits c 17 16

/-- The algorithms that a policy requires: 0 ECDSA P-384, 1 ML-DSA-87, 2 LMS-HSS (R110). -/
def policyAlgs (p : Nat) : List Nat := if p = 0 then [0, 1] else if p = 1 then [1] else if p = 2 then [2] else []

/-! ### Root keys (R93, R112) -/

/-- First word of a ROOT_KEY entry. -/
def rootAt (e : Nat) : Nat := 0x050 + 13 * e

/-- A ROOT_KEY entry is programmed: its hash is not all zero. -/
def rootProgrammed (read : Nat → Nat) (e : Nat) : Bool := (List.range 12).any (fun i => read (rootAt e + i) != 0)

/-- CLASS_MASK of an entry. -/
def rootMask (read : Nat → Nat) (e : Nat) : Nat := bits (read (rootAt e + 12)) 7 0

/-- REVOKED of an entry. -/
def rootRevoked (read : Nat → Nat) (e : Nat) : Bool := bit (read (rootAt e + 12)) 8

/-- A programmed, unrevoked entry of an algorithm enables a class, other than the one excepted. -/
def classServed (read : Nat → Nat) (alg c : Nat) (except_ : Option Nat) : Bool :=
  (List.range 8).any (fun k =>
    let e := 8 * alg + k
    except_ != some e && rootProgrammed read e && !rootRevoked read e && bit (rootMask read e) c)

/-- The classes that a revocation would strand. -/
def stranded (read : Nat → Nat) (e : Nat) : Nat :=
  ((List.range 8).filter (fun c => bit (rootMask read e) c &&
    (policyAlgs (sigPolicy (read 8))).any (fun a => !classServed read a c (some e)))).foldl (fun m c => m ||| 2 ^ c) 0

/-- Anti-rollback counter of a class: the programmed bits of its thermometer. -/
def arbOf (read : Nat → Nat) (c : Nat) : Nat :=
  ((List.range 8).map (fun i => (List.range 32).countP (fun k => bit (read (0x190 + 8 * c + i)) k))).sum

/-- Advance an anti-rollback counter to `s`. -/
def arbAdvance (c s : Nat) (b : Block) : Block :=
  (List.range 8).foldl (fun b i =>
    let n := min 32 (s - 32 * i)
    if n = 0 then b else otpProgram (0x190 + 8 * c + i) (2 ^ n - 1) b) b

/-! ### Token roots -/

/-- First word of a TOKEN_ROOT entry. -/
def tokenAt (e : Nat) : Nat := 0x018 + 13 * e

/-- A TOKEN_ROOT entry is programmed. -/
def tokenProgrammed (read : Nat → Nat) (e : Nat) : Bool := (List.range 12).any (fun i => read (tokenAt e + i) != 0)

/-- REVOKED of a TOKEN_ROOT entry. -/
def tokenRevoked (read : Nat → Nat) (e : Nat) : Bool := bit (read (tokenAt e + 12)) 0

end Sys2Proof.Machine
end

