-- ==== Sys2Proof/Machine/LifeCycle.lean ====
section
/-! DEFINITION. Life-cycle transitions, Krazenal tokens, programming of OTP fields (R83 to R94, R112, R531). -/

namespace Sys2Proof.Machine

/-! ### Tokens (R89 to R92) -/

/-- Length of a Krazenal token. -/
def tokenLen : Nat := 7492

/-- Kinds of tokens (R90). -/
def tokenReturn : Nat := 1
def tokenRetire : Nat := 2
def tokenTestAdvance : Nat := 3
def tokenProvisionAdvance : Nat := 4

/-- The nonce is outstanding, equal and unexpired. -/
def nonceGood (b : Block) (n : Bytes) : Bool :=
  match b.otp.nonce with
  | some (v, exp) => v == n && decide (b.time.secs < exp)
  | none => false

/-- The nonce is discarded (R89). -/
def dropNonce (b : Block) : Block := b.onOtp (fun o => { o with nonce := none })

/-- Die identities and variant of a token or an unlock block are this device's. -/
def diesMatch (b : Block) (logic vault : Bytes) (variant : Nat) : Bool :=
  logic == otpBytes (otpWord b) 2 3 && vault == otpBytes (otpWord b) 5 3 && variant == bits (otpWord b 8) 3 0

/-- A named token root is programmed, unrevoked and the hash of a public key. -/
def tokenRootGood (b : Block) (e : Nat) (pk : Bytes) : Bool :=
  tokenProgrammed (otpWord b) e && !tokenRevoked (otpWord b) e && sha384 pk == otpBytes (otpWord b) (tokenAt e) 12

/-- What a token fails on (R91): form, nonce, KIND, state or die binding, roots or signatures. -/
inductive TokenFault where
  | form | nonce | kind | binding | root
  deriving DecidableEq, Repr

/-- The first four checks of R91, for a MAGIC: the first failure. -/
def tokenFront (b : Block) (t : Bytes) (magic kind src dst : Nat) : Option TokenFault :=
  if t.length ≠ tokenLen ∨ leAt t 0 4 ≠ magic ∨ leAt t 4 2 ≠ 1 ∨ allZero t 0x0A 2 = false ∨ allZero t 0x25 3 = false ∨
      allZero t 0x4A 6 = false then
    some .form
  else if nonceGood b (slice t 0x28 32) = false then some .nonce
  else if leAt t 6 2 ≠ kind then some .kind
  else if leAt t 8 1 ≠ src ∨ leAt t 9 1 ≠ dst ∨ diesMatch b (slice t 0x0C 12) (slice t 0x18 12) (leAt t 0x24 1) = false then some .binding
  else if 1 < leAt t 0x48 1 ∨ leAt t 0x49 1 < 2 ∨ 3 < leAt t 0x49 1 ∨ tokenRootGood b (leAt t 0x48 1) (slice t 0x50 97) = false ∨
      tokenRootGood b (leAt t 0x49 1) (slice t 0xB1 2592) = false then some .root
  else none

/-- Check 5 of R91: both signatures verify. -/
def tokenSigned (t : Bytes) : Bool :=
  let ec := slice t 0x50 97
  let msg := t.take 0x50
  pkValid 0x02 ec && pkVerify 0x02 ec false 0x02 [] msg (slice t 0xAD1 96) && pkVerify 0x12 (slice t 0xB1 2592) false 0 [] msg (slice t 0xB31 4627)

/-- What the checks of R91 find: a good token, a failure, or a unit whose failure keeps check 5 from running (R367). -/
inductive TokenVerdict where
  | good
  | bad (why : TokenFault)
  | dead (u : UnitId)
  deriving DecidableEq, Repr

/-- The token checks of R91 in their order. -/
def tokenCheck (b : Block) (t : Bytes) (magic kind src dst : Nat) : TokenVerdict :=
  match tokenFront b t magic kind src dst, hybridDead b with
  | some why, _ => .bad why
  | none, some u => .dead u
  | none, none => if tokenSigned t then .good else .bad .root

/-- The reason with which R84 names a token's failure. -/
def tokenReason : TokenFault → Nat
  | .form | .kind | .binding => 0x0003
  | .nonce => 0x0004
  | .root => 0x0002

/-- A command with a Krazenal token: its nonce is gone whatever the checks of R91 find; `f` follows a good token. -/
def tokenThen (h : HsmJob) (t : Bytes) (kind src dst : Nat) (f : Block → Block) (b : Block) : Block :=
  match tokenCheck b t 0x4A4C5431 kind src dst with
  | .bad why => hsmFail h (tokenReason why) 0 (dropNonce b)
  | .dead u => hsmFinish h stEngineAlarm (unitDetail u) 0 [] (dropNonce b)
  | .good => f (dropNonce b)

/-- LCS_GET_NONCE (R89). -/
def lcsGetNonce (h : HsmJob) (b : Block) : Block :=
  if bkParam h.block ≠ [] then hsmFail h 0x0501 0 b
  else
    let r := draw1 32 b
    hsmOk h 0 r.1 (r.2.onOtp (fun o => { o with nonce := some (r.1, b.time.secs + 600) }))

/-- The token nonce has lasted 600 s. -/
def nonceExpiry (b : Block) : Block := dropNonce b

/-! ### Transitions (R83) -/

/-- A row of R83: the token's kind, whether the owner 0 quorum is needed, the groups programmed. -/
structure LcsRow where
  token  : Option Nat
  quorum : Bool
  groups : List Nat

/-- The row for a state and a target. -/
def lcsRow (b : Block) (target : Nat) : Option LcsRow :=
  let rest := (List.range 5).filter (fun g => !groupTaken (lcsField64 b) g)
  match b.run.lcs, target with
  | 0, 1 => some { token := some tokenTestAdvance, quorum := false, groups := [0] }
  | 1, 2 => some { token := some tokenProvisionAdvance, quorum := false, groups := [1] }
  | 2, 3 => some { token := none, quorum := true, groups := [2] }
  | 3, 4 => some { token := some tokenReturn, quorum := true, groups := [3] }
  | 0, 5 | 1, 5 => some { token := some tokenRetire, quorum := false, groups := rest }
  | 2, 5 | 3, 5 => some { token := none, quorum := true, groups := rest }
  | 4, 5 => some { token := some tokenRetire, quorum := false, groups := [4] }
  | _, _ => none

/-- PF0, or, in BLANK and TEST, the monitor. -/
def lcsSender (b : Block) (h : HsmJob) : Bool := isPf0 h.req || (!isFn h.req && decide (b.run.lcs ≤ 1))

/-- What R84 and R531 refuse first of the command's own checks: another transition or an update under way, a TARGET without a row, a PARAM_LEN that
is not the row's, a reserved byte that is not zero. -/
def advanceBad (b : Block) (h : HsmJob) : Option Nat :=
  let p := bkParam h.block
  if b.kpr.hsm.any (fun x => x.id != h.id && (x.stage == .lcsDrain || x.stage == .keeperSwitch)) ∨ b.otp.resetDue then some 0x0009
  else match lcsRow b (leAt p 0 1) with
    | none => some 0x0001
    | some r => if p.length ≠ (if r.token.isSome then 8 + tokenLen else 8) ∨ allZero p 1 7 = false then some 0x0003 else none

/-- The classes that the source walk and the keeper stage of this boot look for: class 0 and those of the directory (R102, R117). -/
def walkClasses (b : Block) : List Nat :=
  let n := leAt b.boot.directory 6 2
  0 :: (((List.range (min n 8)).map (fun i => leAt b.boot.directory (0x10 + 32 * i) 1)).filter (fun c => c != 0 && decide (c < 8)))

/-- The preconditions of a row of R83. -/
def advanceReady (b : Block) (target : Nat) : Bool :=
  let r := otpWord b
  if target = 2 then
    !allZero (otpBytes r 2 3) 0 12 && (b.run.variant != .jtH48F || !allZero (otpBytes r 5 3) 0 12) && bits (r 8) 3 0 != 0 &&
      (List.range 4).all (tokenProgrammed r) && (List.range 24).any (fun e => rootProgrammed r e && !rootRevoked r e && bit (rootMask r e) 0)
  else if target = 3 then
    (policyAlgs (sigPolicy (r 8))).all (fun a => (walkClasses b).all (fun c => classServed r a c none))
  else true

/-- The rule of LCS_ADVANCE: a row that needs the owner 0 quorum takes its session; any other row, and a TARGET without one, takes AUTHORITY 0xFFFF
(R531, R532). -/
def ruleAdvance (h : HsmJob) (b : Block) : HsmRule :=
  let q := match lcsRow b (leAt (bkParam h.block) 0 1) with
    | some r => r.quorum
    | none => false
  if q then { ruleQuorum h.req h.block 0 0x0005 0x0005 with sender := lcsSender b h }
  else { ruleAny h.block with sender := lcsSender b h }

/-- LCS_ADVANCE after its session checks: parameters, token, preconditions; then reading stops on every SQ. DESIGN CHOICE (assumption 8): R84 gives
KEYS_LOCKED (0x0007) no place in the order; it is judged after the token and before the preconditions of R83. -/
def lcsAdvance (h : HsmJob) (b : Block) : Block :=
  let p := bkParam h.block
  let target := leAt p 0 1
  match advanceBad b h, lcsRow b target with
  | some why, _ => hsmFail h why 0 b
  | none, none => hsmFail h 0x0001 0 b
  | none, some r =>
    let after (b : Block) : Block :=
      if b.run.keysLocked then hsmFail h 0x0007 0 b
      else if advanceReady b target = false then hsmFail h 0x0006 0 b
      else onHsm h.id (fun x => { x with stage := .lcsDrain, note := [BitVec.ofNat 8 target] }) b
    match r.token with
    | none => after b
    | some kind => tokenThen h (p.drop 8) kind b.run.lcs target after b

/-- LCS_ADVANCE: steps 3 to 6 of R376. -/
def advanceRun (id : Nat) : Block → Block :=
  hsmRun 0x11 id ruleAdvance (fun _ => .none) (fun h _ b => lcsAdvance h b)

/-- Every descriptor read before the transition has completed. -/
def drained (b : Block) (h : HsmJob) : Bool :=
  b.work.jobs.all (fun j => j.id == h.id && isFn h.req) &&
    b.work.reads.all (fun r => match r.kind with
      | .descs _ _ => false
      | _ => true)

/-- UDS_OTP and TEST_ACCESS_OFF, which a move to PROVISION programs first. -/
def programSecret (b : Block) : Block :=
  let r := drawSeed 32 b
  let b := (List.range 8).foldl (fun b i => otpProgram (0x010 + i) (leAt r.1 (4 * i) 4) b) r.2
  otpProgram 8 (2 ^ 26) b

/-- The drain is over (R85, steps 3 to 5): the groups are programmed; `took` are the bits of LCS_STATE that read programmed after at most three
attempts. With no bit of the first group the command fails and reading goes on; so it does when UDS_OTP is to be drawn and the random source is FAILED
(R372). -/
def drainComplete (took : Nat) (b : Block) : Block :=
  match b.kpr.hsm.find? (fun h => h.stage == .lcsDrain) with
  | none => b
  | some h =>
    let target := leAt h.note 0 1
    match lcsRow b target with
    | none => b
    | some r =>
      if drained b h = false ∨ keeperRuns b = false then b
      else if target = 2 ∧ b.rng.state = .failed then settleAll (hsmFinish h stEngineAlarm 0x0601 0 [] b)
      else if target = 2 ∧ b.rng.state ≠ .ready then b
      else
        let b := if target = 2 then programSecret b else b
        let v := (r.groups.foldl (fun m g => m ||| groupBits g) 0) &&& took
        let b := programLcs v b
        if groupTaken (lcsField64 b) (r.groups.head?.getD 0) then settleAll ((hsmOk h target [] b).onOtp (fun o => { o with resetDue := true }))
        else settleAll (hsmFail h 0x0008 0 b)

/-- 1 ms after the completion the transition resets the device (R85, step 6); WINTER is left by no such reset (R27). -/
def transitionReset (b : Block) : Block := if b.otp.resetDue ∧ b.run.state ≠ .winter then chipReset 5 b else b

/-! ### TOKEN_ROOT_REVOKE (R92) -/

/-- SUCCESS of a command that programs fuses; without VDD_ANA none is programmed (R82), and the command fails with a reason. -/
def fused (h : HsmJob) (why : Nat) (f : Block → Block) (b : Block) : Block :=
  if b.sup.ana.good then hsmOk h 0 [] (f b) else hsmFail h why 0 b

/-- The rule of TOKEN_ROOT_REVOKE: the owner 0 quorum from PROVISION on. -/
def ruleTokenRevoke (h : HsmJob) (b : Block) : HsmRule :=
  if 2 ≤ b.run.lcs then ruleQuorum h.req h.block 0 0x0005 0x0005 else rulePlain h.req h.block

/-- TOKEN_ROOT_REVOKE. DESIGN CHOICE (assumption 8), where R92 is silent: the parameters are the entry (u8), 7 zero bytes and the token; malformed ones
give 0x0003; an entry that is unprogrammed or revoked already gives 0x0006, as the last unrevoked one does; a token that passes R91 but is not
signed under the other entry gives 0x0002; fuses that cannot be programmed (R82) give 0x0006. -/
def tokenRevoke (h : HsmJob) (b : Block) : Block :=
  let p := bkParam h.block
  let e := leAt p 0 1
  let r := otpWord b
  let other := if e < 2 then 1 - e else 5 - e
  let t := p.drop 8
  if p.length ≠ 8 + tokenLen ∨ allZero p 1 7 = false ∨ 3 < e then hsmFail h 0x0003 0 b
  else tokenThen h t tokenRetire b.run.lcs b.run.lcs (fun b =>
    if (tokenProgrammed r e && !tokenRevoked r e && tokenProgrammed r other && !tokenRevoked r other) = false then hsmFail h 0x0006 0 b
    else if (if e < 2 then leAt t 0x48 1 else leAt t 0x49 1) ≠ other then hsmFail h 0x0002 0 b
    else fused h 0x0006 (otpProgram (tokenAt e + 12) 1) b) b

/-! ### OTP_PROGRAM (R93) -/

/-- A word may take bits in the present state; `new` is what a word would hold afterwards. -/
def otpAllowed (b : Block) (new : Nat → Nat) (w v : Nat) : Bool :=
  let s := b.run.lcs
  if 0x002 ≤ w ∧ w ≤ 0x007 then s == 1
  else if w = 0x008 then
    decide (v / 2 ^ 27 = 0) && (decide (v % 16 = 0) || s == 1) && (decide (v / 16 = 0) || s == 2) && decide (sigPolicy (new 8) ≠ 3) &&
      (sigPolicy (new 8) == sigPolicy (otpWord b 8) || (policyAlgs (sigPolicy (new 8))).all (fun a => classServed new a 0 none))
  else if w = 0x009 then s == 2
  else if 0x018 ≤ w ∧ w ≤ 0x04B then s == 1 && (w - 0x018) % 13 != 12
  else if 0x050 ≤ w ∧ w ≤ 0x187 then
    let e := (w - 0x050) / 13
    ((w - 0x050) % 13 != 12 || decide (v / 256 = 0)) && (s == 2 || s == 3 || (s == 1 && bit (rootMask new e) 0))
  else false

/-- OTP_PROGRAM. DESIGN CHOICE (assumption 8), where R93 is silent: the parameters are the first word (u16), a count (u16), 4 zero bytes and the words
to program; a length that is not theirs gives 0x0501, another malformed parameter 0x0504. -/
def otpProgramCmd (h : HsmJob) (b : Block) : Block :=
  let p := bkParam h.block
  let w := leAt p 0 2
  let n := leAt p 2 2
  match fixedItem p 8 (4 * n) with
  | none => hsmFail h 0x0501 0 b
  | some (vs, e) =>
    if itemsEnd p e = false ∨ n = 0 then hsmFail h 0x0501 0 b
    else if allZero p 4 4 = false ∨ 512 < w + n then hsmFail h 0x0504 0 b
    else
      let v (i : Nat) : Nat := leAt vs (4 * (i - w)) 4
      let new (i : Nat) : Nat := otpWord b i ||| (if w ≤ i ∧ i < w + n then v i else 0)
      if (List.range n).all (fun i => otpAllowed b new (w + i) (v (w + i))) = false then hsmFail h 0x0006 0 b
      else fused h 0x0006 (fun b => (List.range n).foldl (fun b i => otpProgram (w + i) (v (w + i)) b) b) b

/-! ### ROOT_REVOKE (R112, R113) -/

/-- ROOT_REVOKE: entry and 7 zero bytes. -/
def rootRevoke (h : HsmJob) (b : Block) : Block :=
  let p := bkParam h.block
  let e := leAt p 0 1
  let r := otpWord b
  if p.length ≠ 8 ∨ allZero p 1 7 = false then hsmFail h 0x0501 0 b
  else if b.run.state ≠ .service then hsmFail h 0x0107 0 b
  else if 23 < e ∨ rootProgrammed r e = false ∨ rootRevoked r e = true then hsmFail h 0x0101 0 b
  else if stranded r e ≠ 0 then hsmFail h 0x0102 (stranded r e) b
  else fused h 0x0101 (otpProgram (rootAt e + 12) 0x100) b

/-! ### The commands -/

/-- LCS_GET_NONCE, from PF0 or the monitor. -/
def lcsNonceRun (id : Nat) : Block → Block :=
  hsmRun 0x10 id (fun h _ => { ruleAny h.block with sender := isPf0 h.req || !isFn h.req }) (fun _ => .needed)
    (fun h _ b => lcsGetNonce h b)

/-- A command of PF0 under the owner 0 quorum, with the reason for a quorum not met. -/
def owner0Run (code why : Nat) (f : HsmJob → Block → Block) (id : Nat) : Block → Block :=
  hsmRun code id (fun h _ => ruleQuorum h.req h.block 0 why why) (fun _ => .none) (fun h _ b => f h b)

/-- LCS_GET_NONCE. -/
def execLcsGetNonce (job : Nat) (s : State) : Host.Outcome State Fault Refusal :=
  .next { s with blk := lcsNonceRun job s.blk }

/-- LCS_ADVANCE. -/
def execLcsAdvance (job : Nat) (s : State) : Host.Outcome State Fault Refusal := .next { s with blk := advanceRun job s.blk }

/-- LCS_DRAIN_COMPLETE. -/
def execLcsDrainComplete (took : Nat) (s : State) : Host.Outcome State Fault Refusal := .next { s with blk := drainComplete took s.blk }

/-- TRANSITION_RESET. -/
def execTransitionReset (s : State) : Host.Outcome State Fault Refusal := .next { s with blk := transitionReset s.blk }

/-- TOKEN_ROOT_REVOKE. -/
def execTokenRootRevoke (job : Nat) (s : State) : Host.Outcome State Fault Refusal :=
  .next { s with blk := hsmRun 0x12 job ruleTokenRevoke (fun _ => .none) (fun h _ b => tokenRevoke h b) s.blk }

/-- OTP_PROGRAM. -/
def execOtpProgram (job : Nat) (s : State) : Host.Outcome State Fault Refusal :=
  .next { s with blk := owner0Run 0x13 0x0005 otpProgramCmd job s.blk }

/-- NONCE_EXPIRY. -/
def execNonceExpiry (s : State) : Host.Outcome State Fault Refusal := .next { s with blk := nonceExpiry s.blk }

/-- ROOT_REVOKE. -/
def execRootRevoke (job : Nat) (s : State) : Host.Outcome State Fault Refusal :=
  .next { s with blk := owner0Run 0x20 0x0103 rootRevoke job s.blk }

end Sys2Proof.Machine
end

