-- ==== Sys2Proof/Machine/Flash.lean ====
section
/-! DEFINITION. The flash interposer: filter, verified block cache, ports, host boot window, mailbox, SPIT (R125 to R154). -/

namespace Sys2Proof.Machine

/-! ### Ports (R127) -/

/-- A port: 0 FLA, 1 FLB. -/
def portOf (b : Block) (p : Nat) : FlashPort := if p = 0 then b.flt.fla else b.flt.flb

/-- Change a port. -/
def onPort (p : Nat) (f : FlashPort → FlashPort) (b : Block) : Block :=
  b.onFlt (fun x => if p = 0 then { x with fla := f x.fla } else { x with flb := f x.flb })

/-- The chip select of a port address. -/
def csOf (addr : Nat) : Nat := addr / 0x20000000

/-- The 4 KiB block of a port address. -/
def blockOf (addr : Nat) : Nat := addr / 4096 * 4096

/-- What an operation is on the pins: 0 read, 1 program, 2 and 3 erase, 4 suspend, 5 resume. -/
def kindCode : FlashKind → Nat
  | .fill | .read => 0
  | .program => 1
  | .erase4K => 2
  | .erase64K => 3

/-- What discovery has found at the chip select of a port address. -/
def sfdpAt (p : FlashPort) (addr : Nat) : Option SfdpView :=
  match if csOf addr = 0 then p.cs0 else p.cs1 with
  | .found s => some s
  | _ => none

/-- Size in bytes that SFDP reports for the chip select of a port address; 0 when it is absent. -/
def chipSize (p : FlashPort) (addr : Nat) : Nat := ((sfdpAt p addr).map (fun s => 2 ^ (20 + s.sizeLog))).getD 0

/-- A request lies within its chip select's SFDP size (R127). -/
def inDevice (p : FlashPort) (addr n : Nat) : Bool := decide (addr % 0x20000000 + n ≤ chipSize p addr)

/-- The chip select of a port address suspends programs and erases (R129). -/
def suspends (p : FlashPort) (addr : Nat) : Bool := (sfdpAt p addr).any (·.suspend)

/-- The page size of the chip select of a port address. -/
def pageOf (p : FlashPort) (addr : Nat) : Nat := ((sfdpAt p addr).map (fun s => max 1 s.page)).getD 256

/-- Address bytes on the controller ports (R125): three for a device of 128 Mbit (16 MiB) or less; none with a suspend or a resume. -/
def addrBytes (p : FlashPort) (kind addr : Nat) : Nat :=
  if 3 < kind then 0 else if (sfdpAt p addr).any (fun s => decide (4 < s.sizeLog)) then 4 else 3

/-- Put an operation on the pins of a port. -/
def flashPins (p kind addr : Nat) (data : Bytes) (b : Block) : Block :=
  send (.flash p (csOf addr) kind (addrBytes (portOf b p) kind addr) (addr % 0x20000000) data) b

/-! ### The filter (R130 to R133) -/

/-- What a request does: R, P, E by bit number. -/
def opRead : Nat := 0
def opProgram : Nat := 1
def opErase : Nat := 2

/-- First bit of a requester's rights. -/
def rightsAt : FlashReq → Nat
  | .keeper => 0
  | .host => 3
  | .spit => 6

/-- The number of a requester in event 0x100. -/
def reqCode : FlashReq → Nat
  | .keeper => 0
  | .host => 1
  | .spit => 2

/-- What the filter says: refused, by the append-only rules or otherwise; or allowed, with the rule. -/
inductive FlashJudge where
  | refused (append : Bool)
  | allowed (rule : Option FlashRule)
  deriving DecidableEq, Repr

/-- The valid rule that holds a whole request; addresses beyond the chip select's size are covered by none (R127). -/
def ruleFor (p : FlashPort) (addr n : Nat) : Option FlashRule :=
  if inDevice p addr n then
    (p.rules.find? (fun r => r.2.valid && decide (r.2.base ≤ addr) && decide (addr + n ≤ r.2.base + r.2.size))).map (·.2)
  else none

/-- Two spans of port addresses share a byte. -/
def spanMeets (addr n : Nat) (s : Nat × Nat) : Bool := decide (addr < s.1 + s.2) && decide (s.1 < addr + n)

/-- The append-only rules (R151). -/
def appendOk (p : FlashPort) (r : FlashRule) (req : FlashReq) (op addr n : Nat) : Bool :=
  op == opRead || (decide (req = .keeper) && decide (addr = p.ptr) && decide (addr + n ≤ r.base + r.size))

/-- The judgment of R132. In Thaw filter mode the keeper alone is let in (R152; SPIT reads of the image part go to flash unjudged); the slots of a
class that failed are denied to all (R118). -/
def flashJudge (b : Block) (port : Nat) (req : FlashReq) (op addr n : Nat) : FlashJudge :=
  let p := portOf b port
  if b.flt.mode = 3 ∨ b.flt.mode = 4 then .refused false
  else if b.flt.mode = 2 then (if req = .keeper then .allowed none else .refused false)
  else if p.denied.any (spanMeets addr n) then .refused false
  else match ruleFor p addr n with
    | none => if req = .keeper ∧ b.flt.solstice = false then .allowed none else .refused false
    | some r =>
      if op ≠ opRead ∧ r.verified = true ∧ b.flt.solstice = true then .refused false
      else if r.append = true ∧ appendOk p r req op addr n = false then .refused true
      else if req = .keeper ∨ bit r.rights (rightsAt req + op) = true then .allowed (some r)
      else .refused false

/-- A refusal is counted (R133): in FLT_REFUSE_COUNT, in the recorder, with the block in FLT_LAST_EVENT. -/
def flashRefuse (req : FlashReq) (port addr : Nat) (append : Bool) (b : Block) : Block :=
  let b := b.onFlt (fun f => { f with
    refuseCount := sat32 (f.refuseCount + 1), lastEvent := port * 2 ^ 31 + blockOf addr % 2 ^ 30 })
  raiseIrq irqFlash (if append then event 0x102 port b else event 0x100 (reqCode req) b)

/-- A refusal that names no flash address: the block of FLT_LAST_EVENT is a free value. -/
def flashRefuseNowhere (req : FlashReq) (b : Block) : Block :=
  flashRefuse req b.flt.dirPort ((Config.lastBlock b.flt.refuseCount).toNat) false b

/-- A refusal, of a flash address where the request names one. -/
def flashRefuseAt (req : FlashReq) (place : Option (Nat × Nat)) (append : Bool) (b : Block) : Block :=
  match place with
  | some (p, a) => flashRefuse req p a append b
  | none => flashRefuseNowhere req b

/-! ### The ledger and the cache (R137 to R143) -/

/-- The ledger digest of a block. -/
def ledgerDigest (port addr : Nat) (data : Bytes) : Bytes :=
  sha256 (ascii "JLB1" ++ lePut 1 port ++ lePut 4 addr ++ data)

/-- Lines of the cache. -/
def cacheLines (v : Variant) : Nat := if v = .jtH48F then 4096 else 1024

/-- The visible line of a block. -/
def cacheLine (b : Block) (port block : Nat) : Option CacheLine := b.flt.cache.find? (fun c => c.port == port && c.block == block)

/-- A line is used. -/
def touchLine (port block : Nat) (b : Block) : Block :=
  b.onFlt (fun f => { f with
    useClock := f.useClock + 1
    cache := f.cache.map (fun c => if c.port = port ∧ c.block = block then { c with lastUse := f.useClock } else c) })

/-- A block becomes visible; the least recently used line makes room. -/
def addLine (port block : Nat) (data : Bytes) (b : Block) : Block :=
  b.onFlt (fun f =>
    let lines := f.cache.filter (fun c => !(c.port == port && c.block == block))
    let oldest := (lines.map (·.lastUse)).foldl min f.useClock
    let lines := if lines.length < cacheLines b.run.variant then lines else lines.filter (fun c => c.lastUse != oldest)
    { f with useClock := f.useClock + 1, cache := lines ++ [{ port := port, block := block, data := data, lastUse := f.useClock }] })

/-- A block is suspect (R143). -/
def markSuspect (port block index : Nat) (b : Block) : Block :=
  let b := b.onFlt (fun f => { f with
    suspects := if f.suspects.contains (port, block) then f.suspects else f.suspects ++ [(port, block)]
    suspectCount := sat32 (f.suspectCount + 1), lastEvent := port * 2 ^ 31 + 2 ^ 30 + block % 2 ^ 30 })
  raiseIrq irqFlash (event 0x101 index b)

/-! ### Operations (R128, R129) -/

/-- An operation of ranks 1 to 3 is a read that may suspend a program or an erase. -/
def isWriteOp (o : FlashOp) : Bool := o.kind != .fill && o.kind != .read

/-- The operation taken next among some: lowest rank, then arrival order. -/
def bestOp (ops : List FlashOp) : Option FlashOp :=
  ops.foldl (fun m o => match m with
    | none => some o
    | some x => if o.rank < x.rank ∨ (o.rank = x.rank ∧ o.id < x.id) then some o else m) none

/-- Run an operation that waits. -/
def runOp (p : Nat) (o : FlashOp) (b : Block) : Block :=
  flashPins p (kindCode o.kind) o.addr o.data
    (onPort p (fun x => { x with running := some o, queue := x.queue.filter (fun q => q.id != o.id) }) b)

/-- A read waits for a chip select. -/
def waitingRead (x : FlashPort) (cs : Nat) : Option FlashOp :=
  bestOp (x.queue.filter (fun o => decide (o.rank ≤ 3) && !isWriteOp o && csOf o.addr == cs))

/-- The port takes its next operation, suspends a program or an erase for a read, or resumes it. -/
def portNext (p : Nat) (b : Block) : Block :=
  let x := portOf b p
  match x.running, x.paused with
  | some r, none =>
    if isWriteOp r && suspends x r.addr then
      match waitingRead x (csOf r.addr) with
      | some o => runOp p o (flashPins p 4 r.addr [] (onPort p (fun y => { y with paused := some r, running := none }) b))
      | none => b
    else b
  | some _, some _ => b
  | none, some w =>
    match waitingRead x (csOf w.addr) with
    | some o => runOp p o b
    | none => flashPins p 5 w.addr [] (onPort p (fun y => { y with running := some w, paused := none }) b)
  | none, none =>
    match bestOp x.queue with
    | some o => runOp p o b
    | none => b

/-- An operation is asked of a port. -/
def askOp (p : Nat) (kind : FlashKind) (addr len : Nat) (data : Bytes) (rank : Nat) (ws : List FlashWaiter) (b : Block) : Block :=
  let o : FlashOp := { id := b.flt.nextOp, kind := kind, addr := addr, len := len, data := data, rank := rank, waiters := ws }
  portNext p (onPort p (fun x => { x with queue := x.queue ++ [o] }) (b.onFlt (fun f => { f with nextOp := f.nextOp + 1 })))

/-- A fill of a block: one that is under way takes the waiter and the higher rank (R141). -/
def askFill (p block rank : Nat) (ws : List FlashWaiter) (b : Block) : Block :=
  let same (o : FlashOp) : Bool := o.kind == .fill && o.addr == block
  let join (o : FlashOp) : FlashOp := if same o then { o with waiters := o.waiters ++ ws, rank := min o.rank rank } else o
  if (portOps (portOf b p)).any same then
    portNext p (onPort p (fun x => { x with queue := x.queue.map join, running := x.running.map join }) b)
  else askOp p .fill block 4096 [] rank ws b

/-- Read-ahead: fills of up to the next four blocks of the rule that are not cached (R142). -/
def readAhead (p block : Nat) (r : FlashRule) (b : Block) : Block :=
  (List.range 4).foldl (fun b i =>
    let a := block + 4096 * (i + 1)
    if r.base + r.size < a + 4096 ∨ (cacheLine b p a).isSome then b else askFill p a 6 [] b) b

/-! ### The keeper's own operations

A keeper command that is one command here (GET_RECORD, UPDATE_KEEPER, an append, a Thaw write) happens when the port serves it: a read once the
port is idle or can suspend what it runs, a write once it is idle. -/

/-- The port can serve a keeper read now. -/
def readableNow (b : Block) (p : Nat) : Bool :=
  let x := portOf b p
  x.paused.isNone && x.running.all (fun r => isWriteOp r && suspends x r.addr)

/-- The port can serve a keeper program or erase now. -/
def writableNow (b : Block) (p : Nat) : Bool := (portOf b p).paused.isNone && (portOf b p).running.isNone

/-- Suspend (4) or resume (5) what runs on a port, around a keeper read. -/
def aroundRead (p kind : Nat) (b : Block) : Block :=
  match (portOf b p).running with
  | some r => flashPins p kind r.addr [] b
  | none => b

/-- A keeper read, with what runs on the port suspended meanwhile (R129). -/
def whileRead (p : Nat) (f : Block → Block) (b : Block) : Block := aroundRead p 5 (f (aroundRead p 4 b))

/-- A BOOT_ACTIVATE under way that the keeper still runs. -/
def liveAct (b : Block) (a : Activation) : Bool := b.kpr.hsm.any (fun h => h.id == a.job && h.stage == .activating)

/-- A write meets a slot that an activation has closed (R119, R153). -/
def slotClosed (b : Block) (p addr n : Nat) : Bool :=
  b.flt.acts.any (fun a => liveAct b a && a.port == p && a.closed.any (spanMeets addr n))

/-! ### Answers to who waits -/

/-- A host read is answered with Completer Abort (R133). -/
def windowAbort (b : Block) : Block :=
  reply 0 .abort [] (advise 0 aerAbort b)

/-- The mailbox command ends with a RESULT. -/
def mbxEnd (result : Nat) (buffer : List (Nat × Byte)) (b : Block) : Block :=
  raiseIrq irqMailbox (b.onFlt (fun f => { f with mbxBusy := false, mbxResult := result, buffer := buffer }))

/-- Bytes as the list of those that are not 0. -/
def bufferOf (data : Bytes) : List (Nat × Byte) := (List.range data.length).filterMap (fun i =>
  if byteAt data i = 0 then none else some (i, byteAt data i))

/-- The mailbox buffer as bytes. -/
def bufferBytes (b : Block) (n : Nat) : Bytes := (List.range n).map (fun i => tgetD 0 b.flt.buffer i)

/-- SPIT_ALERT_N is driven for a cause (R150), in the states in which it is not Hi-Z (R54). -/
def spitAlert (cause : Nat) (b : Block) : Block :=
  match b.run.state with
  | .keeperBoot | .service | .thaw => b.onPins (fun p => { p with spitAlert := true, spitCause := max p.spitCause cause })
  | _ => b

/-- All ones on SPIT. -/
def spitOnes (n : Nat) (b : Block) : Block := if n = 0 then b else send (.spit (List.replicate n 0xFF)) b

/-- A waiter gets nothing: poisoned (R133). -/
def poisonWaiter (b : Block) (w : FlashWaiter) : Block :=
  match w with
  | .bootWindow _ _ => windowAbort b
  | .mailbox _ _ => mbxEnd 5 [] b
  | .spit _ n => spitAlert 2 (spitOnes n b)
  | .keeper _ => b

/-! ### SPIT reads (R146, R149, R152) -/

/-- Where a SPIT address leads, its part's end left aside: port, port address, bytes of the part from there (0 past its end). In Thaw filter mode
there is the image part alone (R152). -/
def spitReach (b : Block) (a : Nat) : Option (Nat × Nat × Nat) :=
  if b.flt.mode = 2 then
    if b.flt.spitPort ≤ 1 ∧ a < 0x10000000 then some (b.flt.spitPort, b.flt.spitBase + a, b.flt.spitSize - a) else none
  else if a < 0x10000000 then
    match tget b.boot.classes 3, b.boot.port with
    | some c, some p => if c.accepted then some (p, c.base + 0x4000 + a, c.imageLen - a) else none
    | _, _ => none
  else if b.flt.spitPort ≤ 1 then
    some (b.flt.spitPort, b.flt.spitBase + (a - 0x10000000), b.flt.spitSize - (a - 0x10000000))
  else none

/-- Where a SPIT address within its part leads. -/
def spitPlace (b : Block) (a : Nat) : Option (Nat × Nat × Nat) := (spitReach b a).filter (fun x => x.2.2 != 0)

/-- The flash address that a SPIT address names, for a refusal. -/
def spitNames (b : Block) (a : Nat) : Option (Nat × Nat) := (spitReach b a).map (fun x => (x.1, x.2.1))

/-- A SPIT read is refused from here on: all ones, SPIT_ALERT_N, counted. -/
def spitRefused (n : Nat) (place : Option (Nat × Nat)) (append : Bool) (b : Block) : Block :=
  spitAlert 1 (spitOnes n (flashRefuseAt .spit place append b))

/-- What the cache does not hold: octal waits for flash; otherwise all ones with SPIT_MISS while the fill goes on. -/
def spitMiss (octal : Bool) (a n : Nat) (fill : List FlashWaiter → Block → Block) (b : Block) : Block :=
  if octal then fill [.spit a n] b else spitAlert 3 (spitOnes n (fill [] b))

/-- A SPIT read of `n` bytes goes on at a SPIT address, block by block. -/
def spitGo : Nat → Bool → Nat → Nat → Block → Block
  | 0, _, _, _, b => b
  | fuel + 1, octal, a, n, b =>
    if n = 0 then b
    else match spitPlace b a with
      | none => if b.flt.mode = 2 ∧ 1 < b.flt.spitPort then spitOnes n b else spitRefused n (spitNames b a) false b
      | some (p, addr, room) =>
        let k := min (min n room) (4096 - addr % 4096)
        if b.flt.mode = 2 then spitMiss octal a n (fun ws => askOp p .read addr k [] 2 ws) b
        else match flashJudge b p .spit opRead addr k with
          | .refused ap => spitRefused n (some (p, addr)) ap b
          | .allowed none => spitRefused n (some (p, addr)) false b
          | .allowed (some r) =>
            if r.verified then
              match cacheLine b p (blockOf addr) with
              | some c =>
                spitGo fuel octal (a + k) (n - k)
                  (send (.spit (slice c.data (addr % 4096) k)) (touchLine p (blockOf addr) b))
              | none => readAhead p (blockOf addr) r (spitMiss octal a n (askFill p (blockOf addr) 2) b)
            else spitMiss octal a n (fun ws => askOp p .read addr k [] 2 ws) b

/-- A SPIT read from its start; in FROZEN all ones and no alert (R58). -/
def spitRead (octal : Bool) (a n : Nat) (b : Block) : Block :=
  if b.flt.mode = 4 then spitOnes n b else spitGo (n / 4096 + 2) octal a n b

/-- A waiter gets bytes that were read from a port address on. -/
def serveWaiter (start : Nat) (data : Bytes) (b : Block) (w : FlashWaiter) : Block :=
  match w with
  | .bootWindow a n => reply 0 .success (slice data (a - start) n) b
  | .mailbox a n => mbxEnd 0 (bufferOf (slice data (a - start) n)) b
  | .spit a n =>
    match spitPlace b a with
    | none => spitOnes n b
    | some (_, addr, room) =>
      let k := min (min n room) (start + data.length - addr)
      let b := send (.spit (slice data (addr - start) k)) b
      spitGo (n / 4096 + 2) true (a + k) (n - k) b
  | .keeper _ => b

/-! ### An operation ends -/

/-- A fill has ended: served when the block matches its ledger entry, otherwise poisoned; a flash read error is no suspect, and counts apart (R140). -/
def fillDone (p : Nat) (o : FlashOp) (data : Bytes) (ok : Bool) (b : Block) : Block :=
  match ruleFor (portOf b p) o.addr 4096 with
  | none => o.waiters.foldl poisonWaiter b
  | some r =>
    let index := r.ledger + (o.addr - r.base) / 4096
    if ok = false then o.waiters.foldl poisonWaiter (b.onFlt (fun f => { f with fetchErrors := sat32 (f.fetchErrors + 1) }))
    else if tget (portOf b p).ledger index = some (ledgerDigest p o.addr data) then
      o.waiters.foldl (serveWaiter o.addr data) (addLine p o.addr data b)
    else o.waiters.foldl poisonWaiter (markSuspect p o.addr index b)

/-- A part of a mailbox program or erase has ended; the command ends with the last part, or at a flash error. -/
def mbxPartDone (p : Nat) (ok : Bool) (b : Block) : Block :=
  let mine (o : FlashOp) : Bool := o.rank == 4
  if ok = false then
    mbxEnd 3 b.flt.buffer (onPort p (fun x => { x with queue := x.queue.filter (fun o => !mine o) }) b)
  else if (portOps (portOf b p)).any mine then b
  else mbxEnd 0 b.flt.buffer b

/-- A flash operation of a port ends: `data` are the bytes of a read, `ok` false stands for a flash error. The port takes its next one. -/
def flashOpComplete (p : Nat) (data : Bytes) (ok : Bool) (b : Block) : Block :=
  match (portOf b p).running with
  | none => b
  | some o =>
    let d := slice data 0 o.len
    let b := onPort p (fun x => { x with running := none }) b
    let b := match o.kind with
      | .fill => fillDone p o d ok b
      | .read => if ok then o.waiters.foldl (serveWaiter o.addr d) b else o.waiters.foldl poisonWaiter b
      | _ =>
        if o.rank = 1 then b
        else if o.rank = 4 then mbxPartDone p ok b
        else b.onFlt (fun f => { f with
          spitBusy := (portOps (portOf b p)).any (fun x => x.rank == 5), spitWel := false
          spitErr := if ok then f.spitErr else f.spitErr ||| (if o.kind = .program then 0x40 else 0x20) })
    portNext p b

/-! ### Host boot window (R144) -/

/-- The image class behind an alias of the boot window. -/
def aliasClass (off : Nat) : Nat := if off < 0x10000000 then 1 else if off < 0x20000000 then 2 else if off < 0x30000000 then 5 else 6

/-- Where a boot-window offset leads for `n` bytes: the port address, if there is one to name, and whether it may be read. -/
def windowPlace (b : Block) (off n : Nat) : Option Nat × Bool :=
  if 0x40000000 ≤ off then (some (off - 0x40000000), true)
  else
    let x := off % 0x10000000
    match tget b.boot.classes (aliasClass off) with
    | some c => if c.accepted then (some (c.base + 0x4000 + x), decide (x + n ≤ c.imageLen)) else (none, false)
    | none => (none, false)

/-- A host read of the boot window. -/
def windowRead (off n : Nat) (b : Block) : Block :=
  if (fnOf b 0).d3hot then reply 0 .unsupported [] (advise 0 aerUnsupported b)
  else if b.run.state = .frozen then windowAbort b
  else
    let p := b.flt.dirPort
    match windowPlace b off n with
    | (none, _) => windowAbort (flashRefuseNowhere .host b)
    | (some a, false) => windowAbort (flashRefuse .host p a false b)
    | (some a, true) =>
      match flashJudge b p .host opRead a n with
      | .refused ap => windowAbort (flashRefuse .host p a ap b)
      | .allowed none => windowAbort (flashRefuse .host p a false b)
      | .allowed (some r) =>
        if r.verified then
          match cacheLine b p (blockOf a) with
          | some c => reply 0 .success (slice c.data (a % 4096) n) (touchLine p (blockOf a) b)
          | none => readAhead p (blockOf a) r (askFill p (blockOf a) 3 [.bootWindow a n] b)
        else askOp p .read a n [] 3 [.bootWindow a n] b

/-- A write to BAR2: discarded, counted and recorded as a refusal (R133, R144). -/
def windowWrite (off : Nat) (b : Block) : Block :=
  if (fnOf b 0).d3hot then advise 0 aerUnsupported b
  else flashRefuseAt .host ((windowPlace b off 1).1.map (fun a => (b.flt.dirPort, a))) false b

/-! ### Mailbox (R145) -/

/-- A program split at page boundaries: address and bytes of each part. -/
def pageParts (page : Nat) : Nat → Nat → Bytes → List (Nat × Bytes)
  | 0, _, _ => []
  | fuel + 1, a, d =>
    if d.isEmpty then []
    else
      let k := page - a % page
      (a, d.take k) :: pageParts page fuel (a + k) (d.drop k)

/-- The filter's answer to a mailbox command: refused, BUSY for a write into a slot that an activation has closed (R153), or what follows. -/
def mbxJudged (p op a n : Nat) (f : FlashRule → Block → Block) (b : Block) : Block :=
  match flashJudge b p .host op a n with
  | .refused ap => mbxEnd 1 b.flt.buffer (flashRefuse .host p a ap b)
  | .allowed none => mbxEnd 1 b.flt.buffer (flashRefuse .host p a false b)
  | .allowed (some r) =>
    if op ≠ opRead ∧ slotClosed b p a n = true then mbxEnd 2 b.flt.buffer (flashRefuse .host p a false b)
    else f r (b.onFlt (fun x => { x with mbxBusy := true }))

/-- A mailbox command starts. -/
def mbxStart (b : Block) : Block :=
  let p := b.flt.mbxAddr / 2 ^ 31
  let a := b.flt.mbxAddr % 2 ^ 30
  let n := b.flt.mbxLen
  let crosses := decide (n = 0) || decide (4096 < a % 4096 + n)
  match b.flt.mbxCmd with
  | 1 =>
    if crosses then mbxEnd 4 b.flt.buffer b
    else mbxJudged p opRead a n (fun r b =>
      if r.verified then
        match cacheLine b p (blockOf a) with
        | some c => mbxEnd 0 (bufferOf (slice c.data (a % 4096) n)) (touchLine p (blockOf a) b)
        | none => readAhead p (blockOf a) r (askFill p (blockOf a) 3 [.mailbox a n] b)
      else askOp p .read a n [] 3 [.mailbox a n] b) b
  | 2 =>
    if crosses then mbxEnd 4 b.flt.buffer b
    else mbxJudged p opProgram a n (fun _ b =>
      (pageParts (pageOf (portOf b p) a) 4097 a (bufferBytes b n)).foldl (fun b x => askOp p .program x.1 x.2.length x.2 4 [] b) b) b
  | 3 =>
    if a % 4096 ≠ 0 then mbxEnd 4 b.flt.buffer b else mbxJudged p opErase a 4096 (fun _ => askOp p .erase4K a 4096 [] 4 []) b
  | 4 =>
    if a % 65536 ≠ 0 then mbxEnd 4 b.flt.buffer b else mbxJudged p opErase a 65536 (fun _ => askOp p .erase64K a 65536 [] 4 []) b
  | _ => mbxEnd 4 b.flt.buffer b

/-- A write of FLT_MBX_CTRL. -/
def mbxCtrl (v : Word) : Block → Block :=
  pf0Write 0x7FFFE000 v (fun b =>
    let b := b.onFlt (fun f => { f with mbxLen := bits v.toNat 12 0 })
    if bit v.toNat 31 = false then b
    else if b.flt.mbxBusy then b.onFlt (fun f => { f with mbxOverrun := true })
    else mbxStart b)

/-- FLT_MBX_CTRL.GO with a CMD. -/
def mbxCommand (cmd : Nat) (v : Word) (b : Block) : Block := if b.flt.mbxCmd = cmd ∧ bit v.toNat 31 = true then mbxCtrl v b else b

/-! ### SPIT commands (R146 to R150) -/

/-- The allow-list entry of an opcode: its KIND when it is allowed. -/
def spitKind (b : Block) (op : Byte) : Option Nat :=
  let e := tgetD 0 b.flt.allow op.toNat
  let k := bits e 15 8
  if bit e 0 = true ∧ k ≠ 4 ∧ k ≤ 11 then some k else none

/-- The SPIT address of a command: as many bytes of it as the allow-list entry gives (R125, R147). -/
def spitAddress (b : Block) (op : Byte) (a : Nat) : Nat := a % 256 ^ bits (tgetD 0 b.flt.allow op.toNat) 23 16

/-- The default allow-list (R148); address bytes and dummy cycles as JESD216 names them. -/
def defaultAllow : Table Nat :=
  let e (kind addr dummy : Nat) : Nat := 1 + kind * 2 ^ 8 + addr * 2 ^ 16 + dummy * 2 ^ 24
  [(0x02, e 1 3 0), (0x03, e 0 3 0), (0x04, e 7 0 0), (0x05, e 5 0 0), (0x06, e 6 0 0), (0x0B, e 0 3 8), (0x0C, e 0 4 8), (0x12, e 1 4 0),
   (0x13, e 0 4 0), (0x20, e 2 3 0), (0x21, e 2 4 0), (0x5A, e 8 3 8), (0x66, e 10 0 0), (0x99, e 11 0 0), (0x9F, e 9 0 0), (0xD8, e 3 3 0),
   (0xDC, e 3 4 0), (0xEC, e 0 4 6), (0xEE, e 0 4 20)]

/-- The SPIT port takes commands: not in RESET, where its pins are Hi-Z (R46), nor in FROZEN (R58). -/
def spitOpen (b : Block) : Bool := b.flt.mode != 4 && b.run.state != .reset

/-- An opcode that is not allowed: nothing is driven, SPIT_ALERT_N, counted (R147). -/
def spitBadOpcode (b : Block) : Block := if spitOpen b = false then b else spitAlert 1 (flashRefuseNowhere .spit b)

/-- A SPIT command of a kind: what it does, when its opcode is allowed; refused, when the opcode is not. -/
def spitCommand (kinds : List Nat) (op : Byte) (f : Nat → Block → Block) (b : Block) : Block :=
  if spitOpen b = false then b
  else match spitKind b op with
    | some k => if kinds.contains k then f k b else b
    | none => spitBadOpcode b

/-- A SPIT program or erase is refused: the error bit of its kind. -/
def spitWriteRefused (erase : Bool) (place : Option (Nat × Nat)) (append : Bool) (b : Block) : Block :=
  spitRefused 0 place append (b.onFlt (fun f => { f with spitErr := f.spitErr ||| (if erase then 0x20 else 0x40), spitWel := false }))

/-- A SPIT program or erase: refused outside the direct part, past its end, by the filter, or into a closed slot (R153); otherwise its operations are
queued at rank 5, a program split at the pages of its chip select (R126). -/
def spitWrite (erase : Bool) (kind : FlashKind) (a n : Nat) (data : Bytes) (b : Block) : Block :=
  let refuse (place : Option (Nat × Nat)) (ap : Bool) : Block := spitWriteRefused erase place ap b
  match spitPlace b a with
  | none => refuse (spitNames b a) false
  | some (p, addr, room) =>
    if a < 0x10000000 ∨ b.flt.mode = 2 ∨ room < n then refuse (some (p, addr)) false
    else match flashJudge b p .spit (if erase then opErase else opProgram) addr n with
      | .refused ap => refuse (some (p, addr)) ap
      | .allowed none => refuse (some (p, addr)) false
      | .allowed (some _) =>
        if slotClosed b p addr n then refuse (some (p, addr)) false
        else
          let parts := if erase then [(addr, [])] else pageParts (pageOf (portOf b p) addr) (n + 1) addr data
          parts.foldl (fun b x => askOp p kind x.1 (if erase then n else x.2.length) x.2 5 [] b)
            (b.onFlt (fun f => { f with spitBusy := f.spitBusy || !parts.isEmpty, spitErr := 0 }))

/-- The SPIT status register; opcode 0x05 alone gives the alert cause too, and releases the pin (R150). -/
def spitStatus (op : Byte) (b : Block) : Block :=
  let st := lePut 1 (flag b.flt.spitBusy 0 + flag b.flt.spitWel 1 + b.flt.spitErr)
  if op = 0x05 then (send (.spit (st ++ lePut 1 b.pins.spitCause)) b).onPins (fun p => { p with spitAlert := false, spitCause := 0 })
  else send (.spit st) b

/-- A SPIT erase: of the 4 KiB or 64 KiB block that holds the address. -/
def spitErase (k a : Nat) : Block → Block :=
  if k = 2 then spitWrite true .erase4K (a / 4096 * 4096) 4096 [] else spitWrite true .erase64K (a / 65536 * 65536) 65536 []

/-- Reset enable, then reset. -/
def spitReset (k : Nat) (b : Block) : Block :=
  if k = 10 then b.onFlt (fun f => { f with spitRstEn := true })
  else b.onFlt (fun f => if f.spitRstEn then { f with spitRstEn := false, spitWel := false, spitErr := 0 } else f)

/-! ### The commands -/

/-- HOST_BOOT_WINDOW_READ. -/
def execHostBootWindowRead (off len : Nat) (s : State) : Host.Outcome State Fault Refusal := .next { s with blk := windowRead off len s.blk }

/-- BOOT_WINDOW_WRITE. -/
def execBootWindowWrite (off : Nat) (s : State) : Host.Outcome State Fault Refusal :=
  .next { s with blk := if off < 2 ^ 31 then windowWrite off s.blk else s.blk }

/-- MBX_READ. -/
def execMbxRead (value : Word) (s : State) : Host.Outcome State Fault Refusal := .next { s with blk := mbxCommand 1 value s.blk }

/-- MBX_PROGRAM. -/
def execMbxProgram (value : Word) (s : State) : Host.Outcome State Fault Refusal := .next { s with blk := mbxCommand 2 value s.blk }

/-- MBX_ERASE_4K. -/
def execMbxErase4K (value : Word) (s : State) : Host.Outcome State Fault Refusal := .next { s with blk := mbxCommand 3 value s.blk }

/-- MBX_ERASE_64K. -/
def execMbxErase64K (value : Word) (s : State) : Host.Outcome State Fault Refusal := .next { s with blk := mbxCommand 4 value s.blk }

/-- SPIT_READ. -/
def execSpitRead (op : Byte) (octal : Bool) (addr n : Nat) (s : State) : Host.Outcome State Fault Refusal :=
  .next { s with blk := if s.blk.flt.mode = 4 then spitOnes n s.blk else spitCommand [0] op (fun _ => spitRead octal (spitAddress s.blk op addr) n) s.blk }

/-- SPIT_PROGRAM. -/
def execSpitProgram (op : Byte) (addr : Nat) (data : Bytes) (s : State) : Host.Outcome State Fault Refusal :=
  .next { s with blk := spitCommand [1] op (fun _ => spitWrite false .program (spitAddress s.blk op addr) data.length data) s.blk }

/-- SPIT_ERASE. -/
def execSpitErase (op : Byte) (addr : Nat) (s : State) : Host.Outcome State Fault Refusal :=
  .next { s with blk := spitCommand [2, 3] op (fun k => spitErase k (spitAddress s.blk op addr)) s.blk }

/-- SPIT_READ_STATUS. -/
def execSpitReadStatus (op : Byte) (s : State) : Host.Outcome State Fault Refusal :=
  .next { s with blk := spitCommand [5] op (fun _ => spitStatus op) s.blk }

/-- SPIT_WRITE_ENABLE. -/
def execSpitWriteEnable (op : Byte) (s : State) : Host.Outcome State Fault Refusal :=
  .next { s with blk := spitCommand [6] op (fun _ b => b.onFlt (fun f => { f with spitWel := true })) s.blk }

/-- SPIT_WRITE_DISABLE. -/
def execSpitWriteDisable (op : Byte) (s : State) : Host.Outcome State Fault Refusal :=
  .next { s with blk := spitCommand [7] op (fun _ b => b.onFlt (fun f => { f with spitWel := false })) s.blk }

/-- SPIT_READ_SFDP: the table's bytes are the device's own. -/
def execSpitReadSfdp (op : Byte) (addr n : Nat) (s : State) : Host.Outcome State Fault Refusal :=
  .next { s with blk := spitCommand [8] op (fun _ => send (.spit ((List.range n).map (fun i => Config.sfdpByte (addr + i))))) s.blk }

/-- SPIT_READ_ID. -/
def execSpitReadId (op : Byte) (s : State) : Host.Outcome State Fault Refusal :=
  .next { s with blk := spitCommand [9] op (fun _ => send (.spit [0x7F, 0x4A, 0x48])) s.blk }

/-- SPIT_RESET. -/
def execSpitReset (op : Byte) (s : State) : Host.Outcome State Fault Refusal :=
  .next { s with blk := spitCommand [10, 11] op spitReset s.blk }

/-- SPIT_OPCODE_REFUSED. -/
def execSpitOpcodeRefused (op : Byte) (s : State) : Host.Outcome State Fault Refusal :=
  .next { s with blk := if spitKind s.blk op = none then spitBadOpcode s.blk else s.blk }

end Sys2Proof.Machine
end

