-- ==== Sys2Proof/Machine/Watchdog.lean ====
section
/-! DEFINITION. The watchdogs: arming, periods, check-ins, bites and their ladders, Winter, the healthy run (R416 to R435). -/

namespace Sys2Proof.Machine

/-! ### Instances -/

/-- WDG_P or WDG_D. -/
def wdgAt (b : Block) (isP : Bool) : WdgInst := if isP then b.wdg.p else b.wdg.d

/-- Change an instance. -/
def onWdgAt (isP : Bool) (f : WdgInst → WdgInst) (b : Block) : Block :=
  b.onWdg (fun w => if isP then { w with p := f w.p } else { w with d := f w.d })

/-- PERIOD and SLOT_EN as taken (R417, R419): 0 becomes 1. -/
def wdgTaken (v : Nat) : Nat := max 1 (bits v 31 16) * 65536 + max 1 (v % 65536)

/-- WDG_CFG, or WDG_HOSTCFG once host software has ended the boot phase. -/
def wdgCfg (x : WdgInst) : Nat := if x.hostSet then x.hostCfg else x.cfg

/-- The period in µs. -/
def wdgPeriod (x : WdgInst) : Nat := (wdgCfg x % 65536) * 10000

/-- The enabled slots. -/
def wdgSlots (x : WdgInst) : Nat := bits (wdgCfg x) 31 16

/-- WDG_WINDOW_FRAC. -/
def wdgFrac (b : Block) : Nat := bits (otpShadow b 8) 21 19

/-- The effective WDG_RESTART_LIMIT (R93): 0 means 3. -/
def wdgLimit (b : Block) : Nat := if bits (otpShadow b 8) 25 22 = 0 then 3 else bits (otpShadow b 8) 25 22

/-- The key of a slot (R421). -/
def wdgKey (b : Block) (isP : Bool) (slot : Nat) : Nat :=
  let salt := if isP then bits (otpShadow b 9) 31 16 else bits (otpShadow b 9) 15 0
  (0x5A00 + slot) ^^^ salt

/-- The instance runs its period: armed, in a state that has watchdogs, WDG_P only while the host is released (R416), WDG_D not while it waits for
a restarted keeper (R428). -/
def wdgCounts (b : Block) (isP : Bool) : Bool :=
  if isP then b.wdg.p.armed && decide (b.run.state = .service) && !hostInReset b
  else b.wdg.d.armed && b.wdg.d.await.isNone &&
    (decide (b.run.state = .keeperBoot) || decide (b.run.state = .service) || decide (b.run.state = .thaw))

/-- Trap mode (R416). -/
def wdgTrap (b : Block) (isP : Bool) : Bool :=
  decide (b.run.lcs ≤ 1) || (!isP && (decide (b.run.state = .keeperBoot) || decide (b.run.state = .thaw)))

/-- A period begins: every enabled slot pending; the window is open at once in the boot phase and with WDG_WINDOW_FRAC 0. -/
def wdgBegin (isP : Bool) (b : Block) : Block :=
  let open_ := (isP && b.wdg.p.boot) || wdgFrac b == 0
  onWdgAt isP (fun x => { x with begun := b.time.usec, window := open_, done := 0, await := none }) b

/-- The first write of WDG_CFG arms an instance (R417); WDG_P begins in its boot phase (R419). -/
def wdgArm (isP : Bool) (v : Nat) (b : Block) : Block :=
  if (wdgAt b isP).armed then b
  else wdgBegin isP (onWdgAt isP (fun x => { x with cfg := wdgTaken v, armed := true, boot := isP }) b)

/-! ### Record 1 (R432, R433) -/

/-- The payload of record 1: its copy without GEN. A field at copy offset `o` stands at `o - 1`. -/
def wdgRec (b : Block) : Bytes := (recPayload b 1).getD (zeros 47)

/-- CONSEC_RESTARTS. -/
def wdgConsec (b : Block) : Nat := leAt (wdgRec b) 0 1
/-- RUNG. -/
def wdgRung (b : Block) : Nat := leAt (wdgRec b) 1 1
/-- RECOVERY_REQUEST. -/
def wdgRecovery (b : Block) : Bool := bit (leAt (wdgRec b) 2 1) 0
/-- WINTER_ENTERED. -/
def wdgWintered (b : Block) : Bool := bit (leAt (wdgRec b) 2 1) 1
/-- D_RESET_COUNT or P_RESET_COUNT. -/
def wdgResets (b : Block) (isP : Bool) : Nat := leAt (wdgRec b) (if isP then 7 else 3) 4
/-- D_LAST_CAUSE or P_LAST_CAUSE. -/
def wdgLast (b : Block) (isP : Bool) : Nat := leAt (wdgRec b) (if isP then 15 else 11) 4
/-- WINTER_COUNT. -/
def wdgWinters (b : Block) : Nat := leAt (wdgRec b) 19 4

/-- Record 1 with one field changed. -/
def wdgPut (off n v : Nat) (r : Bytes) : Bytes := patch r off (lePut n v)

/-- FLAGS with one bit set or cleared. -/
def wdgFlag (i : Nat) (v : Bool) (r : Bytes) : Bytes :=
  let f := leAt r 2 1
  wdgPut 2 1 ((if bit f i then f - 2 ^ i else f) + flag v i) r

/-! ### What a bite does -/

/-- The code of an action (R435). -/
def wdgActionCode : WdgAction → Nat
  | .keeperRestart => 1
  | .chipRestart => 2
  | .winter => 3
  | .hostReset => 4
  | .powerCycle => 5
  | .recoveryBoot => 6
  | .trap => 7
  | .countOnly => 8

/-- HSM commands that the keeper holds are sent back (R39): every one, or those a condition names. -/
def sendBack (p : HsmJob → Bool) (b : Block) : Block :=
  let js := b.kpr.hsm.filter p
  let ids := js.map (·.id)
  let clear (u : PkUnit) : PkUnit :=
    { u with
      queue := u.queue.filter (fun q => !ids.contains q.1)
      running := u.running.filter (fun i => !ids.contains i)
      state := if u.state = .busy ∧ (u.running.any ids.contains) then .idle else u.state }
  let b := b.onPke (fun k => { k with mod := clear k.mod, lat := clear k.lat })
  js.foldl (fun b h =>
    if hsmOrphan b h then b.onKpr (fun k => { k with hsm := k.hsm.filter (fun x => x.id != h.id) })
    else hsmFinish h stKeeperRetry 0 0 [] b) b

/-- What a new run of the keeper finds gone from its data memories: sessions of every kind, the offer, SPDM connections, the blob
counter values in RAM (R272), the Solstice Harvest. -/
def keeperMemories (b : Block) : Block :=
  let b := b.onKpr (fun k => { k with sessions := [], offer := none, update := none, stopped := false })
  let b := b.onKey (fun k => { k with imp := none, blobNext := k.blobLimit })
  (b.onFlt (fun f => { f with acts := [] })).onRcd (fun r => { r with mctp := SpdmConn.reset, doe := SpdmConn.reset, sessions := [] })

/-- A keeper restart (R428). -/
def keeperRestart (b : Block) : Block :=
  let b := keeperMemories (sendBack (fun _ => true) b)
  let b := b.onEvr (fun e => { e with solstice := none })
  let b := b.onPwr (fun p => { p with restarts := min 255 (p.restarts + 1) })
  let b := b.onWdg (fun w => { w with restarted := true, d := { w.d with await := some b.time.usec, window := false } })
  settleAll (event 0x441 0 b)

/-- A BOOT_ACTIVATE whose flash operation is gone ends as at a flash error (R123). -/
def activationDies (b : Block) (a : Activation) : Block :=
  match b.kpr.hsm.find? (fun h => h.id == a.job && h.stage == .activating) with
  | none => b
  | some h => if a.step = .program ∨ a.step = .readback then hsmFail h 0x0106 0 b else hsmFail h 0x0104 0xE b

/-- The interposer in Winter (R153): requests refused, ports idle, the cache kept and not served. -/
def flashWinter (b : Block) : Block :=
  let b := b.flt.acts.foldl activationDies b
  let ops := portOps b.flt.fla ++ portOps b.flt.flb
  let idle (p : FlashPort) : FlashPort := { p with queue := [], running := none, paused := none }
  let b := flashWaitersDie ops b
  let b := if b.flt.mbxBusy then mbxEnd 1 [] b else b
  let b := b.onFlt (fun f => { f with
    mode := 3, fla := idle f.fla, flb := idle f.flb, spitBusy := false, spitWel := false, acts := [] })
  b.onPins (fun p => { p with spitAlert := false, spitCause := 0 })

/-- Lanes and cores without power (R26). -/
def fabricOff (b : Block) : Block :=
  let b := b.onSte (fun s => { s with lanes := s.lanes.map (fun l =>
    { l with state := if l.state = .failed then .failed else .off, admitted := false, bank := none, spare := none }) })
  let b := b.onSce (fun s => { s with cores := s.cores.map (fun c =>
    { c with state := if c.state = .failed then .failed else .off, admitted := false, key := none }) })
  let b := b.onPwr (fun p => { p with goalLanes := [], goalCores := [], settling := false, quiesce := [], resetting := none })
  b.onMon (fun m => if (m.running.map (·.1)) = some 0x51 then { m with running := none, reply := true } else m)

/-- Winter entry (R430). -/
def winterEntry (b : Block) : Block :=
  let n := min (wdgWinters b + 1) 0xFFFFFFFF
  let b := commitAlone (commitRec 1 (wdgPut 19 4 n (wdgFlag 1 true (wdgRec b)))) b
  let b := event 0x305 n b
  let b := b.onRun (fun r => { r with state := .winter })
  let b := holdHost (fun p => { p with winterHold := true, hostPulse := false, platCycle := false }) b
  let b := b.onKey (fun k => { k with keks := [] })
  let b := endKeys (fun _ => true) true stPolicyDenied 7 b
  let b := fabricOff (flashWinter (b.onVlt (fun v => { v with keysErased := true })))
  let b := b.onWdg (fun w => { w with
    d := { w.d with hard := none, await := none, window := false }, p := { w.p with hard := none, window := false }
    runStart := none, owed := [], causes := [], restartDue := false })
  settleAll b

/-- Winter subsumes every other action; a power cycle or a recovery boot ends in its chip restart, which subsumes the rest (R434). -/
def joinActions (as : List WdgAction) : List WdgAction :=
  if as.contains .winter then [.winter]
  else if as.contains .powerCycle then [.powerCycle]
  else if as.contains .recoveryBoot then [.recoveryBoot]
  else if as.contains .chipRestart then [.chipRestart]
  else as.eraseDups

/-- Carry out an action. -/
def wdgAct (a : WdgAction) (b : Block) : Block :=
  match a with
  | .keeperRestart => keeperRestart b
  | .chipRestart | .recoveryBoot => chipReset 3 b
  | .winter => winterEntry b
  | .hostReset => settleAll (holdHost (fun p => { p with hostPulse := true }) b)
  | .powerCycle => (b.onPins (fun p => { p with platCycle := true })).onWdg (fun w => { w with restartDue := true })
  | .trap | .countOnly => b

/-- A pulse on HOST_RST_N or PLAT_PWR_CYCLE_N runs. -/
def pulseRuns (b : Block) : Bool := b.pins.hostPulse || b.pins.platCycle

/-- Carry out actions, or keep them until a pulse that runs has ended (R434). -/
def wdgActs (as : List WdgAction) (b : Block) : Block :=
  if pulseRuns b then b.onWdg (fun w => { w with owed := w.owed ++ as })
  else (joinActions as).foldl (fun b a => wdgAct a b) b

/-- The action of a bite in ladder mode (R426, R427) and what it changes in record 1. -/
def ladderStep (b : Block) (isP : Bool) (r : Bytes) : WdgAction × Bytes :=
  if isP then
    match leAt r 1 1 with
    | 0 => (.hostReset, wdgPut 1 1 1 r)
    | 1 => (.powerCycle, wdgPut 1 1 2 r)
    | 2 => (.recoveryBoot, wdgFlag 0 true (wdgPut 1 1 3 r))
    | _ => (.winter, wdgPut 1 1 3 r)
  else if b.wdg.restarted = false then (.keeperRestart, r)
  else if leAt r 0 1 < wdgLimit b then (.chipRestart, wdgPut 0 1 (leAt r 0 1 + 1) r)
  else (.winter, r)

/-- WDG_LAST_CAUSE of a cause and an action (R435). -/
def causeWord (c : WdgCause) (a : WdgAction) : Nat :=
  c.kind * 2 ^ 28 + c.slot * 2 ^ 24 + wdgActionCode a * 2 ^ 20 + c.value % 65536

/-- One instance bites (R423, R425 to R427, R432): the commit comes before the action. In FROZEN a bite is counted only (R407); while the hard timer
runs, only in the recorder. A bite ends the healthy run. -/
def bite (c : WdgCause) (b : Block) : List WdgAction × Block :=
  let code := 0x300 + b2n c.isP
  if b.run.state = .frozen then ([], event code (causeWord c .countOnly / 65536) b)
  else if (wdgAt b c.isP).hard.isSome then ([], event 0x303 (b2n c.isP) b)
  else
    let trap := wdgTrap b c.isP
    let (a, r) := if trap then (WdgAction.trap, wdgRec b) else ladderStep b c.isP (wdgRec b)
    let cause := causeWord c a
    let r := wdgPut (if c.isP then 7 else 3) 4 (sat32 (wdgResets b c.isP + 1)) r
    let r := wdgPut (if c.isP then 15 else 11) 4 cause r
    let r := wdgPut (if c.isP then 29 else 23) 6 b.time.secs r
    let b := event code (cause / 65536) (commitAlone (commitRec 1 r) b)
    let b := b.onWdg (fun w => { w with
      runStart := w.runStart.map (fun _ => b.time.secs), d := { w.d with seen := 0 }, p := { w.p with seen := 0 } })
    let b := if trap then onWdgAt c.isP (fun x => { x with hard := some b.time.usec }) b else b
    ([a], b)

/-- The cause that an instance bites for: WRONG_KEY before EARLY before MISSING (R423). -/
def worstCause (cs : List WdgCause) (isP : Bool) : Option WdgCause :=
  let mine := cs.filter (fun c => c.isP == isP)
  (mine.find? (fun c => c.kind == 2)).orElse (fun _ => (mine.find? (fun c => c.kind == 1)).orElse (fun _ => mine.head?))

/-- The causes of the present moment are resolved: each instance bites at most once, then the actions are carried out together. -/
def resolveBites (b : Block) : Block :=
  let cs := b.wdg.causes
  let b := b.onWdg (fun w => { w with causes := [] })
  let one (isP : Bool) (r : List WdgAction × Block) : List WdgAction × Block :=
    match worstCause cs isP with
    | some c => let q := bite c r.2; (r.1 ++ q.1, q.2)
    | none => r
  let r := one true (one false ([], b))
  wdgActs r.1 r.2

/-- Note a cause. -/
def addCause (isP : Bool) (kind slot value : Nat) (b : Block) : Block :=
  b.onWdg (fun w => { w with causes := w.causes ++ [{ isP := isP, kind := kind, slot := slot, value := value }] })

/-- At the end of an event: resolve the causes, unless another event of the same moment follows. -/
def momentEnds (more : Bool) (b : Block) : Block := if more then b else resolveBites b

/-! ### Check-ins (R421 to R424) -/

/-- The enabled slot whose key was written. -/
def keySlot (b : Block) (isP : Bool) (v : Nat) : Option Nat :=
  (List.range 16).find? (fun i => bit (wdgSlots (wdgAt b isP)) i && wdgKey b isP i == v)

/-- VERDICT of an edge (R424). -/
def edgeVerdict : WdgEdge → Nat
  | .none => 0
  | .openTickFirst => 1
  | .openCheckinFirst => 2
  | .endCheckinFirst => 3
  | .endTickFirst => 4

/-- Judge a check-in. The first write after a keeper restart starts the period and is judged only as a key (R428). -/
def checkin (isP : Bool) (value : Nat) (edge : WdgEdge) (more : Bool) (b : Block) : Block :=
  let v := value % 65536
  if !isP && b.wdg.d.armed && b.wdg.d.await.isSome then
    let b := wdgBegin false b
    momentEnds more (match keySlot b false v with
      | some _ => b
      | none => addCause false 2 0 v b)
  else if wdgCounts b isP = false then b
  else
    let b := if edge = .none then b else onWdgAt isP (fun x => { x with verdict := edgeVerdict edge }) b
    momentEnds more (match keySlot b isP v with
      | none => addCause isP 2 0 v b
      | some i =>
        let x := wdgAt b isP
        if x.window = false then addCause isP 1 i 0 b
        else if bit x.done i then
          event 0x302 (16 * b2n isP + i) (onWdgAt isP (fun x => { x with dups := sat32 (x.dups + 1) }) b)
        else onWdgAt isP (fun x => { x with done := x.done ||| 2 ^ i, seen := x.seen ||| 2 ^ i }) b)

/-- A check-in of the host: WDG_P through PF0 (R418). -/
def hostCheckin (v : Word) (edge : WdgEdge) (more : Bool) (b : Block) : Block :=
  pf0Write 0xFFFF0000 v (checkin true v.toNat edge more) b

/-- WDG_CFG_WRITE: the keeper's write (R417 to R419). -/
def execWdgCfgWrite (isP : Bool) (value : Word) (s : State) : Host.Outcome State Fault Refusal :=
  .next { s with blk := if keeperRuns s.blk then wdgArm isP value.toNat s.blk else s.blk }

/-- A write of WDG_P_HOSTCFG (R419): the first after each host release. -/
def hostCfgWrite (v : Nat) (b : Block) : Block :=
  if b.wdg.p.armed && !hostInReset b && !b.wdg.p.hostSet then
    wdgBegin true (onWdgAt true (fun x => { x with hostCfg := wdgTaken v, hostSet := true, boot := false }) b)
  else b

/-- WDG_P_HOSTCFG_WRITE (R419). -/
def execWdgPHostcfgWrite (value : Word) (s : State) : Host.Outcome State Fault Refusal :=
  .next { s with blk := pf0Write 0 value (hostCfgWrite value.toNat) s.blk }

/-- A write of WDG_CHECKIN: of the keeper for WDG_D, of the host for WDG_P. -/
def anyCheckin (isP : Bool) (value : Word) (edge : WdgEdge) (more : Bool) (b : Block) : Block :=
  if isP then hostCheckin value edge more b
  else if keeperRuns b then checkin false value.toNat edge more b else b

/-- WDG_CHECKIN (R422). -/
def execWdgCheckin (isP : Bool) (value : Word) (edge : WdgEdge) (more : Bool) (s : State) : Host.Outcome State Fault Refusal :=
  .next { s with blk := anyCheckin isP value edge more s.blk }

/-- WDG_WINDOW_OPEN (R424). -/
def execWdgWindowOpen (isP : Bool) (s : State) : Host.Outcome State Fault Refusal :=
  .next { s with blk := if wdgCounts s.blk isP then onWdgAt isP (fun x => { x with window := true }) s.blk else s.blk }

/-- A period ends (R422): a slot not done is a MISSING cause; the next period begins. In FROZEN the bite is counted only. -/
def periodEnd (isP : Bool) (more : Bool) (b : Block) : Block :=
  let x := wdgAt b isP
  if wdgCounts b isP || (x.armed && decide (b.run.state = .frozen)) then
    let missing := wdgSlots x - (wdgSlots x &&& x.done)
    let b := wdgBegin isP b
    momentEnds more (if missing = 0 then b else addCause isP 3 0 missing b)
  else b

/-- WDG_PERIOD_END (R422). -/
def execWdgPeriodEnd (isP : Bool) (more : Bool) (s : State) : Host.Outcome State Fault Refusal :=
  .next { s with blk := periodEnd isP more s.blk }

/-- KEEPER_RESTART_PERIOD_TIMEOUT (R428). -/
def execKeeperRestartPeriodTimeout (s : State) : Host.Outcome State Fault Refusal :=
  .next { s with blk := if s.blk.wdg.d.await.isSome then wdgBegin false s.blk else s.blk }

/-! ### Pulses and timers -/

/-- What waited for a pulse to end. -/
def owedActs (b : Block) : Block :=
  if pulseRuns b then b
  else
    let as := b.wdg.owed
    wdgActs as (b.onWdg (fun w => { w with owed := [] }))

/-- The host-die reset pulse ends (R55, R427). -/
def hostPulseEnd (b : Block) : Block :=
  if b.pins.hostPulse then owedActs (onHostReset (fun p => { p with hostPulse := false }) b) else b

/-- HOST_RESET_PULSE_END (R55). -/
def execHostResetPulseEnd (s : State) : Host.Outcome State Fault Refusal := .next { s with blk := hostPulseEnd s.blk }

/-- The power-cycle pulse ends (R427): a watchdog chip restart follows. -/
def powerPulseEnd (b : Block) : Block :=
  if b.pins.platCycle then
    let due := b.wdg.restartDue
    let b := b.onPins (fun p => { p with platCycle := false })
    let b := b.onWdg (fun w => { w with restartDue := false, owed := if due then w.owed ++ [.chipRestart] else w.owed })
    owedActs b
  else b

/-- POWER_CYCLE_PULSE_END (R427). -/
def execPowerCyclePulseEnd (s : State) : Host.Outcome State Fault Refusal := .next { s with blk := powerPulseEnd s.blk }

/-- WDG_HARD_TIMEOUT (R425). -/
def execWdgHardTimeout (isP : Bool) (s : State) : Host.Outcome State Fault Refusal :=
  .next { s with blk := if (wdgAt s.blk isP).hard.isSome then chipReset 3 s.blk else s.blk }

/-! ### The healthy run (R429, R114) -/

/-- The two conditions at which a healthy run ends. -/
def healthyDue (b : Block) : Bool :=
  decide (b.run.state = .service) && b.wdg.runStart.any (fun t => decide (t + 900 ≤ b.time.secs)) &&
    decide (wdgSlots b.wdg.p &&& b.wdg.p.seen = wdgSlots b.wdg.p)

/-- The security version of a class as it runs; that of class 0 follows a live update (R468). -/
def runningVersion (b : Block) (c : Nat) (x : ClassSt) : Nat :=
  if c = 0 then ((b.boot.measures.find? (fun m => m.cls == 0)).map (fun m => leAt m.header 0x0C 2)).getD x.version else x.version

/-- The anti-rollback counter of an accepted class follows its SEC_VERSION (R114); `bad` are the classes whose programming fails. -/
def advanceRollback (bad : List Nat) (b : Block) : Block :=
  b.boot.classes.foldl (fun b c =>
    if c.2.accepted && decide (arbOf (otpWord b) c.1 < runningVersion b c.1 c.2) then
      if bad.contains c.1 ∨ b.sup.ana.good = false then event 0x0C3 c.1 b else arbAdvance c.1 (runningVersion b c.1 c.2) b
    else b) b

/-- A healthy run ends: C and RUNG go to 0, HEALTHY sets, the keeper advances the anti-rollback counters, and the next run begins. -/
def healthyRun (bad : List Nat) (b : Block) : Block :=
  if healthyDue b then
    let b := commitAlone (commitRec 1 (wdgPut 0 1 0 (wdgPut 1 1 0 (wdgRec b)))) b
    let b := b.onWdg (fun w => { w with
      healthy := true, runStart := some b.time.secs, d := { w.d with seen := 0 }, p := { w.p with seen := 0 } })
    advanceRollback bad b
  else b

/-- HEALTHY_RUN_COMPLETE (R429); `bad` names the classes whose fuses fail to program. -/
def execHealthyRunComplete (bad : List Nat) (s : State) : Host.Outcome State Fault Refusal :=
  .next { s with blk := healthyRun bad s.blk }

/-! ### The basic level (R485) -/

/-- LEG_WDG_KICK (R485). -/
def execLegWdgKick (value : Word) (edge : WdgEdge) (more : Bool) (s : State) : Host.Outcome State Fault Refusal :=
  .next { s with blk := hostCheckin value edge more s.blk }

/-- LEG_WDG_CFG_WRITE (R485): WDG_P_HOSTCFG with SLOT_EN 0x0001. -/
def execLegWdgCfgWrite (value : Word) (s : State) : Host.Outcome State Fault Refusal :=
  .next { s with blk := pf0Write 0xFFFF0000 value (hostCfgWrite (0x10000 + value.toNat % 65536)) s.blk }

end Sys2Proof.Machine
end

