-- ==== Sys2Proof/Machine/Recorder.lean ====
section
/-! DEFINITION. The event recorder's table: cells as bytes, Harvests, clearing, token refill, persisted counts (R439 to R449). -/

namespace Sys2Proof.Machine

/-- The 192 bytes of cell `i` (R439). -/
def cellBytes (i : Nat) (c : EvCell) : Bytes :=
  let code := if i = 0 then 0x47FF else if c.used then c.code + evSeverity c.code * 2048 + 0x4000 else 0
  lePut 4 c.gen ++ lePut 2 code ++ zeros 2 ++ lePut 8 c.count ++ lePut 4 c.suppressed ++ lePut 4 c.min ++ lePut 8 c.minTime ++
    lePut 4 c.max ++ zeros 4 ++ lePut 8 c.maxTime ++ lePut 8 c.first ++ lePut 8 c.last ++
    (List.range 32).flatMap (fun k => lePut 4 (tgetD 0 c.bins k))

/-- A Harvest taken now (R443). -/
def harvestNow (b : Block) : Harvest :=
  let clears := (evCell b 2).count % 2 ^ 32
  { startSeq := b.evr.seq, endSeq := b.evr.seq, startTime := stamp b, endTime := stamp b, clears0 := clears, clears1 := clears,
    cells := b.evr.cells }

/-- The header of a Harvest. -/
def harvestHead (h : Harvest) : Bytes :=
  lePut 4 0x4A485631 ++ lePut 2 1 ++ lePut 2 1024 ++ lePut 8 h.startSeq ++ lePut 8 h.endSeq ++ lePut 8 h.startTime ++ lePut 8 h.endTime ++
    lePut 4 h.clears0 ++ lePut 4 h.clears1 ++ zeros 16

/-- The cells of a Harvest. -/
def harvestCells (h : Harvest) : Bytes := (List.range 1024).flatMap (fun i => cellBytes i (tgetD (EvCell.swept i) h.cells i))

/-- The bytes of a Harvest. -/
def Harvest.bytes (h : Harvest) : Bytes := harvestHead h ++ harvestCells h

/-- GET_HARVEST (R444): the cells first, then the header; the keeper checks the pool sums first (R38). -/
def getHarvestCmd (id : Nat) : Block → Block := adminRun 0x87 id (fun j b =>
  let b := checkPools b
  let h := harvestNow b
  concludeCore id (success 0 harvestBytes) (adminWrite j [(64, harvestCells h), (0, harvestHead h)] harvestBytes b))

/-- GET_HARVEST. -/
def execGetHarvest (job : Nat) (s : State) : Host.Outcome State Fault Refusal := .next { s with blk := getHarvestCmd job s.blk }

/-- The clear (R448): GEN goes on, cell 2 stays, cell 1's bucket is full; then the clear is itself an event. -/
def clearCells (b : Block) : Block :=
  let b := (List.range 1024).foldl (fun b i =>
    if i = 2 then b
    else
      let c := EvCell.swept i
      putCell i { c with gen := ((evCell b i).gen + 2) % 2 ^ 32, tokens := if i = 1 then burstOf b 6 else 0 } b) b
  event 0x341 ((evCell b 2).count + 1) b

/-- HARVEST_CLEAR (R448). -/
def harvestClear (h : HsmJob) (b : Block) : Block :=
  if (bkParam h.block).any (· != 0) then hsmFail h 0x0504 0 b
  else
    let start := b.evr.seq
    hsmOk h start [] (clearCells b)

/-- HARVEST_CLEAR, under the owner 0 quorum. -/
def harvestClearRun (id : Nat) : Block → Block :=
  hsmRun 0x70 id (fun h _ => ruleQuorum h.req h.block 0 0x0506 0x0509) (fun _ => .none) (fun h _ b => harvestClear h b)

/-- HARVEST_CLEAR. -/
def execHarvestClear (job : Nat) (s : State) : Host.Outcome State Fault Refusal := .next { s with blk := harvestClearRun job s.blk }

/-- A bucket gains a token (R441): a full one, and cell 0, gain nothing. -/
def refill (i : Nat) (b : Block) : Block :=
  let c := evCell b i
  if i ≠ 0 ∧ i < 1024 ∧ c.used = true ∧ c.tokens < burstOf b (evSeverity c.code) then putCell i { c with tokens := c.tokens + 1 } b else b

/-- TOKEN_REFILL (R441). -/
def execTokenRefill (cell : Nat) (s : State) : Host.Outcome State Fault Refusal := .next { s with blk := refill cell s.blk }

/-- COUNTS_COMMIT_TIMER (R447): changes of the last second are committed by the running keeper. -/
def execCountsCommitTimer (s : State) : Host.Outcome State Fault Refusal :=
  .next { s with blk := if keeperRuns s.blk && !s.blk.evr.tally.isEmpty then commitCounts s.blk else s.blk }

/-- The read of the SMBus Alert Response Address (R441, R51), with STRAP_SBSEL at 0: a device that holds SB_ALERT_N returns its address, in bits
[7:1], and releases the pin. -/
def alertResponse (b : Block) : Block :=
  if bit b.pins.straps 2 = true ∨ b.pins.sbDisabled = true ∨ b.pins.sbAlert = false then b
  else send (.smbus (BitVec.ofNat 8 (2 * (0x30 + bits b.pins.straps 7 5)))) (b.onPins (fun p => { p with sbAlert := false }))

/-- SMBUS_ALERT_RESPONSE (R441). -/
def execSmbusAlertResponse (s : State) : Host.Outcome State Fault Refusal := .next { s with blk := alertResponse s.blk }

end Sys2Proof.Machine
end

