-- ==== Sys2Proof/Machine/Serve.lean ====
section
/-! DEFINITION. The command server of the monitor's framed mode and of the Krazenal MCTP message type: frames in, who serves a code in a state,
replies (R178, R491, R492, R494, R495, R498). -/

namespace Sys2Proof.Machine

/-! ### Frames (R491) -/

/-- A well-formed request: CODE, TAG and payload. -/
def parseFrame (body : Bytes) : Option (Nat × Nat × Bytes) :=
  let n := body.length
  if n < 8 ∨ 8200 < n then none
  else
    let len := leAt body 2 2
    if leAt body (n - 4) 4 = (crc32c (body.take (n - 4))).toNat ∧ n = 8 + len ∧ len ≤ 8192 then
      some (leAt body 0 1, leAt body 1 1, (body.drop 4).take len)
    else none

/-- A discarded frame is counted. -/
def badFrame (b : Block) : Block := b.onMon (fun m => { m with framesBad := sat32 (m.framesBad + 1) })

/-- Send a framed reply. -/
def uartReply (code tag status : Nat) (payload : Bytes) (b : Block) : Block := send (.uart (replyFrame code tag status payload)) b

/-! ### Who serves (R494 to R498) -/

/-- ROM is the command server. -/
def romServes (b : Block) : Bool :=
  match b.run.state with
  | .rom | .frozen => true
  | .thaw => !b.boot.romLock
  | _ => false

def isThawCode (c : Nat) : Bool := decide (1 ≤ c) && decide (c ≤ 4)
def isReleaseCode (c : Nat) : Bool := decide (0x20 ≤ c) && decide (c ≤ 0x22)
def isStatusCode (c : Nat) : Bool := (decide (0x30 ≤ c) && decide (c ≤ 0x34)) || (decide (0x10 ≤ c) && decide (c ≤ 0x13))
def isControlCode (c : Nat) : Bool := c == 0x40 || c == 0x3F
def isDebugCode (c : Nat) : Bool := decide (0x50 ≤ c) && decide (c ≤ 0x52)

/-- Debug commands are open (R495). -/
def debugOpened (b : Block) : Bool := decide (b.run.lcs ≤ 1) || (b.mon.debugOpen && decide (b.run.lcs ≤ 4))

/-- The STATUS with which a code is refused, 0 when it is served (R492). After a failed known-answer test ROM serves status commands alone
(R99). -/
def refusal (b : Block) (code : Nat) : Nat :=
  if b.mon.running.isSome then 5
  else if !(isThawCode code || isReleaseCode code || isStatusCode code || isControlCode code || isDebugCode code) then 2
  else if b.mon.owner = 1 && !(isThawCode code || isReleaseCode code || isStatusCode code) then 6
  else if isStatusCode code then 0
  else if b.boot.katFail then 4
  else if isThawCode code || isReleaseCode code then 0
  else if romServes b || decide (b.run.state = .winter) then 4
  else if isDebugCode code && !debugOpened b then 1
  else 0

/-- The monitor's answer to a request it refuses: LOCKED, NOT_SERVED and THAW_OWNED are counted. -/
def refuseFrame (code tag status : Nat) (b : Block) : Block :=
  let b := if status = 1 ∨ status = 4 ∨ status = 6 then b.onMon (fun m => { m with refused := sat32 (m.refused + 1) }) else b
  uartReply code tag status [] b

/-- The UART takes a frame: it is locked to a rate, and its mode is framed, or its next character chooses the mode (R489). -/
def takesFrame (b : Block) : Bool :=
  b.run.state != .reset && b.mon.baud != 0 && (b.mon.mode == .framed || b.mon.fresh)

/-- The frame flag that begins framed mode. -/
def intoFramed (b : Block) : Block := b.onMon (fun m => { m with mode := .framed, fresh := false })

/-- A request of a code by a monitor frame. `f` gives, from the TAG and the payload, what the request does; a frame of another code is no
request of this row. -/
def frameRun (code : Nat) (body : Bytes) (f : Nat → Bytes → Block → Block) (b : Block) : Block :=
  if takesFrame b = false then b
  else
    let b := intoFramed b
    match parseFrame body with
    | none => badFrame b
    | some (c, tag, payload) =>
      if c ≠ code then b
      else match refusal b code with
        | 0 => f tag payload b
        | st => refuseFrame code tag st b

/-- A request has been executed. -/
def countFrame (b : Block) : Block := b.onMon (fun m => { m with framesOk := sat32 (m.framesOk + 1) })

/-- What a request gives: a reply; a payload that is malformed; no answer at all. -/
inductive Answer where
  | reply (body : Bytes) | malformed | silent
  deriving DecidableEq, Repr

/-- The answer of a monitor request. -/
def answerFrame (code tag : Nat) (a : Answer) (b : Block) : Block :=
  match a with
  | .reply bs => countFrame (uartReply code tag 0 bs b)
  | .malformed => uartReply code tag 3 [] b
  | .silent => b

/-- Krazenal's MCTP message type (PRESUMED, assumption 22, vendor defined PCI). -/
def mctpType : Nat := 0x7E

/-- The sideband port carries MCTP. -/
def mctpUp (b : Block) : Bool := b.run.state != .reset && !b.pins.sbDisabled

/-- The address at which the sideband port answers (R51, R521): 0x30 + STRAP_ADDR on SMBus; on I3C the dynamic address, before one is assigned the
static one. -/
def portAddress (b : Block) : Nat :=
  let static := 0x30 + bits b.pins.straps 7 5
  if bit b.pins.straps 2 then b.sb.dynAddr.getD static else static

/-- A transfer of the sideband port is for this device. -/
def mctpTo (b : Block) (target : Nat) : Bool := mctpUp b && target == portAddress b

/-- A request that the monitor and the MCTP message type carry alike. `f` says which transport it came by (1 for MCTP). A malformed request over MCTP
gets the reply byte 0xFF. After a failed known-answer test only the monitor answers (R99). -/
def viaRun (code : Nat) (via : Via) (f : Nat → Bytes → Block → Answer × Block) (b : Block) : Block :=
  match via with
  | .frame body => frameRun code body (fun tag p b => let r := f 0 p b; answerFrame code tag r.1 r.2) b
  | .mctp target data =>
    if mctpTo b target = false ∨ b.boot.katFail = true then b
    else
      let r := f 1 data b
      match r.1 with
      | .reply bs => mctpSend mctpType (lePut 1 (code ||| 0x80) ++ bs) r.2
      | .malformed => mctpSend mctpType (lePut 1 (code ||| 0x80) ++ [0xFF]) r.2
      | .silent => r.2

/-! ### Evidence replies -/

/-- An evidence command's own reply: a reason (0 for none), RESULT, the output (R177, R445). -/
def evidence (reason result : Nat) (out : Bytes) : Answer := .reply (lePut 2 reason ++ lePut 8 result ++ out)

/-- HARVEST_GET (R445): SELECT 0 a new Harvest, with the pools checked (R38), 1 the Solstice copy. -/
def harvestGet (_ : Nat) (p : Bytes) (b : Block) : Answer × Block :=
  if p.length ≠ 1 ∨ 1 < leAt p 0 1 then (.malformed, b)
  else if b.run.state = .frozen then (evidence stFrozen 0 [], b)
  else if leAt p 0 1 = 0 then
    let b := checkPools b
    (evidence 0 harvestBytes (harvestNow b).bytes, b)
  else match b.evr.solstice with
    | some h => (evidence 0 harvestBytes h.bytes, b)
    | none => (evidence 1 0 [], b)

/-- HARVEST_GET. -/
def execHarvestGet (via : Via) (s : State) : Host.Outcome State Fault Refusal :=
  .next { s with blk := viaRun 0x13 via harvestGet s.blk }

end Sys2Proof.Machine
end

