-- ==== Sys2Proof/Machine/Supply.lean ====
section
/-! DEFINITION. Main supplies, the ordering monitor, internal power-good, VBAT and the battery domain (R63 to R71). -/

namespace Sys2Proof.Machine

/-- A main supply. -/
def rail (b : Block) : Supply → Rail
  | .ana => b.sup.ana
  | .core => b.sup.core
  | .ucie => b.sup.ucie
  | .io => b.sup.io

/-- Put a main supply. -/
def putRail (u : Supply) (r : Rail) (b : Block) : Block :=
  b.onSup (fun s => match u with
    | .ana => { s with ana := r }
    | .core => { s with core := r }
    | .ucie => { s with ucie := r }
    | .io => { s with io := r })

/-- All four main supplies are good. -/
def railsGood (b : Block) : Bool := b.sup.ana.good && b.sup.core.good && b.sup.ucie.good && b.sup.io.good

/-- The ordering monitor latches a fault (R67): codes 1 to 4 are power-up faults, which hold internal power-good low. Every fault counts. -/
def orderFault (code : Nat) (b : Block) : Block :=
  b.onSup (fun s => { s with
    fault := code, faultCount := min 255 (s.faultCount + 1), newFaults := s.newFaults ++ [code], held := s.held || decide (code ≤ 4) })

/-- VDD_CORE, VDD_UCIE and VDD_IO have all stayed below 0.10 V for at least 1 ms. -/
def railsEmpty (b : Block) : Bool :=
  [b.sup.core, b.sup.ucie, b.sup.io].all (fun r => !r.started && decide (r.lowAt + 1000 ≤ b.time.mono))

/-- A rise of VDD_CORE or VDD_IO to good took longer than 10 ms (R67, code 4). -/
def slowRise (b : Block) (u : Supply) : Bool :=
  (decide (u = .core) || decide (u = .io)) && (rail b u).goodAt == 0 && decide ((rail b u).startedAt + 10000 < b.time.mono + 1)

/-- The faults that a supply's coming to good is (R67, R68). DESIGN CHOICE (assumption 6): where one crossing meets several conditions, each is
counted, in the order 2, 3, 4, so that the latched code of the most recent one is the highest. -/
def goodFaults (b : Block) (u : Supply) : List Nat :=
  let apart (r : Rail) : List Nat :=
    (if r.good && decide (r.goodAt + 1000 < b.time.mono + 1) then [2] else []) ++ (if b.sup.io.started then [3] else [])
  (match u with
    | .ana => if b.sup.core.started then [1] else []
    | .core => apart b.sup.ucie
    | .ucie => apart b.sup.core
    | .io => []) ++ (if slowRise b u then [4] else [])

/-- VBAT loss (R71, R398, R400): tamper trigger 10; TMP_CFG returns to its defaults, and BBRAM, whose supply is gone, holds nothing. -/
def vbatLoss (b : Block) : Block :=
  let b := b.onTmp (fun t => { t with cfg := tmpCfgDefault })
  if 2 ≤ b.run.lcs then frost 10 b else zeroBbram b

/-- VBAT below 2.5 V while the battery domain runs from it (R71). DESIGN CHOICE (assumption 6): at exactly 2.5 V, where "from 2.4 to 2.5 V" (both
ends, R16) and "below 2.5 V" differ, no excursion is recorded. -/
def vbatWeak (b : Block) : Block :=
  if b.sup.vbatMv < 2400 then vbatLoss b
  else if b.sup.vbatMv < 2500 then b.onSup (fun s => { s with vbatSeen := true })
  else b

/-- A main supply starts. A new ramp from empty rails clears a latched power-up fault. -/
def supplyStarts (u : Supply) (b : Block) : Block :=
  if (rail b u).started then b
  else
    let b := if u ≠ .ana ∧ railsEmpty b = true then b.onSup (fun s => { s with held := false }) else b
    let b := putRail u { rail b u with started := true, startedAt := b.time.mono + 1, goodAt := 0 } b
    if u = .core ∧ b.sup.ana.good = false then orderFault 1 b
    else if u = .io ∧ ¬(b.sup.core.good = true ∧ b.sup.ucie.good = true) then orderFault 3 b
    else b

/-- A main supply reaches good. -/
def supplyGood (u : Supply) (b : Block) : Block :=
  if (rail b u).started = false ∨ (rail b u).good = true then b
  else
    (goodFaults b u).foldl (fun b c => orderFault c b) (putRail u { rail b u with good := true, goodAt := b.time.mono + 1 } b)

/-- A main supply crosses its falling threshold. -/
def supplyLost (u : Supply) (b : Block) : Block :=
  if (rail b u).good = false then b
  else
    let b := putRail u { rail b u with good := false } b
    match u with
    | .ana => vbatWeak (if b.sup.core.started then orderFault 6 b else b)
    | .core | .ucie => if b.sup.io.started then orderFault 5 b else b
    | .io => b

/-- A main supply falls below 0.10 V, past its falling threshold if it was good. -/
def supplyEmpties (u : Supply) (b : Block) : Block :=
  if (rail b u).started = false then b
  else
    let b := supplyLost u b
    putRail u { rail b u with started := false, lowAt := b.time.mono } b

/-- A rising supply falls back by more than 50 mV. -/
def supplySagged (u : Supply) (b : Block) : Block :=
  if (rail b u).started = true ∧ (rail b u).good = false ∧ (rail b u).goodAt = 0 then orderFault 4 b else b

/-- One crossing of a main supply. -/
def supplyCross (u : Supply) (c : Crossing) (b : Block) : Block :=
  match c with
  | .starts => supplyStarts u b
  | .good => supplyGood u b
  | .lost => supplyLost u b
  | .empties => supplyEmpties u b
  | .sagged => supplySagged u b

/-- Meaning of SUPPLY_THRESHOLD_CROSSING (R63, R65 to R68). -/
def execSupplyThresholdCrossing (supply : Supply) (crossing : Crossing) (s : State) : Host.Outcome State Fault Refusal :=
  .next { s with blk := supplyCross supply crossing s.blk }

/-- Internal power-good falls (R64): a power-on reset. -/
def powerGoodFall (b : Block) : Block :=
  if b.sup.pgood = true ∧ (railsGood b = false ∨ b.sup.held = true) then
    chipReset 1 (b.onSup (fun s => { s with pgood := false }))
  else b

/-- Meaning of POWER_GOOD_FALL (R64). -/
def execPowerGoodFall (s : State) : Host.Outcome State Fault Refusal :=
  .next { s with blk := powerGoodFall s.blk }

/-- VBAT falls to a level below 2.5 V (R71). Only a recorder outside STATE RESET counts the event. DESIGN CHOICE (assumption 6): the event is the
fall; a VBAT that is below 2.5 V already when VDD_ANA becomes good is shown by VBAT_LOW and not counted again. -/
def vbatLow (mv : Nat) (b : Block) : Block :=
  if 2500 ≤ mv then b
  else
    let b := b.onSup (fun s => { s with vbatMv := mv })
    if b.sup.ana.good then (if b.run.state = .reset then b else event 0x041 mv b) else vbatWeak b

/-- Meaning of VBAT_LOW (R71); `mv` is the new level. -/
def execVbatLow (mv : Nat) (s : State) : Host.Outcome State Fault Refusal :=
  .next { s with blk := vbatLow mv s.blk }

/-- The crystal is watched from 2 s after the battery domain regains power. -/
def crystalWait (b : Block) : Block := b.onTmp (fun t => { t with xtalAt := b.time.mono + 2000000 })

/-- VBAT rises to 2.5 V or above (R71). -/
def vbatReturn (mv : Nat) (b : Block) : Block :=
  if mv < 2500 then b else b.onSup (fun s => { s with vbatMv := mv })

/-- Meaning of VBAT_RETURN (R71); `mv` is the new level. -/
def execVbatReturn (mv : Nat) (s : State) : Host.Outcome State Fault Refusal :=
  .next { s with blk := vbatReturn mv s.blk }

/-- The battery domain regains power after VBAT and VDD_ANA were both absent (R67, R88, R400, R413): nothing it held is left. -/
def batteryUp (mv : Nat) (b : Block) : Block :=
  let b := (zeroBbram b).onTmp (fun _ => TamperSt.initial)
  let b := b.onSup (fun s => { s with vbatMv := mv, vbatSeen := false, fault := 0, faultCount := 0, newFaults := [] })
  crystalWait (b.onTime (fun t => { t with secs := 0, subsec := 0 }))

/-- Meaning of BATTERY_DOMAIN_POWER_UP (R400); `mv` is VBAT. -/
def execBatteryDomainPowerUp (mv : Nat) (s : State) : Host.Outcome State Fault Refusal :=
  .next { s with blk := batteryUp mv s.blk }

end Sys2Proof.Machine
end

