-- ==== Sys2Proof/Machine/Tamper.lean ====
section
/-! DEFINITION. The tamper monitor: triggers, TMP_CFG, release from FROZEN (R398 to R413). -/

namespace Sys2Proof.Machine

/-- What lets a trigger qualify (R398): the enables of its inputs; internal power-good for VOLT_LOW; the crystal monitor's wait; VBAT loss.
ALARM_ESCALATION is not sensed at a pin. -/
def triggerStands (b : Block) (t : Nat) : Bool :=
  let cfg := b.tmp.cfg.toNat
  if t < 2 then bit cfg t
  else if t < 6 then bit cfg t
  else if t = 6 then b.sup.pgood
  else if t = 9 then decide (b.tmp.xtalAt ≤ b.time.mono)
  else if t = 10 then decide (b.sup.vbatMv < 2400) && !b.sup.ana.good
  else decide (t < 11)

/-- A trigger qualifies, armed from PROVISION on. -/
def tamperTrigger (t : Nat) (b : Block) : Block :=
  if 2 ≤ b.run.lcs ∧ triggerStands b t = true then
    frost t (if t = 10 then b.onTmp (fun x => { x with cfg := tmpCfgDefault }) else b)
  else b

/-- TAMPER_TRIGGER (R404). -/
def execTamperTrigger (trigger : Nat) (s : State) : Host.Outcome State Fault Refusal :=
  .next { s with blk := tamperTrigger trigger s.blk }

/-- APPLY of TMP_CFG_APPLY (R400). -/
def cfgApply (v : Word) (b : Block) : Block :=
  pf0Write 0xFFFFFFFE v (fun b =>
    if bit v.toNat 0 && b.run.lcs == 2 && keeperRuns b then b.onTmp (fun t => { t with cfg := t.cfgReq }) else b) b

/-- TMP_CFG_APPLY (R400). -/
def execTmpCfgApply (value : Word) (s : State) : Host.Outcome State Fault Refusal := .next { s with blk := cfgApply value s.blk }

/-! ### Release (R408 to R413) -/

/-- TMP_CAUSE as a register. -/
def tmpCause (b : Block) : Nat := b.tmp.mask % 4096 + b.tmp.first * 65536

/-- A release command outside FROZEN: REFUSED, reason 1; inside, its own action. The first byte of a reply is 0, or 1 for REFUSED with its reason. -/
def inFrozen (f : Bytes → Block → Answer × Block) (_ : Nat) (p : Bytes) (b : Block) : Answer × Block :=
  if b.run.state = .frozen then f p b else (.reply [1, 1], b)

/-- FROST_STATUS. -/
def frostStatus (p : Bytes) (b : Block) : Answer × Block :=
  if p ≠ [] then (.malformed, b)
  else (.reply ([0] ++ lePut 4 (tmpCause b) ++ lePut 4 b.tmp.lastCause ++ lePut 8 b.tmp.frostTime ++ lePut 4 b.tmp.frostCount ++ b.tmp.digest), b)

/-- FROST_NONCE: 600 s. -/
def frostNonce (p : Bytes) (b : Block) : Answer × Block :=
  if p ≠ [] then (.malformed, b)
  else
    let d := draw1 32 b
    (.reply ([0] ++ d.1), d.2.onTmp (fun t => { t with nonce := some (d.1, b.time.secs + 600) }))

/-- The 120 bytes that officers sign (R410). -/
def releaseTbs (b : Block) (nonce : Bytes) : Bytes :=
  ascii "JFRL0001" ++ otpBytes (otpShadow b) 2 6 ++ nonce ++ b.tmp.digest ++ lePut 4 b.tmp.frostTime ++ zeros 4

/-- The release block is well formed (R410, R411). -/
def releaseOk (p : Bytes) : Bool :=
  let kind := leAt p 4 1
  let count := leAt p 5 1
  let base := 8 + (if kind = 0 then 0 else 816)
  decide (8 ≤ p.length) && leAt p 0 4 == 0x4A465231 && decide (kind ≤ 2) && decide (count ≤ 16) && allZero p 6 2 &&
    p.length == base + 5464 * count &&
    (List.range count).all (fun i => allZero p (base + 5464 * i + 1) 7 && allZero p (base + 5464 * i + 5462) 2)

/-- The record matches the authority (R411, check 3). -/
def releaseMatches (b : Block) (p : Bytes) : Bool :=
  let rec_ := slice p 8 816
  match leAt p 4 1 with
  | 0 => b.tmp.digest == zeros 48
  | 1 => treeLeaf rec_ == b.tmp.digest
  | _ => sha384 rec_ == b.tmp.digest

/-- The officers whose approvals count (R411, check 4). -/
def releaseApprovals (b : Block) (nonce p : Bytes) : List Nat :=
  let rec_ := slice p 8 816
  let tbs := releaseTbs b nonce
  (List.range (leAt p 5 1)).foldl (fun (got : List Nat) i =>
    let a := slice p (824 + 5464 * i) 5464
    let o := leAt a 0 1
    let ec := slice a 8 97
    let dsa := slice a 105 1952
    if decide (o < leAt rec_ 6 1) && !got.contains o && sha384 (ec ++ dsa) == recOfficer rec_ o &&
        hybridVerify ec dsa tbs (slice a 2057 3405) then got ++ [o]
    else got) []

/-- A passing release (R413). -/
def releaseFrost (b : Block) : Block :=
  b.onTmp (fun t => { t with
    lastCause := tmpCause b, mask := 0, first := 0, frostCount := min 255 (t.frostCount + 1), latched := false, releasing := true })

/-- FROST_RELEASE (R411 to R413). -/
def frostRelease (p : Bytes) (b : Block) : Answer × Block :=
  if releaseOk p = false then (.reply [1, 2], b)
  else match b.tmp.nonce with
    | none => (.reply [1, 3], b)
    | some (n, expiry) =>
      let b := b.onTmp (fun t => { t with nonce := none })
      if expiry ≤ b.time.secs then (.reply [1, 3], b)
      else if releaseMatches b p = false then (.reply [1, 4], b)
      else if leAt p 4 1 ≠ 0 ∧ (releaseApprovals b n p).length < leAt p 15 1 then (.reply [1, 5], b)
      else (.reply [0], releaseFrost b)

/-- FROST_STATUS (R409). -/
def execFrostStatus (via : Via) (s : State) : Host.Outcome State Fault Refusal :=
  .next { s with blk := viaRun 0x20 via (inFrozen frostStatus) s.blk }

/-- FROST_NONCE (R409). -/
def execFrostNonce (via : Via) (s : State) : Host.Outcome State Fault Refusal :=
  .next { s with blk := viaRun 0x21 via (inFrozen frostNonce) s.blk }

/-- FROST_NONCE_EXPIRY (R409). -/
def execFrostNonceExpiry (s : State) : Host.Outcome State Fault Refusal :=
  .next { s with blk := s.blk.onTmp (fun t => { t with nonce := none }) }

/-- FROST_RELEASE (R413). -/
def execFrostRelease (via : Via) (s : State) : Host.Outcome State Fault Refusal :=
  .next { s with blk := viaRun 0x22 via (inFrozen frostRelease) s.blk }

/-- FROST_RELEASE_RESET (R413): ROM starts a firmware warm reset 1 ms after RELEASED. -/
def execFrostReleaseReset (s : State) : Host.Outcome State Fault Refusal :=
  .next { s with blk := if s.blk.tmp.releasing then chipReset 4 s.blk else s.blk }

end Sys2Proof.Machine
end

