-- ==== Sys2Proof/Machine/Certificates.lean ====
section
/-! DEFINITION. The certificate chains in DER (R159 to R162). Where the spec leaves the encoding to X.509 and to the TCG DICE profile, the usual
forms are taken (PRESUMED). -/

namespace Sys2Proof.Machine

/-! ### DER -/

/-- A definite length. -/
def derLen (n : Nat) : Bytes :=
  if n < 128 then [BitVec.ofNat 8 n]
  else if n < 256 then [0x81, BitVec.ofNat 8 n]
  else if n < 65536 then 0x82 :: bePut 2 n
  else 0x83 :: bePut 3 n

/-- Tag, length, value. -/
def der (tag : Byte) (v : Bytes) : Bytes := tag :: (derLen v.length ++ v)

/-- SEQUENCE. -/
def derSeq (xs : List Bytes) : Bytes := der 0x30 xs.flatten

/-- SET. -/
def derSet (xs : List Bytes) : Bytes := der 0x31 xs.flatten

/-- The digits of an unsigned INTEGER: no leading zero byte but one where the top bit is set. -/
def derDigits (bs : Bytes) : Bytes :=
  let r := bs.dropWhile (· == 0)
  match r with
  | [] => [0]
  | b :: _ => if 128 ≤ b.toNat then 0 :: r else r

/-- INTEGER of big-endian bytes. -/
def derInt (bs : Bytes) : Bytes := der 0x02 (derDigits bs)

/-- BOOLEAN TRUE. -/
def derTrue : Bytes := [0x01, 0x01, 0xFF]

/-- BIT STRING of whole bytes. -/
def derBits (bs : Bytes) : Bytes := der 0x03 (0 :: bs)

/-- OCTET STRING. -/
def derOctets (bs : Bytes) : Bytes := der 0x04 bs

/-- A BIT STRING of named bits, trailing zeros removed. -/
def derNamed (tag : Byte) (bs : List Bool) : Bytes :=
  let used := (bs.reverse.dropWhile (fun x => !x)).reverse
  let unused := (8 - used.length % 8) % 8
  let v := used.foldl (fun a x => 2 * a + b2n x) 0 * 2 ^ unused
  der tag (BitVec.ofNat 8 unused :: bePut ((used.length + 7) / 8) v)

/-! ### Object identifiers -/

def oidEcdsaSha384 : Bytes := der 0x06 [0x2A, 0x86, 0x48, 0xCE, 0x3D, 0x04, 0x03, 0x03]
def oidEcPublicKey : Bytes := der 0x06 [0x2A, 0x86, 0x48, 0xCE, 0x3D, 0x02, 0x01]
def oidP384 : Bytes := der 0x06 [0x2B, 0x81, 0x04, 0x00, 0x22]
def oidMldsa65 : Bytes := der 0x06 [0x60, 0x86, 0x48, 0x01, 0x65, 0x03, 0x04, 0x03, 0x12]
def oidSha384 : Bytes := der 0x06 [0x60, 0x86, 0x48, 0x01, 0x65, 0x03, 0x04, 0x02, 0x02]
def oidTcbInfo : Bytes := der 0x06 [0x67, 0x81, 0x05, 0x05, 0x04, 0x01]
def oidUeid : Bytes := der 0x06 [0x67, 0x81, 0x05, 0x05, 0x04, 0x04]
/-- An arc of id-at (2.5.4) or id-ce (2.5.29). -/
def oidX500 (arc n : Byte) : Bytes := der 0x06 [0x55, arc, n]

/-! ### Fields (R160, R161) -/

/-- The ASCII part number. -/
def partNumber (v : Variant) : Bytes :=
  ascii (match v with
    | .jtH48F => "JT-H48F"
    | .jtH48S => "JT-H48S"
    | .jtH48B => "JT-H48B")

/-- Lot, wafer, X and Y of a die from its three identity words (R95). -/
def dieBytes (w : Nat → Nat) : Bytes :=
  bePut 6 (w 0 + 2 ^ 32 * bits (w 1) 15 0) ++ [BitVec.ofNat 8 (bits (w 1) 20 16), BitVec.ofNat 8 (bits (w 1) 31 24), BitVec.ofNat 8 (bits (w 2) 7 0)]

/-- The VARIANT fuse. -/
def variantFuse (b : Block) : Nat := bits (otpShadow b 8) 3 0

/-- The 24-byte identity block (R161). -/
def identityBlock (b : Block) : Bytes :=
  let vault := decide (b.run.variant = .jtH48F)
  dieBytes (fun i => otpShadow b (2 + i)) ++ (if vault then dieBytes (fun i => b.otp.vaultRd.getD i 0) else zeros 9) ++
    lePut 1 (variantFuse b) ++ lePut 1 b.run.lcs ++ lePut 1 (flag b.otp.mismatch 0 + flag (!vault) 1) ++ zeros 3

/-- The identity block of the manufacturing certificates, which are byte-identical at every boot (R162): the vault identity as fused, no mismatch,
STATE TEST, in which they are first issued (DEDUCED, assumption 23). -/
def identityBlockMfg (b : Block) : Bytes :=
  let vault := decide (b.run.variant = .jtH48F)
  dieBytes (fun i => otpShadow b (2 + i)) ++ (if vault then dieBytes (fun i => otpShadow b (5 + i)) else zeros 9) ++
    lePut 1 (variantFuse b) ++ [0x01] ++ lePut 1 (flag (!vault) 1) ++ zeros 3

/-- Which certificate of a chain: its identity. -/
inductive CertKind where
  | mfg | deviceId | aliasId
  deriving DecidableEq, Repr

/-- The CDI behind an identity. -/
def certCdi (b : Block) (k : CertKind) : Bytes :=
  match k with
  | .mfg => mfgCdiOf
  | .deviceId => b.key.deviceIdCdi.getD []
  | .aliasId => aliasCdi b

/-- Subject public key: ECDSA P-384, or ML-DSA-65. -/
def certKey (ec : Bool) (cdi : Bytes) : Bytes := if ec then pkPublic 0x02 (cdiEc cdi) else pkPublic 0x11 (cdiDsa cdi)

/-- The serial number of a subject key. -/
def certSerial (pk : Bytes) : Bytes :=
  let h := (sha384 pk).take 16
  patch h 0 [byteAt h 0 &&& 0x7F]

/-- CN of an identity. -/
def certName (k : CertKind) : String :=
  match k with
  | .mfg => "Hokumavis Manufacturing ID"
  | .deviceId => "Hokumavis DeviceID"
  | .aliasId => "Hokumavis Alias"

/-- One attribute of a distinguished name. -/
def derAttr (oid : Bytes) (tag : Byte) (v : Bytes) : Bytes := derSet [derSeq [oid, der tag v]]

/-- The distinguished name of a subject. -/
def certSubject (k : CertKind) (pk : Bytes) : Bytes :=
  derSeq [derAttr (oidX500 0x04 0x0A) 0x0C (ascii "Krazenal Semiconductor"), derAttr (oidX500 0x04 0x03) 0x0C (ascii (certName k)),
    derAttr (oidX500 0x04 0x05) 0x13 (hexOf (certSerial pk))]

/-- The signature algorithm. -/
def certAlg (ec : Bool) : Bytes := derSeq [if ec then oidEcdsaSha384 else oidMldsa65]

/-- subjectPublicKeyInfo. -/
def certSpki (ec : Bool) (pk : Bytes) : Bytes :=
  derSeq [if ec then derSeq [oidEcPublicKey, oidP384] else derSeq [oidMldsa65], derBits pk]

/-- One extension. -/
def derExt (oid : Bytes) (critical : Bool) (v : Bytes) : Bytes := derSeq ([oid] ++ (if critical then [derTrue] else []) ++ [derOctets v])

/-- DiceTcbInfo of a certificate (R160). -/
def tcbInfo (b : Block) (k : CertKind) : Bytes :=
  let fwid (d : Bytes) : Bytes := der 0xA6 (derSeq [oidSha384, derOctets d])
  let head := der 0x80 (ascii "Krazenal Semiconductor") ++ der 0x81 (partNumber b.run.variant)
  match k, b.rcd.aliasOf with
  | .aliasId, some (d, svn, flags) =>
    der 0x30 (head ++ der 0x83 (derDigits (bePut 2 svn)) ++ der 0x84 [1] ++ fwid d ++
      derNamed 0x87 [false, bit flags 0, bit flags 1, bit flags 2])
  | .aliasId, none => der 0x30 head
  | .mfg, _ => der 0x30 (head ++ der 0x84 [0] ++ fwid romDigest ++ der 0x88 (identityBlockMfg b))
  | .deviceId, _ => der 0x30 (head ++ der 0x84 [0] ++ fwid romDigest ++ der 0x88 (identityBlock b))

/-- The extensions. -/
def certExts (b : Block) (k : CertKind) (pk issuerPk : Bytes) : Bytes :=
  let ca := match k with
    | .mfg => derSeq [derTrue, der 0x02 [2]]
    | .deviceId => derSeq [derTrue, der 0x02 [1]]
    | .aliasId => derSeq []
  let usage := match k with
    | .aliasId => derNamed 0x03 [true]
    | _ => derNamed 0x03 [false, false, false, false, false, true]
  let ueidExt := match k with
    | .aliasId => []
    | _ => derExt oidUeid false (derSeq [derOctets (ueid b)])
  der 0xA3 (derSeq [derExt (oidX500 0x1D 0x13) true ca, derExt (oidX500 0x1D 0x0F) true usage,
    derExt (oidX500 0x1D 0x0E) false (derOctets ((sha384 pk).take 20)),
    derExt (oidX500 0x1D 0x23) false (derSeq [der 0x80 ((sha384 issuerPk).take 20)]),
    derExt oidTcbInfo false (tcbInfo b k), ueidExt])

/-- The certificate of an identity under an issuer, signed deterministically (R162). -/
def certificate (b : Block) (ec : Bool) (k issuer : CertKind) : Bytes :=
  let pk := certKey ec (certCdi b k)
  let ipk := certKey ec (certCdi b issuer)
  let tbs := derSeq [der 0xA0 (der 0x02 [2]), derInt (certSerial pk), certAlg ec, certSubject issuer ipk,
    derSeq [der 0x17 (ascii "700101000000Z"), der 0x18 (ascii "99991231235959Z")], certSubject k pk, certSpki ec pk,
    certExts b k pk ipk]
  let sig :=
    if ec then
      let s := pkSign 0x02 (cdiEc (certCdi b issuer)) false 0x02 [] tbs []
      derSeq [derInt (s.take 48), derInt (s.drop 48)]
    else pkSign 0x11 (cdiDsa (certCdi b issuer)) false 0 [] tbs []
  derSeq [tbs, certAlg ec, derBits sig]

/-- The links of the chain in a life-cycle state, root first, each with its issuer (R159). -/
def chainLinks (lcs : Nat) : List (CertKind × CertKind) :=
  if lcs = 0 then [(.deviceId, .deviceId), (.aliasId, .deviceId)]
  else if lcs = 1 then [(.mfg, .mfg), (.aliasId, .mfg)]
  else [(.mfg, .mfg), (.deviceId, .mfg), (.aliasId, .deviceId)]

/-- The certificate of an identity, where the state has one. -/
def certOf (b : Block) (ec : Bool) (k : CertKind) : Option Bytes :=
  ((chainLinks b.run.lcs).find? (fun l => decide (l.1 = k))).map (fun l => certificate b ec l.1 l.2)

/-- The whole chain, root first. -/
def certChain (b : Block) (ec : Bool) : Bytes :=
  (chainLinks b.run.lcs).flatMap (fun l => certificate b ec l.1 l.2)

end Sys2Proof.Machine
end

