-- ==== Sys2Proof/Machine/Record.lean ====
section
/-! DEFINITION. Solstice records: flash as the keeper reads it, the ring, assembly, signing, appending, and the evidence commands (R163 to
R178). -/

namespace Sys2Proof

/-! ### Flash as an operand shows it -/

/-- The view of a port. -/
def FlashView.port (f : FlashView) (p : Nat) : PortView := if p = 0 then f.fla else f.flb

/-- Change the view of a port. -/
def FlashView.onPort (f : FlashView) (p : Nat) (g : PortView → PortView) : FlashView :=
  if p = 0 then { f with fla := g f.fla } else { f with flb := g f.flb }

/-- What SFDP says of a chip select. -/
def PortView.chip (v : PortView) (cs : Nat) : Option SfdpView := if cs = 0 then v.cs0 else v.cs1

/-- Size of a chip select in bytes; 0 when absent. -/
def PortView.size (v : PortView) (cs : Nat) : Nat := ((v.chip cs).map (fun s => 2 ^ (20 + s.sizeLog))).getD 0

/-- One extent laid over bytes that begin at an offset. -/
def overlay (cs off : Nat) (bs : Bytes) (e : Extent) : Bytes :=
  if e.cs ≠ cs ∨ e.off + e.data.length ≤ off ∨ off + bs.length ≤ e.off then bs
  else
    let lo := max off e.off
    let n := min (off + bs.length) (e.off + e.data.length) - lo
    Machine.patch bs (lo - off) ((e.data.drop (lo - e.off)).take n)

/-- A read of a chip select: nothing when it meets a range that fails. -/
def PortView.read (v : PortView) (cs off n : Nat) : Option Bytes :=
  if v.bad.any (fun r => r.1 == cs && decide (r.2.1 < off + n) && decide (off < r.2.1 + r.2.2)) then none
  else some (v.extents.foldl (overlay cs off) (List.replicate n 0xFF))

/-- The view after bytes were put on a chip select. -/
def PortView.put (v : PortView) (cs off : Nat) (data : Bytes) : PortView :=
  { v with extents := v.extents ++ [{ cs := cs, off := off, data := data }] }

/-- The view after a program: bits only go from 1 to 0. -/
def PortView.program (v : PortView) (addr : Nat) (data : Bytes) : PortView :=
  let stood := (v.read (Machine.csOf addr) (addr % 0x20000000) data.length).getD (List.replicate data.length 0xFF)
  v.put (Machine.csOf addr) (addr % 0x20000000) (List.zipWith (· &&& ·) stood data)

end Sys2Proof

namespace Sys2Proof.Machine

/-- P moves on by `n`, wrapping at the region's end (R151). -/
def ptrOn (r : FlashRule) (a n : Nat) : Nat := if r.base + r.size ≤ a + n then r.base else a + n

/-- A keeper program, within a page: judged as every request is (R132); on the pins, in the view; P follows one of an append-only region (R151). -/
def keeperProgramPage (p addr : Nat) (data : Bytes) (s : PortView × Block) : PortView × Block :=
  match flashJudge s.2 p .keeper opProgram addr data.length with
  | .refused ap => (s.1, flashRefuse .keeper p addr ap s.2)
  | .allowed rule =>
    let b := flashPins p 1 addr data s.2
    (s.1.program addr data, match rule with
      | some r => if r.append then onPort p (fun x => { x with ptr := ptrOn r addr data.length }) b else b
      | none => b)

/-- A keeper erase of the unit (4 KiB or 64 KiB) that begins at an address. -/
def keeperErase (p unit addr : Nat) (s : PortView × Block) : PortView × Block :=
  match flashJudge s.2 p .keeper opErase addr unit with
  | .refused ap => (s.1, flashRefuse .keeper p addr ap s.2)
  | .allowed _ =>
    (s.1.put (csOf addr) (addr % 0x20000000) (List.replicate unit 0xFF), flashPins p (if unit = 4096 then 2 else 3) addr [] s.2)

/-- Bytes programmed page by page (R126). -/
def keeperProgram (p addr : Nat) (data : Bytes) (s : PortView × Block) : PortView × Block :=
  (pageParts (pageOf (portOf s.2 p) addr) data.length addr data).foldl (fun s q => keeperProgramPage p q.1 q.2 s) s

/-! ### Frames (R169) -/

def frSeq (f : Bytes) : Nat := leAt f 0x0C 4
def frBoot (f : Bytes) : Nat := leAt f 0x10 8
def frRecord (f : Bytes) : Bytes := slice f 0x20 (leAt f 4 2)

/-- A header that the scan takes. -/
def frMagic (f : Bytes) : Bool := leAt f 0 4 == 0x4A535231

/-- A complete frame. -/
def frComplete (f : Bytes) : Bool :=
  frMagic f && decide (leAt f 4 2 ≤ 6112) && decide (0x20 + leAt f 4 2 ≤ f.length) && (sha384 (frRecord f)).take 8 == slice f 0x18 8

/-- A frame around a record. -/
def frameBytes (kind seq boot : Nat) (record : Bytes) : Bytes :=
  let h := lePut 4 0x4A535231 ++ lePut 2 record.length ++ lePut 1 kind ++ zeros 5 ++ lePut 4 seq ++ lePut 8 boot ++ (sha384 record).take 8
  h ++ record ++ List.replicate (6144 - h.length - record.length) 0xFF

/-! ### The ring (R170 to R172) -/

/-- The APPEND_ONLY rule of a port. -/
def appendRule (b : Block) (p : Nat) : Option FlashRule :=
  ((portOf b p).rules.find? (fun r => r.2.valid && r.2.append)).map (·.2)

/-- The port of the record region and its rule: the directory port first. -/
def ringAt (b : Block) : Option (Nat × FlashRule) :=
  let d := b.boot.port.getD 0
  match appendRule b d with
  | some r => some (d, r)
  | none => (appendRule b (1 - d)).map (fun r => (1 - d, r))

/-- The smallest erase size of R147's kinds that SFDP reports for the chip select of an address (R170); 0 when it reports neither. -/
def eraseUnit (v : PortView) (addr : Nat) : Nat :=
  match v.chip (csOf addr) with
  | some s => if s.erase4K then 4096 else if s.erase64K then 65536 else 0
  | none => 0

/-- The region can be used with an erase size. -/
def ringUsable (r : FlashRule) (erase : Nat) : Bool :=
  decide (0 < erase) && r.base % erase == 0 && r.size % erase == 0 && decide (0x10000 ≤ r.size)

/-- Positions of the frames whose header the scan takes. -/
def ringHeads (v : PortView) (r : FlashRule) : List Nat :=
  ((List.range (r.size / 2048)).map (fun i => r.base + 2048 * i)).filter (fun a =>
    match v.read (csOf a) (a % 0x20000000) 0x20 with
    | some h => frMagic h
    | none => false)

/-- A frame of the ring; a frame ends with its region. -/
def ringFrame (v : PortView) (a : Nat) : Bytes := (v.read (csOf a) (a % 0x20000000) 6144).getD []

/-- The frame with the highest RING_SEQ in serial-number arithmetic. -/
def newestFrame (fs : List (Nat × Bytes)) : Option (Nat × Bytes) :=
  fs.foldl (fun best f => match best with
    | none => some f
    | some g =>
      let d := (frSeq f.2 + 2 ^ 32 - frSeq g.2) % 2 ^ 32
      if 0 < d ∧ d < 2 ^ 31 then some f else some g) none

/-- What the scan finds: the newest frame and the newest complete one, each with its place. -/
def ringScan (v : PortView) (r : FlashRule) : Option (Nat × Bytes) × Option (Nat × Bytes) :=
  let fs := (ringHeads v r).map (fun a => (a, ringFrame v a))
  (newestFrame fs, newestFrame (fs.filter (fun f => frComplete f.2)))

/-- Frames of the ring, newest first. -/
def ringNewestFirst (fs : List (Nat × Bytes)) : List (Nat × Bytes) :=
  fs.foldl (fun acc f =>
    let newer (g : Nat × Bytes) : Bool := decide (0 < (frSeq g.2 + 2 ^ 32 - frSeq f.2) % 2 ^ 32) && decide ((frSeq g.2 + 2 ^ 32 - frSeq f.2) % 2 ^ 32 < 2 ^ 31)
    acc.filter newer ++ [f] ++ acc.filter (fun g => !newer g)) []

/-- P as the scan of a region places it (R172): after the newest frame, at BASE when there is none. -/
def ptrFound (v : PortView) (r : FlashRule) : Nat :=
  match (ringScan v r).1 with
  | none => r.base
  | some (a, _) => ptrOn r a 6144

/-- P of the append-only region of a port, set once per chip reset at K4 (R151). -/
def ptrStart (f : FlashView) (p : Nat) (b : Block) : Block :=
  match appendRule b p with
  | none => b
  | some r => onPort p (fun x => { x with ptr := ptrFound (f.port p) r }) b

/-- The scan at K4 (R151, R172): P of each port; for the record region the next RING_SEQ, a torn frame counted. -/
def ringStart (f : FlashView) (b : Block) : Block :=
  let b := ptrStart f 1 (ptrStart f 0 b)
  match ringAt b with
  | none => b.onRcd (fun r => { r with port := 0 })
  | some (p, rule) =>
    let v := f.port p
    let b := b.onRcd (fun r => { r with port := p + 1, erase := eraseUnit v rule.base })
    match (ringScan v rule).1 with
    | none => b.onRcd (fun r => { r with nextSeq := 1 })
    | some (_, fr) =>
      let b := b.onRcd (fun r => { r with nextSeq := (frSeq fr + 1) % 2 ^ 32 })
      if frComplete fr then b else event 0x103 (frSeq fr) b

/-! ### Appending (R171) -/

/-- Program zeros from P to an address. -/
def zerosTo (p stop : Nat) (s : PortView × Block) : PortView × Block :=
  let a := (portOf s.2 p).ptr
  if stop ≤ a then s else keeperProgram p a (zeros (stop - a)) s

/-- Write the frame block by block, erasing each block that P enters at its start. -/
def frameWrite (p : Nat) (r : FlashRule) (erase : Nat) : Nat → Bytes → PortView × Block → PortView × Block
  | 0, _, s => s
  | fuel + 1, data, s =>
    if data.isEmpty then s
    else
      let a := (portOf s.2 p).ptr
      let s := if (a - r.base) % erase = 0 then keeperErase p erase a s else s
      let n := min data.length (erase - (a - r.base) % erase)
      frameWrite p r erase fuel (data.drop n) (keeperProgram p a (data.take n) s)

/-- What an attempt skips before its frame: a region's end too short for it, a torn or foreign tail of an erase block. -/
def appendSkips (p : Nat) (r : FlashRule) (erase : Nat) (s : PortView × Block) : PortView × Block :=
  let stop := r.base + r.size
  let s := if stop - (portOf s.2 p).ptr < 6144 then zerosTo p stop s else s
  let a := (portOf s.2 p).ptr
  let blockEnd := a + (erase - (a - r.base) % erase)
  let tail := (s.1.read (csOf a) (a % 0x20000000) (blockEnd - a)).getD []
  if (a - r.base) % erase ≠ 0 ∧ tail.any (· != 0xFF) = true then zerosTo p blockEnd s else s

/-- One attempt: whether it holds. `fail` are the bytes of the frame after which a program or an erase fails; the readback too can differ. What a failed
attempt leaves of its frame's span is programmed to zero. -/
def appendOnce (p : Nat) (r : FlashRule) (erase : Nat) (frame : Bytes) (fail : Option Nat) (s : PortView × Block) : Bool × PortView × Block :=
  let s := appendSkips p r erase s
  let a := (portOf s.2 p).ptr
  match fail with
  | some n =>
    let s := frameWrite p r erase 4 (frame.take n) s
    let at_ := (portOf s.2 p).ptr
    (false, if a ≤ at_ ∧ n < 6144 then zerosTo p (a + 6144) s else s)
  | none =>
    let s := frameWrite p r erase 4 frame s
    (s.1.read (csOf a) (a % 0x20000000) 6144 == some frame, s)

/-- Up to three attempts, each with the next RING_SEQ. The frame of the last attempt, and whether it stands in the ring. -/
def appendTries (p : Nat) (r : FlashRule) (erase : Nat) (mk : Nat → Bytes) : Nat → List Nat → PortView × Block → Bytes × Bool × Block
  | 0, _, s => (mk s.2.rcd.nextSeq, false, s.2)
  | fuel + 1, fails, s =>
    let frame := mk s.2.rcd.nextSeq
    let t := appendOnce p r erase frame fails.head? s
    let s := (t.2.1, t.2.2.onRcd (fun c => { c with nextSeq := (c.nextSeq + 1) % 2 ^ 32 }))
    if t.1 then (frame, true, s.2)
    else if fuel = 0 then (frame, false, s.2)
    else appendTries p r erase mk fuel fails.tail s

/-- Append a record (R171) and switch the retained index (R173): whether it is persisted. -/
def appendRecord (f : FlashView) (kind boot : Nat) (record : Bytes) (b : Block) : Bool × Block :=
  let mk (seq : Nat) : Bytes := frameBytes kind seq boot record
  let r := match ringAt b with
    | none => (mk b.rcd.nextSeq, false, b)
    | some (p, rule) =>
      let v := f.port p
      let erase := eraseUnit v rule.base
      if ringUsable rule erase then appendTries p rule erase mk 3 v.fails (v, b) else (mk b.rcd.nextSeq, false, b)
  let keep (x : RetainedSt) : RetainedSt :=
    let fs := x.frames ++ [{ frame := r.1, persisted := r.2.1 }]
    { x with frames := fs.drop (fs.length - 4) }
  (r.2.1, { r.2.2 with kept := keep r.2.2.kept })

/-! ### The payload (R164 to R166) -/

/-- A text claim. -/
def cborText (s : String) : Cbor := .text (ascii s)

/-- A flag of record 4 (R182, R271; PRESUMED, assumption 23 bits of its first payload byte): 0 debug unlock since the last record, 1 the last record persisted. -/
def flag4 (i : Nat) (b : Block) : Bool := bit (leAt ((recPayload b 4).getD []) 0 1) i

/-- Commit a flag of record 4. -/
def setFlag4 (i : Nat) (v : Bool) (b : Block) : Block :=
  let p := (recPayload b 4).getD (zeros 15)
  commitRec 4 (patch p 0 [BitVec.ofNat 8 (leAt p 0 1 - (if flag4 i b then 2 ^ i else 0) + (if v then 2 ^ i else 0))]) b

/-- The debug-unlock flag of record 4. -/
def debugFlag (b : Block) : Bool := flag4 0 b

/-- Commit the debug-unlock flag. -/
def setDebugFlag (v : Bool) (b : Block) : Block := setFlag4 0 v b

/-- The record-persistence flag follows the record just made. -/
def notePersisted (ok : Bool) (b : Block) : Block := if flag4 1 b = ok then b else commitAlone (setFlag4 1 ok) b

/-- An entry of the measurement set. -/
def measureCbor (m : Measure) : Cbor :=
  let key (k : Option Nat) : Cbor := match k with
    | some n => .uint n
    | none => .null
  cborMap ([(1, .uint m.cls), (2, .uint m.outcome)] ++
    (if m.header.isEmpty then []
     else [(3, .bytes (sha384 m.header)), (4, .bytes (slice m.header 0x18 48)), (5, .uint (leAt m.header 0x0C 2)), (6, .array (m.keys.map key)),
       (7, .uint m.source), (8, .uint m.slot), (9, .bool m.fallback), (10, .bytes (slice m.header 0x48 8))]) ++
    [(11, .bool m.required)] ++ (if m.cls = 4 then [(12, .bool m.rejected)] else []))

/-- BOOT_WALK_LOGn (R124). -/
def walkLogWord (l : WalkLog) : Nat := l.source + flag l.tried 3 + 16 * l.outcome + 256 * l.slotA + 4096 * l.slotB

/-- BOOT_WALK_LOG0 to 3. -/
def walkLogs (b : Block) : List Nat := (List.range 4).map (fun i => ((b.boot.logs[i]?).map walkLogWord).getD 0)

/-- RECORD_STRICT. -/
def recordStrict (b : Block) : Bool := !bit (otpShadow b 8) 18

/-- dbgstat. -/
def dbgstat (b : Block) : Nat := if b.run.lcs ≤ 1 ∨ debugFlag b = true then 0 else 1

/-- What a record says of the record before it: the hash, chain_status, prev_persisted (R168). -/
structure Chain where
  prev      : Option Bytes
  status    : Nat
  persisted : Nat
  deriving DecidableEq, Repr

/-- The record map (R165) for a boot counter already incremented. -/
def recordMap (b : Block) (midBoot : Bool) (c : Chain) : Cbor :=
  let h := (b.evr.solstice.getD (harvestNow b))
  let counts := (recPayload b 2).getD (zeros 239)
  let kind := if midBoot then 1 else if c.status = 0 then 2 else 0
  let wdg (isP : Bool) : Cbor := cborMap [(1, .uint (wdgResets b isP)), (2, .uint (wdgLast b isP))]
  cborMap ([(1, .uint 1), (2, .uint kind), (3, .uint c.status), (4, (c.prev.map Cbor.bytes).getD .null), (5, .uint b.run.lcs),
    (6, .uint (variantFuse b)), (7, .bytes romDigest), (8, .array (b.boot.measures.map measureCbor)),
    (9, cborMap [(1, .uint b.boot.source), (2, .uint b.boot.slot), (3, .bool b.boot.fallback), (4, .array ((walkLogs b).map Cbor.uint)),
      (5, .uint b.boot.thawReason)]),
    (10, .array [wdg false, wdg true]),
    (11, cborMap [(1, .uint h.startSeq), (2, .uint h.endSeq), (3, .bytes (sha384 h.bytes))]),
    (12, .bool (debugFlag b)), (13, .bool b.kept.thaw), (14, .uint c.persisted),
    (15, cborMap [(1, .uint (if b.flt.policyRejected then 2 else b2n b.flt.policyImage)), (2, .uint (persistedCount counts 0)),
      (3, .uint (persistedCount counts 1)), (4, .uint b.rcd.port)]),
    (16, cborMap [(1, .uint b.sup.faultReg), (2, .uint b.sup.countReg), (3, .bool b.sup.seenReg), (4, .uint b.tmp.lastCause)]),
    (17, .uint b.time.secs), (18, cborMap [(1, .bool b.otp.mismatch), (2, .bool b.otp.wiped), (3, .bool b.otp.torn)]),
    (19, cborMap [(1, .uint (sigPolicy (otpShadow b 8))), (2, .bool (recordStrict b))])] ++
    (if midBoot then [(20, .bytes b.rcd.prevKid)] else []))

/-- The claims that records and statements share (R164, R176), then one of their own. -/
def claims (b : Block) (front : List Cbor) (key : Nat) (x : Cbor) : Bytes :=
  cborPut (.map (front ++ [.uint 256, .bytes (ueid b), .uint 259, .bytes (partNumber b.run.variant), .uint 263, .uint (dbgstat b),
    .uint 267, .uint (bootCount b), .neg (key - 1), x]))

/-! ### Finding the previous record (R167, R168) -/

/-- The newest complete frame of the retained area. -/
def retainedNewest (b : Block) : Option RetFrame := (b.kept.frames.reverse.find? (fun f => frComplete f.frame))

/-- The newest complete frame of the ring. -/
def ringNewest (f : FlashView) (b : Block) : Option Bytes :=
  match ringAt b with
  | none => none
  | some (p, rule) => ((ringScan (f.port p) rule).2).map (·.2)

/-- prev, chain_status and prev_persisted for a boot counter. -/
def chainOf (f : FlashView) (boot : Nat) (b : Block) : Chain :=
  let ring := ringNewest f b
  if boot = 1 then { prev := ring.map (fun x => sha384 (frRecord x)), status := 0, persisted := 2 }
  else
    let found := match retainedNewest b with
      | some r => some (r.frame, r.persisted || ring.any (fun x => frRecord x == frRecord r.frame))
      | none => ring.map (fun x => (x, true))
    match found with
    | none => { prev := none, status := 4, persisted := 2 }
    | some (x, inRing) =>
      let h := some (sha384 (frRecord x))
      if frBoot x + 1 = boot then { prev := h, status := if inRing then 1 else 2, persisted := if inRing then 0 else 1 }
      else { prev := h, status := 3, persisted := 1 }

/-! ### Making a record (R167, R174, R446) -/

/-- The boot counter goes up by one. -/
def countBoot (b : Block) : Block :=
  commitAlone (commitRec 0 (lePut 8 (bootCount b + 1) ++ slice ((recPayload b 0).getD []) 8 39)) b

/-- Once a record that states them is persisted, the flags of debug unlock, Winter and Thaw clear (R182, R432, R453). -/
def clearStated (b : Block) : Block :=
  let b := if debugFlag b then commitAlone (setDebugFlag false) b else b
  let b := if wdgWintered b then commitAlone (commitRec 1 (wdgFlag 1 false (wdgRec b))) b else b
  { b with kept := { b.kept with thaw := false } }

/-- Solstice, or the mid-boot record: the pools checked and a Harvest taken (R38), counts committed, the record chained, signed, appended. -/
def makeRecord (f : FlashView) (midBoot : Bool) (b : Block) : Bool × Block :=
  let b := commitCounts (checkPools b)
  let b := b.onEvr (fun e => { e with solstice := some (harvestNow b) })
  let b := countBoot b
  let boot := bootCount b
  let chain := chainOf f boot b
  let kind := if midBoot then 1 else if chain.status = 0 then 2 else 0
  let (record, b) := aliasCose (claims b [] 70000 (recordMap b midBoot chain)) b
  let (ok, b) := appendRecord f kind boot record b
  let b := b.onRcd (fun r => { r with made := true, prevKid := kidOf (aliasPub b) })
  (ok, notePersisted ok (if ok then clearStated b else b))

/-! ### Retrieval (R175 to R178) -/

/-- The newest record's frame. -/
def newestRecord (b : Block) : Option RetFrame := if b.rcd.made then b.kept.frames.getLast? else none

/-- What a search for a record gives: a frame, whether it is from the ring, PERSISTED; or a reason. -/
inductive Found where
  | frame (f : Bytes) (ring persisted : Bool)
  | none (reason : Nat)
  deriving DecidableEq, Repr

/-- Frames of the ring with the records that the retained area does not hold, newest first; nothing when a header cannot be read. -/
def ringRest (f : FlashView) (b : Block) : Option (List Bytes) :=
  match ringAt b with
  | none => some []
  | some (p, rule) =>
    let v := f.port p
    if v.bad.any (fun x => x.1 == csOf rule.base && decide (x.2.1 < rule.base % 0x20000000 + rule.size) && decide (rule.base % 0x20000000 < x.2.1 + x.2.2)) then
      none
    else
      let fs := ringNewestFirst ((ringHeads v rule).map (fun a => (a, ringFrame v a)))
      some ((fs.map (·.2)).filter (fun x => !(b.kept.frames.any (fun k => frRecord k.frame == frRecord x))))

/-- The frame of the retained area that a selection other than the newest names. -/
def keptFrame (b : Block) (select n counter : Nat) : Option RetFrame :=
  let kept := b.kept.frames.reverse
  if select = 1 then kept.find? (fun k => frBoot k.frame == counter) else kept[n]?

/-- GET_RECORD's selection (R175). -/
def findRecord (f : FlashView) (b : Block) (select n counter : Nat) : Found :=
  match newestRecord b with
  | none => .none 0x0202
  | some top =>
    if select = 0 then .frame top.frame false top.persisted
    else
      match keptFrame b select n counter with
      | some k => .frame k.frame false k.persisted
      | none => match ringRest f b with
        | none => .none 0x0205
        | some rest =>
          match (if select = 1 then rest.find? (fun x => frBoot x == counter) else rest[n - b.kept.frames.length]?) with
          | some x => .frame x true true
          | none => .none 0x0201

/-- A selection that goes to the record region suspends what runs on its port meanwhile (R129). -/
def ringTouch (select n counter : Nat) (b : Block) : Block :=
  match ringAt b with
  | some (p, _) => if select ≠ 0 ∧ select ≤ 2 ∧ (keptFrame b select n counter).isNone then whileRead p id b else b
  | none => b

/-- What an evidence command gives: DETAIL, RESULT and output, or a reason with its RESULT. -/
inductive Evidence where
  | ok (detail result : Nat) (out : Bytes)
  | bad (reason result : Nat)
  deriving DecidableEq, Repr

/-- GET_RECORD from its parameters, without OUT_CAP: SELECT, 0, N, COUNTER. -/
def recordEvidence (f : FlashView) (select pad n counter : Nat) (b : Block) : Evidence :=
  if 2 < select ∨ pad ≠ 0 then .bad 0x0203 0
  else match findRecord f b select n counter with
    | .none r => .bad r 0
    | .frame x ring persisted => .ok (flag ring 0 + flag persisted 1) (frBoot x) (frRecord x)

/-- GET_CERT from ALG, WHICH and the zero field. -/
def certEvidence (alg which pad : Nat) (b : Block) : Evidence :=
  if alg < 1 ∨ 2 < alg ∨ 3 < which ∨ pad ≠ 0 then .bad 0x0203 0
  else if b.key.aliasCdi.isNone then .bad 0x0202 0
  else
    let ec := alg == 1
    let out := if which = 3 then some (certChain b ec)
      else certOf b ec (if which = 0 then .mfg else if which = 1 then .deviceId else .aliasId)
    match out with
    | some d => .ok 0 d.length d
    | none => .bad 0x0203 0

/-- ATTEST from its nonce, with claim 2 and the world (R176). -/
def attestEvidence (nonce : Bytes) (who world : Nat) (b : Block) : Evidence × Block :=
  match newestRecord b with
  | none => (.bad 0x0202 0, b)
  | some top =>
    let map := cborMap [(1, .bytes (sha384 (frRecord top.frame))), (2, .uint who), (3, .uint world), (4, .uint (stateCode b.run.state)),
      (5, .bool b.run.keysLocked), (6, .uint b.time.secs)]
    let (out, b) := aliasCose (claims b [.uint 10, .bytes nonce] 70001 map) b
    (.ok 0 (frBoot top.frame) out, b)

/-- Answer an evidence command to the host: OUT_CAP too small writes nothing. -/
def evidenceEnd (h : HsmJob) (cap : Nat) (e : Evidence) (b : Block) : Block :=
  match e with
  | .bad r res => hsmFail h r res b
  | .ok detail result out => if cap < out.length then hsmFail h 0x0204 out.length b else hsmFinish h stSuccess detail result out b

/-- GET_RECORD. -/
def getRecord (f : FlashView) (h : HsmJob) (b : Block) : Block :=
  let p := bkParam h.block
  if p.length ≠ 16 then hsmFail h 0x0203 0 b
  else evidenceEnd h (leAt p 4 4) (recordEvidence f (leAt p 0 1) (leAt p 1 1) (leAt p 2 2) (leAt p 8 8) b)
    (ringTouch (leAt p 0 1) (leAt p 2 2) (leAt p 8 8) b)

/-- GET_CERT. -/
def getCert (h : HsmJob) (b : Block) : Block :=
  let p := bkParam h.block
  if p.length ≠ 8 then hsmFail h 0x0203 0 b
  else evidenceEnd h (leAt p 4 4) (certEvidence (leAt p 0 1) (leAt p 1 1) (leAt p 2 2) b) b

/-- ATTEST; a FAILED unit of the public-key engine ends it with ENGINE_ALARM. -/
def attest (h : HsmJob) (b : Block) : Block :=
  let p := bkParam h.block
  let n := leAt p 0 1
  if n < 8 ∨ 64 < n ∨ p.length ≠ 8 + n ∨ allZero p 1 3 = false then hsmFail h 0x0203 0 b
  else match hybridDead b with
    | some u => hsmFinish h stEngineAlarm (unitDetail u) 0 [] b
    | none =>
      let who := match h.req with
        | .fn k => k
        | .monitor => 0xFFFE
      let r := attestEvidence (p.drop 8) who (b2n h.world) b
      evidenceEnd h (leAt p 4 4) r.1 (match r.1 with
        | .ok _ _ out => if leAt p 4 4 < out.length then b else r.2
        | .bad _ _ => b)

/-- An evidence command of the host. -/
def evidenceRun (code : Nat) (rnd : Randomness) (f : HsmJob → Block → Block) (id : Nat) : Block → Block :=
  hsmRun code id (fun h _ => ruleAny h.block) (fun _ => rnd) (fun h _ b => f h b)


/-- GET_CERT (R175). -/
def execGetCert (job : Nat) (s : State) : Host.Outcome State Fault Refusal := .next { s with blk := evidenceRun 2 .none getCert job s.blk }

/-- ATTEST (R176). -/
def execAttest (job : Nat) (s : State) : Host.Outcome State Fault Refusal := .next { s with blk := evidenceRun 3 .signs attest job s.blk }

/-- The own reply of an evidence command over the monitor or MCTP. -/
def evidenceReply (e : Evidence) : Answer :=
  match e with
  | .ok _ result out => evidence 0 result out
  | .bad r res => evidence r res []

/-- In FROZEN evidence commands get FROZEN (R182). -/
def unlessFrozen (f : Nat → Bytes → Block → Answer × Block) (by_ : Nat) (p : Bytes) (b : Block) : Answer × Block :=
  if b.run.state = .frozen then (evidence stFrozen 0 [], b) else f by_ p b

/-- RECORD_GET: SELECT, 0, N, COUNTER (R178). -/
def recordGet (f : FlashView) (_ : Nat) (p : Bytes) (b : Block) : Answer × Block :=
  if p.length ≠ 12 then (.malformed, b)
  else (evidenceReply (recordEvidence f (leAt p 0 1) (leAt p 1 1) (leAt p 2 2) (leAt p 4 8) b), ringTouch (leAt p 0 1) (leAt p 2 2) (leAt p 4 8) b)

/-- CERT_GET: ALG, WHICH, 0. -/
def certGet (_ : Nat) (p : Bytes) (b : Block) : Answer × Block :=
  if p.length ≠ 4 then (.malformed, b)
  else (evidenceReply (certEvidence (leAt p 0 1) (leAt p 1 1) (leAt p 2 2) b), b)

/-- ATTEST over the monitor (claim 2 is 0xFFFE) or MCTP (0xFFFF): NONCE_LEN, 3 zeros, NONCE. -/
def attestGet (by_ : Nat) (p : Bytes) (b : Block) : Answer × Block :=
  let n := leAt p 0 1
  if n < 8 ∨ 64 < n ∨ p.length ≠ 4 + n ∨ allZero p 1 3 = false then (.reply (lePut 2 0x0203 ++ zeros 8), b)
  else
    let r := attestEvidence (p.drop 4) (0xFFFE + by_) 0 b
    (evidenceReply r.1, r.2)

/-- The port of the record region can serve a read now. -/
def ringReadable (b : Block) : Bool :=
  match ringAt b with
  | some (p, _) => readableNow b p
  | none => true

/-- A command that may read the record region, once its port serves a read (R128, R129). -/
def ringRun (f : Block → Block) (b : Block) : Block := if ringReadable b then f b else b

/-- GET_RECORD (R175). -/
def execGetRecord (job : Nat) (flash : FlashView) (s : State) : Host.Outcome State Fault Refusal :=
  .next { s with blk := ringRun (evidenceRun 1 .none (getRecord flash) job) s.blk }

/-- RECORD_GET (R178). -/
def execRecordGet (via : Via) (flash : FlashView) (s : State) : Host.Outcome State Fault Refusal :=
  .next { s with blk := ringRun (viaRun 0x10 via (unlessFrozen (recordGet flash))) s.blk }

/-- CERT_GET (R178). -/
def execCertGet (via : Via) (s : State) : Host.Outcome State Fault Refusal := .next { s with blk := viaRun 0x11 via (unlessFrozen certGet) s.blk }

/-- MCTP_ATTEST (R178). -/
def execMctpAttest (via : Via) (s : State) : Host.Outcome State Fault Refusal :=
  .next { s with blk := viaRun 0x12 via (unlessFrozen attestGet) s.blk }

end Sys2Proof.Machine
end

