-- ==== Sys2Proof/Machine/Debug.lean ====
section
/-! DEFINITION. DEBUG_UNLOCK (R496, R497). -/

namespace Sys2Proof.Machine

/-- The DETAIL with which R496 names a token's failure. -/
def debugReason : TokenFault → Nat
  | .form | .kind => 0x0801
  | .root => 0x0802
  | .binding => 0x0803
  | .nonce => 0x0804

/-- The rule of DEBUG_UNLOCK: the monitor alone, under the owner 0 quorum. -/
def ruleDebug (h : HsmJob) : HsmRule := { ruleQuorum h.req h.block 0 0x0805 0x0805 with sender := !isFn h.req }

/-- The steps of R497. A commit that fails leaves DEBUG_OPEN 0 and KEYS_LOCKED 1. -/
def debugOpens (h : HsmJob) (b : Block) : Block :=
  let b := lockKeys b
  let after := setDebugFlag true b
  hsmCommit h 0x0807 0 []
    (event 0x3C0 0 (after.onMon (fun m => { m with debugOpen := true, unlocks := sat32 (m.unlocks + 1) }))) b

/-- DEBUG_UNLOCK after its session checks. -/
def debugUnlock (h : HsmJob) (b : Block) : Block :=
  if b.run.lcs ≤ 1 ∨ b.run.lcs = 5 then hsmFail h 0x0806 0 b
  else match tokenCheck b (bkParam h.block) 0x4A445431 0x0010 b.run.lcs b.run.lcs with
    | .bad e => hsmFail h (debugReason e) 0 (dropNonce b)
    | .dead u => hsmFinish h stEngineAlarm (unitDetail u) 0 [] (dropNonce b)
    | .good => debugOpens h (dropNonce b)

/-- A refusal is counted: the command has ended and the unlocks have not gone up. -/
def countRefusal (id : Nat) (before b : Block) : Block :=
  if (before.kpr.hsm.any (fun h => h.id == id)) && !(b.kpr.hsm.any (fun h => h.id == id)) && b.mon.unlocks == before.mon.unlocks then
    b.onMon (fun m => { m with failed := sat32 (m.failed + 1) })
  else b

/-- DEBUG_UNLOCK of the monitor. -/
def debugRun (id : Nat) (b : Block) : Block :=
  countRefusal id b (hsmRun 0x71 id (fun h _ => ruleDebug h) (fun _ => .none) (fun h _ b => debugUnlock h b) b)

/-- DEBUG_UNLOCK (R496). -/
def execDebugUnlock (job : Nat) (s : State) : Host.Outcome State Fault Refusal := .next { s with blk := debugRun job s.blk }

end Sys2Proof.Machine
end

