-- ==== Sys2Proof/Machine/Judge.lean ====
section
/-! DEFINITION. Images on flash: the boot directory, slots, activation markers, manifests, and the judgment of a candidate (R104 to R111). -/

namespace Sys2Proof.Machine

/-! ### The boot directory (R104) -/

/-- An entry of a boot directory. -/
structure DirEntry where
  cls      : Nat
  required : Bool
  cs       : Nat
  slotA    : Nat
  slotB    : Nat
  size     : Nat
  deriving DecidableEq, Repr

/-- Entry `n` of a directory. -/
def dirEntry (d : Bytes) (n : Nat) : DirEntry :=
  let o := 0x10 + 32 * n
  { cls := leAt d o 1, required := bit (leAt d (o + 1) 1) 0, cs := leAt d (o + 2) 1, slotA := leAt d (o + 4) 4, slotB := leAt d (o + 8) 4,
    size := leAt d (o + 0x0C) 4 }

/-- COUNT. -/
def dirCount (d : Bytes) : Nat := leAt d 6 2

/-- The entries. -/
def dirEntries (d : Bytes) : List DirEntry := (List.range (dirCount d)).map (dirEntry d)

/-- The entry of a class. -/
def entryFor (d : Bytes) (c : Nat) : Option DirEntry := (dirEntries d).find? (fun e => e.cls == c)

/-- The field values of entry `n` are as the table gives them. -/
def entryFieldsOk (d : Bytes) (n : Nat) : Bool :=
  let o := 0x10 + 32 * n
  let e := dirEntry d n
  decide (e.cls ≤ 7) && decide (leAt d (o + 1) 1 ≤ 1) && decide (e.cs ≤ 1) && allZero d (o + 3) 1 && e.slotA % 65536 == 0 &&
    e.slotB % 65536 == 0 && e.size % 65536 == 0 && decide (131072 ≤ e.size) && allZero d (o + 0x10) 16

/-- Chip select, offset and length of the directory and of every slot. -/
def dirSpans (d : Bytes) : List (Nat × Nat × Nat) :=
  (0, 0, 4096) :: (dirEntries d).flatMap (fun e => [(e.cs, e.slotA, e.size), (e.cs, e.slotB, e.size)])

/-- Two spans share a byte. -/
def spansMeet (x y : Nat × Nat × Nat) : Bool := x.1 == y.1 && decide (x.2.1 < y.2.1 + y.2.2) && decide (y.2.1 < x.2.1 + x.2.2)

/-- No two spans of a list overlap. -/
def spansApart : List (Nat × Nat × Nat) → Bool
  | [] => true
  | x :: xs => xs.all (fun y => !spansMeet x y) && spansApart xs

/-- A directory is valid; `size` gives the size of a chip select. -/
def dirValid (size : Nat → Nat) (d : Bytes) : Bool :=
  leAt d 0 4 == 0x4A445231 && leAt d 4 2 == 1 && decide (1 ≤ dirCount d) && decide (dirCount d ≤ 8) && allZero d 8 8 &&
    (List.range (dirCount d)).all (entryFieldsOk d) && ((dirEntries d).map (·.cls)).Nodup && (entryFor d 0).isSome &&
    (dirEntries d).all (fun e => decide (e.slotA + e.size ≤ size e.cs) && decide (e.slotB + e.size ≤ size e.cs)) &&
    spansApart (dirSpans d)

/-- The directory of a port, when it has a valid one. -/
def dirOf (v : PortView) : Option Bytes :=
  match v.read 0 0 4096 with
  | some d => if dirValid v.size d then some d else none
  | none => none

/-! ### Manifests (R108, R109) -/

/-- Bytes of a manifest in its slot (R105). -/
def manifestLen : Nat := 0x4000

/-- The 128-byte header. -/
def mHead (m : Bytes) : Bytes := m.take 0x80
def mClass (m : Bytes) : Nat := leAt m 8 1
def mVersion (m : Bytes) : Nat := leAt m 0x0C 2
def mLen (m : Bytes) : Nat := leAt m 0x10 4
def mDigest (m : Bytes) : Bytes := slice m 0x18 48

/-- The header is well formed; ENTRY of class 0 lies in the image (DEDUCED, assumption 14). -/
def headOk (m : Bytes) : Bool :=
  leAt m 0 4 == 0x4A4D4631 && leAt m 4 2 == 1 && leAt m 6 2 == 0x80 && decide (mClass m ≤ 7) && decide (1 ≤ leAt m 9 1) &&
    decide (leAt m 9 1 ≤ 3) && allZero m 0x0A 2 && allZero m 0x0E 2 && mLen m % 4096 == 0 && decide (4096 ≤ mLen m) &&
    (if mClass m = 0 then decide (leAt m 0x14 4 < mLen m) else leAt m 0x14 4 == 0) && allZero m 0x50 48

/-- A signature block; `alg` counts 0 ECDSA P-384, 1 ML-DSA-87, 2 LMS-HSS, as R93 orders their ROOT_KEY entries. -/
structure SigBlock where
  alg : Nat
  key : Nat
  pk  : Bytes
  sig : Bytes
  deriving DecidableEq, Repr

/-- PK_LEN of an algorithm. -/
def sigPkLen (alg : Nat) : Nat := if alg = 0 then 97 else if alg = 1 then 2592 else 60

/-- SIG_LEN of a block is its algorithm's; an LMS-HSS signature has the length that its own parameter fields give (RFC 8554). -/
def sigLenOk (alg : Nat) (sig : Bytes) : Bool :=
  if alg = 0 then sig.length == 96 else if alg = 1 then sig.length == 4627 else hssLen sig == some sig.length

/-- The signature blocks at the start of some bytes; nothing when one is malformed or an algorithm appears twice. -/
def sigBlocks : Nat → Bytes → Option (List SigBlock)
  | 0, _ => some []
  | n + 1, bs =>
    let alg := leAt bs 0 2 - 1
    let key := leAt bs 2 1
    let pkLen := leAt bs 4 2
    let sigLen := leAt bs 6 2
    let len := 8 + pkLen + sigLen
    let whole := (len + 7) / 8 * 8
    if bs.length < whole ∨ leAt bs 0 2 < 1 ∨ 3 < leAt bs 0 2 ∨ (7 < key ∧ key ≠ 255) ∨ leAt bs 3 1 ≠ 0 ∨ pkLen ≠ sigPkLen alg ∨
        sigLenOk alg (slice bs (8 + pkLen) sigLen) = false ∨ allZero bs len (whole - len) = false then none
    else match sigBlocks n (bs.drop whole) with
      | none => none
      | some rest =>
        if rest.any (fun x => x.alg == alg) then none
        else some ({ alg := alg, key := key, pk := slice bs 8 pkLen, sig := slice bs (8 + pkLen) sigLen } :: rest)

/-- The blocks of a manifest. -/
def mBlocks (m : Bytes) : Option (List SigBlock) := sigBlocks (leAt m 9 1) (m.drop 0x80)

/-! ### The decision (R110, R111) -/

/-- The manufacturing key pair applies: KEY_INDEX 0xFF in a block, BLANK or TEST, class 0. -/
def mfgRow (lcs cls : Nat) (bs : List SigBlock) : Bool := decide (lcs ≤ 1) && cls == 0 && bs.any (fun x => x.key == 255)

/-- The algorithms required. -/
def requiredAlgs (read : Nat → Nat) (lcs cls : Nat) (bs : List SigBlock) : List Nat :=
  if mfgRow lcs cls bs then [0, 1] else policyAlgs (sigPolicy (read 8))

/-- The ROOT_KEY entry of a block. -/
def blockEntry (x : SigBlock) : Nat := 8 * x.alg + x.key

/-- The public key of a block is known for a class. -/
def blockKnown (read : Nat → Nat) (mfg : Bool) (cls : Nat) (x : SigBlock) : Bool :=
  if mfg then x.key == 255 && sha384 x.pk == (List.range 48).map (Config.mfgKeyHash x.alg)
  else decide (x.key ≤ 7) && rootProgrammed read (blockEntry x) && sha384 x.pk == otpBytes read (rootAt (blockEntry x)) 12 &&
    bit (rootMask read (blockEntry x)) cls

/-- The signature of a block over the header verifies. -/
def blockVerifies (head : Bytes) (x : SigBlock) : Bool :=
  match x.alg with
  | 0 => pkValid 0x02 x.pk && pkVerify 0x02 x.pk false 0x02 [] head x.sig
  | 1 => pkVerify 0x12 x.pk false 0 [] head x.sig
  | _ => hssValid x.pk && hssVerify x.pk head x.sig

/-- Checks 1 to 8 of R111, which need the manifest alone: the outcome code of the first failure, or 1. `read` gives OTP words, `fits` says whether an
image length fits. A policy that requires no algorithm knows no key. -/
def judgeHead (read : Nat → Nat) (lcs cls : Nat) (fits : Nat → Bool) (m : Bytes) : Nat :=
  match (if headOk m then mBlocks m else none) with
  | none => 0x5
  | some bs =>
    let req := requiredAlgs read lcs cls bs
    let mfg := mfgRow lcs cls bs
    let used := bs.filter (fun x => req.contains x.alg)
    if mClass m ≠ cls then 0xD
    else if fits (mLen m) = false then 0x6
    else if 256 < mVersion m then 0xC
    else if req.isEmpty ∨ used.length ≠ req.length ∨ used.all (blockKnown read mfg cls) = false then 0x9
    else if used.all (blockVerifies (mHead m)) = false then 0x8
    else if mfg = false ∧ used.any (fun x => rootRevoked read (blockEntry x)) = true then 0xA
    else if mVersion m < arbOf read cls then 0xB
    else 0x1

/-- Checks 9 and 10: the image as copied, or a flash read error. -/
def judgeImage (m : Bytes) (image : Option Bytes) : Nat :=
  match image with
  | none => 0xE
  | some bytes => if sha384 bytes = mDigest m then 0x1 else 0x7

/-- Judge a candidate (R111): the outcome code, 1 for accepted; `image` copies the image. -/
def judge (read : Nat → Nat) (lcs cls : Nat) (fits : Nat → Bool) (m : Bytes) (image : Nat → Option Bytes) : Nat :=
  match judgeHead read lcs cls fits m with
  | 1 => judgeImage m (image (mLen m))
  | code => code

/-- KEY_INDEX per algorithm of a manifest that was accepted (R166). -/
def keysUsed (read : Nat → Nat) (lcs cls : Nat) (m : Bytes) : List (Option Nat) :=
  let bs := (mBlocks m).getD []
  let req := requiredAlgs read lcs cls bs
  [0, 1, 2].map (fun a => if req.contains a then (bs.find? (fun x => x.alg == a)).map (·.key) else none)

/-! ### Slots (R105 to R107) -/

/-- Offset of a slot on its chip select. -/
def slotStart (e : DirEntry) (i : Nat) : Nat := if i = 0 then e.slotA else e.slotB

/-- Port address of a slot. -/
def slotBase (e : DirEntry) (i : Nat) : Nat := e.cs * 0x20000000 + slotStart e i

/-- The SEQ of a valid marker (R106), from its bytes and the manifest of its slot. -/
def markerSeq (cls i : Nat) (m k : Bytes) : Option Nat :=
  if leAt k 0 4 = 0x4A414D31 ∧ leAt k 4 1 = cls ∧ leAt k 5 1 = i ∧ slice k 0x10 48 = sha384 (mHead m) then some (leAt k 8 4) else none

/-- A slot as copied into staging: its manifest, the SEQ of a valid marker, and the outcome that the copy already gives (0 none). -/
structure SlotCopy where
  manifest : Bytes
  seq      : Option Nat
  code     : Nat
  deriving DecidableEq, Repr

/-- Copy the manifest and the marker of a slot. -/
def slotCopy (v : PortView) (e : DirEntry) (i : Nat) : SlotCopy :=
  let off := slotStart e i
  match v.read e.cs off manifestLen, v.read e.cs (off + e.size - 4096) 64 with
  | some m, some k =>
    match markerSeq e.cls i m k with
    | some n => { manifest := m, seq := some n, code := 0 }
    | none => { manifest := m, seq := none, code := 0x4 }
  | _, _ => { manifest := [], seq := none, code := 0xE }

/-- The slots with a valid marker in the order of R107. -/
def slotOrder : Option Nat → Option Nat → List Nat
  | some x, some y => if x < y then [1, 0] else [0, 1]
  | some _, none => [0]
  | none, some _ => [1]
  | none, none => []

/-- The image of a slot, padded manifest excluded. -/
def slotImage (v : PortView) (e : DirEntry) (i : Nat) (n : Nat) : Option Bytes := v.read e.cs (slotStart e i + manifestLen) n

/-- An image fits its slot: it does not reach into the marker block. -/
def fitsSlot (e : DirEntry) (n : Nat) : Bool := decide (manifestLen + n ≤ e.size - 4096)

/-- Judge a slot; a flash read error of its manifest or marker is FETCH_ERROR. -/
def judgeSlot (read : Nat → Nat) (lcs : Nat) (fits : Nat → Bool) (v : PortView) (e : DirEntry) (i : Nat) : Nat :=
  let copy := slotCopy v e i
  if copy.code = 0xE then 0xE else judge read lcs e.cls (fun n => fitsSlot e n && fits n) copy.manifest (slotImage v e i)

/-- How the slots of a class fared: an outcome per slot (0 not tried), the outcomes of the candidates that failed, the last outcome, the slot
accepted, whether it is the lower-priority one, whether FALLBACK sets. -/
structure ClassTry where
  codeA    : Nat
  codeB    : Nat
  failed   : List Nat
  last     : Nat
  won      : Option Nat
  lower    : Bool
  fallback : Bool
  deriving DecidableEq, Repr

/-- Try the slots of a class under R107; `alt` puts the alternate slot first (R118). -/
def tryClass (read : Nat → Nat) (lcs : Nat) (fits : Nat → Bool) (v : PortView) (e : DirEntry) (alt : Bool) : ClassTry :=
  let a := slotCopy v e 0
  let b := slotCopy v e 1
  let normal := slotOrder a.seq b.seq
  let order := if alt then normal.reverse else normal
  let unread := (if a.code = 0xE then [0xE] else []) ++ (if b.code = 0xE then [0xE] else [])
  let first : ClassTry :=
    { codeA := a.code, codeB := b.code, failed := unread, last := if unread.isEmpty then 0x4 else 0xE, won := none, lower := false,
      fallback := false }
  order.foldl (fun t i =>
    if t.won.isSome then t
    else
      let r := judgeSlot read lcs fits v e i
      let seqs := if i = 0 then (a.seq, b.seq) else (b.seq, a.seq)
      let below := match seqs with
        | (some x, some y) => decide (x < y)
        | _ => false
      let alternate := alt && decide (normal.length = 2) && normal.getLast? == some i
      { t with
        codeA := if i = 0 then r else t.codeA
        codeB := if i = 1 then r else t.codeB
        failed := if r = 1 then t.failed else t.failed ++ [r]
        last := r
        won := if r = 1 then some i else none
        lower := decide (r = 1) && normal.head? != some i
        fallback := decide (r = 1) && (below || alternate) }) first

end Sys2Proof.Machine
end

