-- ==== Sys2Proof/Machine/KeeperStage.lean ====
section
/-! DEFINITION. From an accepted keeper image to Solstice: roots, BBRAM as the keeper finds it, platform classes, policy, filter, record, and the
entry into THAW (R29, R57, R98 steps 8 to 11, R103, R117, R118, R131 to R138, R261, R272, R277, R392, R433, R447). -/

namespace Sys2Proof.Machine

/-! ### Roots (R29, R78, R155, R261) -/

/-- The unique device secret of the state in force. -/
def udsBytes (b : Block) : Bytes := if b.run.lcs ≤ 1 then pusBytes else xorBytes (otpBytes (otpShadow b) 0x10 8) pusBytes

/-- The keeper authority value: the class code and the hashes of the ROOT_KEY entries that enable class 0, in table order (PRESUMED, assumption 14). -/
def authorityValue (b : Block) : Bytes :=
  sha384 (0x00 :: (((List.range 24).filter (fun e => bit (rootMask (otpShadow b) e) 0)).flatMap (fun e => otpBytes (otpShadow b) (rootAt e) 12)))

/-- The Alias CDI of a keeper header. -/
def aliasCdiOf (device header : Bytes) (mfg : Bool) : Bytes := kdf device "JKH alias cdi" (sha384 header ++ lePut 1 (b2n mfg)) 32

/-- Step 8 of R98: every root the state has. -/
def deriveRoots (header : Bytes) (mfg : Bool) (b : Block) : Block :=
  let c := lcsConst b.run.lcs
  let device := kdf (udsBytes b) "JKH deviceid cdi" (c ++ romDigest) 32
  let root := kdf (udsBytes b) "JKH device root" (c ++ authorityValue b ++ lePut 1 (if mfg then 2 else 1)) 32
  let has := decide (1 ≤ b.run.lcs) && decide (b.run.lcs ≤ 4)
  let ifRoot (x : Bytes) : Option Bytes := if has then some x else none
  b.onKey (fun k => { k with
    deviceIdCdi := some device
    mfgCdi := if b.run.lcs = 1 then some mfgCdiOf else none
    aliasCdi := some (aliasCdiOf device header mfg)
    recordKey := some (kdf device "JKH bbram record" [] 32)
    deviceRoot := ifRoot root
    slotCheck := ifRoot (kdf root "JKH slot check" [] 32)
    localRoot := ifRoot (kdf root "JKH local domain" [] 32) })

/-- What the Alias certificates state of a keeper (R160). -/
def aliasFacts (b : Block) (m : Bytes) (mfg recovery : Bool) : Bytes × Nat × Nat :=
  (sha384 (mHead m), mVersion m, flag (decide (b.run.lcs ≤ 1) || mfg) 0 + flag recovery 1 + flag (decide (b.run.lcs ≤ 1)) 2)

/-! ### Class results (R124, R166) -/

/-- A KEY_INDEX as BOOT_CLASS_STATUS shows it; the manufacturing pair shows 0 beside MFG_KEY. -/
def keyShown (keys : List (Option Nat)) (a : Nat) : Nat :=
  match keys.getD a none with
  | some n => if n = 255 then 0 else n
  | none => 0

/-- The manufacturing key pair signed. -/
def keysMfg (keys : List (Option Nat)) : Bool := keys.contains (some 255)

/-- BOOT_CLASS_STATUS of a class accepted. -/
def classAccepted (m : Bytes) (keys : List (Option Nat)) (slot base seq : Nat) (fallback required : Bool) : ClassSt :=
  { outcome := 1, accepted := true, slot := slot, fallback := fallback, required := required, base := base, imageLen := mLen m,
    version := mVersion m, keyEcdsa := keyShown keys 0, keyMldsa := keyShown keys 1, keyLms := keyShown keys 2, mfgKey := keysMfg keys, seq := seq }

/-- BOOT_CLASS_STATUS of a class that failed. -/
def classFailed (outcome : Nat) (required : Bool) : ClassSt :=
  { outcome := outcome, accepted := false, slot := 0, fallback := false, required := required, base := 0, imageLen := 0, version := 0,
    keyEcdsa := 0, keyMldsa := 0, keyLms := 0, mfgKey := false, seq := 0 }

/-- Set the status of a class. -/
def putClass (c : Nat) (x : ClassSt) (b : Block) : Block := b.onBoot (fun o => { o with classes := tset o.classes c x })

/-- The measurement of a class: the header of what was accepted, or nothing. -/
def measureOf (b : Block) (c : Nat) (x : ClassSt) (header : Bytes) (keys : List (Option Nat)) : Measure :=
  { cls := c, outcome := x.outcome, header := header, keys := keys, source := b.boot.source, slot := x.slot, fallback := x.fallback,
    required := x.required, rejected := false }

/-- Add a measurement; the class 0 entry of an earlier keeper is replaced. -/
def addMeasure (x : Measure) (b : Block) : Block :=
  b.onBoot (fun o => { o with
    measures := if o.measures.any (fun y => y.cls == x.cls) then o.measures.map (fun y => if y.cls = x.cls then x else y)
      else o.measures ++ [x] })

/-- Candidates that failed are events (R437). -/
def reportFailed (codes : List Nat) (b : Block) : Block := codes.foldl (fun b c => event 0x0C0 c b) b

/-- Steps 8 to 11 of R98 for an accepted class 0 image. A keeper that came through Thaw leaves STATE in THAW. -/
def startKeeper (m : Bytes) (source slot base seq : Nat) (lower fallback required : Bool) (b : Block) : Block :=
  let keys := keysUsed (otpShadow b) b.run.lcs 0 m
  let mfg := keysMfg keys
  let viaThaw := decide (b.run.state = .thaw)
  let b := deriveRoots (mHead m) mfg b
  let b := b.onBoot (fun o => { o with
    source := source, slot := slot, fallback := lower, mfgKey := mfg, romLock := true, udsClosed := true })
  let x := classAccepted m keys slot base seq fallback required
  let b := addMeasure (measureOf b 0 x (mHead m) keys) (putClass 0 x b)
  let b := b.onRcd (fun r => { r with aliasOf := some (aliasFacts b m mfg (viaThaw || lower)) })
  if viaThaw then b else b.onRun (fun r => { r with state := .keeperBoot })

/-! ### BBRAM as the keeper finds it -/

/-- Every pair is judged (R274). -/
def judgePairs (b : Block) : Block :=
  let slots := (b.bbram.slots.map (·.1)).filter (fun i => slotState b i == .corrupt)
  let recs := (List.range 5).filter (fun i => recState b i == .corrupt)
  (slots ++ recs.map (64 + ·)).foldl (fun b n => noteCorrupt n b) b

/-- Record 0 (R272): EMPTY or CORRUPT, it is written afresh, with BLOB_LIMIT from the DRBG; the blob counter goes on from BLOB_LIMIT. -/
def findCounters (b : Block) : Block :=
  let fresh (b : Block) : Block :=
    let r := draw1 8 b
    commitRec 0 (zeros 8 ++ lePut 8 (leNat r.1 % 2 ^ 49 / 4096 * 4096) ++ zeros 31) r.2
  let b := match recState b 0 with
    | .valid _ _ => b
    | .empty => fresh b
    | .corrupt => event 0x141 0 ((fresh b).onKey (fun k => { k with restarted := true }))
  let limit := leAt ((recPayload b 0).getD []) 8 8
  b.onKey (fun k => { k with blobNext := limit, blobLimit := limit })

/-- Record 1 (R433). -/
def findLadders (b : Block) : Block :=
  match recState b 1 with
  | .valid _ _ => b
  | .empty => commitRec 1 (zeros 47) b
  | .corrupt => event 0x304 0 ((commitRec 1 (zeros 47) b).onWdg (fun w => { w with countsLost := true }))

/-- Record 2 (R447): a CORRUPT one is reported; the first commit adds what the recorder held. -/
def findCounts (b : Block) : Block :=
  commitCounts (if recState b 2 = .corrupt then event 0x342 0 (b.onEvr (fun e => { e with countsLost := true })) else b)

/-- Erase a key slot that is not EMPTY. -/
def clearSlot (i : Nat) (b : Block) : Block := if slotState b i = .empty then b else eraseSlot i b

/-- The bitmap against its check (R277): a pending bit is completed, a bitmap that is CORRUPT is zeroed and stale. -/
def findBitmap (b : Block) : Block :=
  let d := domRec b
  let pend := domPending d
  let i := pend % 16384
  let bits := b.bbram.bitmap
  let rest := bits.filter (· != i)
  let done (b : Block) : Block := commitDom (patch (patch d 0x0A (zeros 2)) 0x20 (bitmapCheck b b.bbram.bitmap)) b
  if bitmapCheck b bits = domCheck d then
    if bit pend 15 then done (b.onBbram (fun m => { m with bitmap := if bits.contains i then bits else bits ++ [i] })) else b
  else if bit pend 15 ∧ bitmapCheck b rest = domCheck d then done b
  else zeroBitmap (domFlag 2 true d) b

/-- Record 3 (R392): repaired, or written afresh. -/
def findDomain (b : Block) : Block :=
  let fresh (b : Block) : Block :=
    let b := [0, 1, 2, 3].foldl (fun b i => clearSlot i b) (b.onBbram (fun m => { m with bitmap := [], owner0 := none }))
    commitDom (domFresh b) b
  let b := match recState b 3 with
    | .corrupt => event 0x142 0 (fresh b)
    | .empty => fresh b
    | .valid _ _ =>
      let b := findBitmap b
      let d := domRec b
      let b := if domOp d = 1 then adoptRest b else clearSlot 3 (clearSlot 2 b)
      let d := domRec b
      let b := if domMember d then b
        else
          let b := clearSlot 1 (clearSlot 0 b)
          if b.bbram.bitmap.isEmpty then b else zeroBitmap d b
      if domPrevValid (domRec b) then b else clearSlot 1 b
  refreshDomain b

/-- What the keeper does first; a commit that fails in one record keeps no other from being found. -/
def keeperBegins (b : Block) : Block := commitAlone findDomain (commitAlone findLadders (commitAlone findCounters (findCounts (judgePairs b))))

/-! ### Ports and the ledger (R126, R137, R138) -/

/-- A chip select once it has been looked at. -/
def chipFound (o : Option SfdpView) : ChipSel :=
  match o with
  | some x => .found x
  | none => .absent

/-- The mode of a port (R125): the fastest that every present chip select reports, as SUSPEND of FLT_PORTn_STATUS is told (DEDUCED, assumption 7). -/
def fastestMode (xs : List SfdpView) : Nat :=
  if xs.isEmpty then 0 else if xs.all (·.octal) then 2 else if xs.all (·.quad) then 1 else 0

/-- Each chip select of a port is discovered on its own (R126). -/
def discoverPort (p : Nat) (v : PortView) (b : Block) : Block :=
  onPort p (fun x => { x with mode := fastestMode (v.cs0.toList ++ v.cs1.toList), cs0 := chipFound v.cs0, cs1 := chipFound v.cs1 }) b

/-- Ledger entries of some bytes that begin at a port address. -/
def putLedger (p index addr : Nat) (data : Bytes) (b : Block) : Block :=
  let cs := chunks 4096 data
  onPort p (fun x => { x with
    ledger := (List.range cs.length).foldl (fun t i => tset t (index + i) (ledgerDigest p (addr + 4096 * i) (cs.getD i []))) x.ledger }) b

/-- Ledger entries that a port has left (R1). -/
def ledgerRoom (b : Block) (p : Nat) : Nat := ledgerOf b.run.variant - (portOf b p).ledger.length

/-! ### Rules of slots (R131) -/

/-- A rule of a class, its rights still open. -/
def slotRule (base size cls : Nat) (verified : Bool) (ledger : Nat) : FlashRule :=
  { base := base, size := size, rights := 0, valid := true, verified := verified, append := false, cls := cls, ledger := ledger }

/-- Put a rule. -/
def putRule (p n : Nat) (r : FlashRule) (b : Block) : Block := onPort p (fun x => { x with rules := tset x.rules n r }) b

/-- Rights from a class's readers or writers byte: host bit 0, SPIT bit 1. -/
def rightsFor (who mask : Nat) : Nat := (if bit who 0 then mask * 8 else 0) + (if bit who 1 then mask * 64 else 0)

/-! ### Platform classes (R117, R118) -/

/-- Classes 1, 2, 5, 6 and 7. -/
def hostClass (c : Nat) : Bool := [1, 2, 5, 6, 7].contains c

/-- A platform class is accepted in a slot: its status, its ledger entries, its rules, its measurement. -/
def acceptClass (p : Nat) (v : PortView) (e : DirEntry) (i : Nat) (fallback : Bool) (b : Block) : Block :=
  let copy := slotCopy v e i
  let m := copy.manifest
  let keys := keysUsed (otpShadow b) b.run.lcs e.cls m
  let x := classAccepted m keys i (slotBase e i) (copy.seq.getD 0) fallback e.required
  let index := (portOf b p).ledger.length
  let b := putLedger p index (slotBase e i) (m ++ (slotImage v e i (mLen m)).getD []) (putClass e.cls x b)
  let b := putRule p (1 + 2 * e.cls) (slotRule (slotBase e i) (manifestLen + mLen m) e.cls true index) b
  let b := putRule p (2 + 2 * e.cls) (slotRule (slotBase e (1 - i)) e.size e.cls false 0) b
  addMeasure (measureOf b e.cls x (mHead m) keys) b

/-- The slots of a class that failed are denied to every requester (R118). -/
def denySlots (p : Nat) (e : DirEntry) (b : Block) : Block :=
  onPort p (fun x => { x with denied := x.denied ++ [(slotBase e 0, e.size), (slotBase e 1, e.size)] }) b

/-- One class of the keeper stage: false when a REQUIRED class failed in every candidate. -/
def platformClass (p : Nat) (v : PortView) (c : Nat) (b : Block) : Bool × Block :=
  match entryFor b.boot.directory c with
  | none => (true, b)
  | some e =>
    let fits (n : Nat) : Bool := decide (4 + n / 4096 ≤ ledgerRoom b p)
    let t := tryClass (otpShadow b) b.run.lcs fits v e (hostClass c && wdgRecovery b)
    let b := reportFailed t.failed b
    match t.won with
    | some i => (true, acceptClass p v e i t.fallback b)
    | none =>
      let x := classFailed t.last e.required
      let b := addMeasure (measureOf b c x [] []) (putClass c x b)
      (!e.required, if e.required then b else denySlots p e b)

/-- Classes in order, until a REQUIRED one fails. -/
def platformClasses (p : Nat) (v : PortView) (cs : List Nat) (b : Block) : Bool × Block :=
  cs.foldl (fun r c => if r.1 then platformClass p v c r.2 else r) (true, b)

/-! ### Policy (R130, R134 to R136) -/

/-- A filter policy. -/
structure Policy where
  readers  : List Nat
  writers  : List Nat
  spitPort : Nat
  spitBase : Nat
  spitSize : Nat
  allow    : Table Nat
  rulesA   : Table FlashRule
  rulesB   : Table FlashRule
  deriving DecidableEq, Repr

/-- A region rule of an image. -/
def ruleAt (img : Bytes) (off : Nat) : FlashRule :=
  let f := leAt img (off + 0x0A) 1
  { base := leAt img off 4, size := leAt img (off + 4) 4, rights := leAt img (off + 8) 2, valid := bit f 0, verified := bit f 1, append := bit f 2,
    cls := leAt img (off + 0x0B) 1, ledger := leAt img (off + 0x0C) 4 }

/-- The fields of a policy rule are within their table; it is not VERIFIED and has no ledger. -/
def ruleOk (img : Bytes) (off : Nat) : Bool :=
  let r := ruleAt img off
  r.base % 4096 == 0 && r.size % 4096 == 0 && decide (4096 ≤ r.size) && decide (r.base + r.size ≤ 0x40000000) && decide (r.rights < 512) &&
    decide (leAt img (off + 0x0A) 1 < 8) && r.cls == 0xFF && !r.verified && r.ledger == 0

/-- An allow-list entry is within its table. -/
def allowOk (v : Nat) : Bool := [0, 3, 4].contains (bits v 23 16) && decide (bits v 31 24 ≤ 30)

/-- COUNT_A and COUNT_B. -/
def polCounts (img : Bytes) : Nat × Nat := (leAt img 6 1, leAt img 7 1)

/-- The fields of a class 4 image are within their tables. -/
def policyFieldsOk (img : Bytes) : Bool :=
  let (na, nb) := polCounts img
  leAt img 0 4 == 0x4A465031 && leAt img 4 2 == 1 && decide (na ≤ 47) && decide (nb ≤ 47) && decide (0x440 + 16 * (na + nb) ≤ img.length) &&
    (slice img 8 16).all (fun x => decide (x.toNat ≤ 3)) && [0, 1, 0xFF].contains (leAt img 0x18 1) && allZero img 0x19 7 &&
    leAt img 0x20 4 % 4096 == 0 && decide (leAt img 0x20 4 < 0x40000000) && leAt img 0x24 4 % 4096 == 0 && decide (leAt img 0x24 4 ≤ 0x10000000) && allZero img 0x28 24 &&
    (List.range 256).all (fun i => allowOk (leAt img (0x40 + 4 * i) 4)) && (List.range (na + nb)).all (fun i => ruleOk img (0x440 + 16 * i))

/-- The policy of an image. -/
def policyOf (img : Bytes) : Policy :=
  let (na, nb) := polCounts img
  { readers := (slice img 8 8).map BitVec.toNat, writers := (slice img 0x10 8).map BitVec.toNat, spitPort := leAt img 0x18 1,
    spitBase := leAt img 0x20 4, spitSize := leAt img 0x24 4
    allow := ((List.range 256).map (fun i => (i, leAt img (0x40 + 4 * i) 4))).filter (fun x => x.2 != 0)
    rulesA := (List.range na).map (fun i => (17 + i, ruleAt img (0x440 + 16 * i)))
    rulesB := (List.range nb).map (fun i => (17 + i, ruleAt img (0x440 + 16 * (na + i)))) }

/-- The last 4 MiB of chip select 0 of the directory port, when no slot reaches into them. -/
def defaultRing (b : Block) (v : PortView) : Table FlashRule :=
  let n := v.size 0
  let base := n - 0x400000
  if n < 0x400000 ∨ (dirSpans b.boot.directory).any (fun s => spansMeet s (0, base, 0x400000)) then []
  else [(17, { base := base, size := 0x400000, rights := 8, valid := true, verified := false, append := true, cls := 0xFF, ledger := 0 })]

/-- The default policy. -/
def defaultPolicy (b : Block) (p : Nat) (v : PortView) : Policy :=
  let ring := defaultRing b v
  { readers := [0, 1, 1, 2, 0, 1, 1, 1], writers := [1, 1, 1, 2, 1, 1, 1, 1], spitPort := 0xFF, spitBase := 0, spitSize := 0, allow := defaultAllow
    rulesA := if p = 0 then ring else [], rulesB := if p = 0 then [] else ring }

/-- The valid rules of a port are apart, and its append-only rules, valid or not, at most one, of at most 64 MiB. -/
def rulesOk (slots policy : Table FlashRule) : Bool :=
  let all := (slots ++ policy).filter (fun r => r.2.valid)
  let app := policy.filter (fun r => r.2.append)
  spansApart (all.map (fun r => (0, r.2.base, r.2.size))) && decide (app.length ≤ 1) && app.all (fun r => decide (r.2.size ≤ 0x4000000))

/-- Step K4: the rights of the slot rules, the policy's rules, the SPIT part and the allow-list; the filter is armed. -/
def armFilter (p : Nat) (pol : Policy) (b : Block) : Block :=
  let right (n : Nat) (r : FlashRule) : FlashRule :=
    if n = 0 ∨ 16 < n then r
    else if r.verified then { r with rights := rightsFor (pol.readers.getD r.cls 0) 1 }
    else { r with rights := rightsFor (pol.writers.getD r.cls 0) 7 }
  let fill (x : FlashPort) (rules : Table FlashRule) : FlashPort :=
    { x with rules := x.rules.map (fun q => (q.1, right q.1 q.2)) ++ rules }
  let b := b.onFlt (fun f => { f with
    mode := 1, dirPort := p, readers := pol.readers, writers := pol.writers, allow := pol.allow, spitPort := pol.spitPort,
    spitBase := pol.spitBase, spitSize := pol.spitSize, fla := fill f.fla pol.rulesA, flb := fill f.flb pol.rulesB })
  b.onBoot (fun o => { o with filterArmed := true })

/-- The policy in force: class 4's when it was accepted and its contents are not rejected, otherwise the default one. -/
def choosePolicy (p : Nat) (v : PortView) (b : Block) : Policy × Block :=
  match entryFor b.boot.directory 4, tget b.boot.classes 4 with
  | some e, some c =>
    if c.accepted then
      let img := (slotImage v e c.slot c.imageLen).getD []
      if policyFieldsOk img && rulesOk b.flt.fla.rules (policyOf img).rulesA && rulesOk b.flt.flb.rules (policyOf img).rulesB then
        (policyOf img, b.onFlt (fun f => { f with policyImage := true }))
      else
        (defaultPolicy b p v, (b.onFlt (fun f => { f with policyRejected := true })).onBoot (fun o => { o with
          measures := o.measures.map (fun m => if m.cls = 4 then { m with rejected := true } else m) }))
    else (defaultPolicy b p v, b)
  | _, _ => (defaultPolicy b p v, b)

/-! ### THAW (R57, R103, R118, R122, R152) -/

/-- SERIAL Thaw takes the UART (R59, R60, R498): a command that runs ends without a reply, and the mode is framed once the rate is locked. -/
def takeUart (b : Block) : Block :=
  b.onMon (fun m => { m with
    owner := 1, running := none, reply := true, fresh := false, mode := if m.baud = 0 then m.mode else .framed })

/-- The first port of the effective list that answers and has a valid directory, with that directory. -/
def firstDirectory (f : FlashView) (b : Block) : Option (Nat × Bytes) :=
  b.boot.order.findSome? (fun c =>
    if c = 1 ∨ c = 2 then (if (f.port (c - 1)).cs0.isSome then (dirOf (f.port (c - 1))).map (fun d => (c - 1, d)) else none) else none)

/-- What SPIT reads in THAW: the class 3 slot that R107 would try first, past its manifest. -/
def thawImage (f : FlashView) (port : Nat) (d : Bytes) : Option (Nat × Nat) :=
  match entryFor d 3 with
  | none => none
  | some e =>
    let v := f.port port
    (slotOrder (slotCopy v e 0).seq (slotCopy v e 1).seq).head?.map (fun i => (slotBase e i + manifestLen, e.size - manifestLen))

/-- THAW is entered. -/
def enterThaw (reason : Nat) (f : FlashView) (b : Block) : Block :=
  let first := b.boot.firstDir.orElse (fun _ => firstDirectory f b)
  let b := b.onBoot (fun o => { o with thawReason := reason, firstDir := first, wait := .none, offer := none })
  let b := b.onRun (fun r => { r with state := .thaw })
  let b := b.onPins (fun p => { p with bmcHigh := true })
  let b := { b with kept := { b.kept with thaw := true } }
  let spit := first.bind (fun x => (thawImage f x.1 x.2).map (fun y => (x.1, y.1, y.2)))
  let b := b.onFlt (fun x => { x with
    mode := 2, allow := if x.allow.isEmpty then defaultAllow else x.allow
    spitPort := (spit.map (·.1)).getD 0xFF, spitBase := (spit.map (·.2.1)).getD 0, spitSize := (spit.map (·.2.2)).getD 0 })
  let transport := b.boot.order.any (fun c => c == 3 || c == 4)
  let b := b.onBoot (fun o => { o with noTransport := !transport && reason == 1 })
  event 0x0C1 reason (if b.boot.order.contains 3 then takeUart b else b)

/-! ### The keeper stage (R117) -/

/-- K5: the record, the lock of VERIFIED regions, and whether the host is withheld (R33, R118). -/
def solstice (f : FlashView) (b : Block) : Block :=
  let b := b.onBoot (fun o => { o with frozenSet := true })
  let (ok, b) := makeRecord f false b
  let b := b.onFlt (fun x => { x with solstice := true })
  b.onBoot (fun o => { o with persisted := ok, recordHold := !ok && recordStrict b })

/-- K1 to K5, from the port whose class 0 image was accepted. -/
def keeperStage (f : FlashView) (b : Block) : Block :=
  let p := b.boot.port.getD 0
  let v := f.port p
  let b := keeperBegins b
  let b := discoverPort 1 f.flb (discoverPort 0 f.fla b)
  let b := putLedger p 0 0 b.boot.directory b
  let b := putRule p 0 { slotRule 0 4096 0xFF true 0 with rights := 1 + 8 + 64 } b
  let b := match entryFor b.boot.directory 0, tget b.boot.classes 0 with
    | some e, some c => putRule p 2 (slotRule (slotBase e (1 - c.slot)) e.size 0 false 0) b
    | _, _ => b
  let (ok, b) := platformClasses p v [4, 3] b
  if ok = false then enterThaw 2 f b
  else
    let bmc := (tget b.boot.classes 3).any (·.accepted)
    let b := if bmc then (b.onBoot (fun o => { o with bmcReleased := true })).onPins (fun x => { x with bmcHigh := true }) else b
    let (ok, b) := platformClasses p v [1, 2, 5, 6, 7] b
    if ok = false then enterThaw 2 f b
    else
      let (pol, b) := choosePolicy p v b
      solstice f (ringStart f (armFilter p pol b))

end Sys2Proof.Machine
end

