-- ==== Sys2Proof/Machine/Rom.lean ====
section
/-! DEFINITION. ROM entry, the source walk, the host release, SYS_RST_N (R49, R50, R81, R88, R96, R98 to R103, R199, R453). -/

namespace Sys2Proof.Machine

/-! ### What ROM does before it reads the Frost latch -/

/-- Straps are latched (R50, R51): a strap whose readings disagree takes its safe value, and is an event. DESIGN CHOICE (assumption 5): of the
multi-bit straps STRAP_BOOT and STRAP_ADDR an unstable bit alone takes its safe value 0; their stable bits stand as sampled. -/
def sampleStraps (straps unstable : Nat) (b : Block) : Block :=
  let bad := (List.range 8).filter (bit unstable)
  let v := ((List.range 8).filter (fun i => bit straps i && !bit unstable i)).foldl (fun n i => n + 2 ^ i) 0
  let b := b.onPins (fun p => { p with straps := v, unstable := bad.foldl (fun n i => n + 2 ^ i) 0, sbDisabled := bad.contains 2 })
  bad.foldl (fun b i => event 0x000 i b) b

/-- ROM copies the ordering monitor's findings (R67, R71, R77): the faults not yet reported are events, the VBAT flag is read and cleared. -/
def copySupply (b : Block) : Block :=
  let b := b.sup.newFaults.foldl (fun b c => event 0x040 c b) b
  b.onSup (fun s => { s with newFaults := [], faultReg := s.fault, countReg := s.faultCount, seenReg := s.vbatSeen, vbatSeen := false })

/-- The retained region (R453): kept after a watchdog or a firmware warm reset when its header is good, otherwise swept. -/
def judgeRetained (b : Block) : Block :=
  let k := b.pwr.kind
  let kept := if (k = 3 ∨ k = 4) ∧ b.kept.magicOk = true then { b.kept with kind := k, run := min 65535 (b.kept.run + 1) } else RetainedSt.swept k
  { b with kept := kept }.onPwr (fun p => { p with warmRun := min 255 kept.run })

/-- Torn transition groups are completed (R81): every group up to the highest one taken, with a bit that does not read 1 at tightened margin;
`weak` are the bits of LCS_STATE that read 1 at normal margin only. -/
def completeGroups (weak : List Nat) (b : Block) : Block :=
  let v := lcsField64 b
  let n := stateOfFuses v
  let torn := (List.range n).filter (fun g => bits v (12 * g + 11) (12 * g) != 0xFFF || weak.any (fun i => i / 12 == g))
  let b := torn.foldl (fun b g => event 0x080 g (programLcs (groupBits g) b)) b
  (b.onOtp (fun o => { o with torn := !torn.isEmpty })).onRun (fun r => { r with lcs := n })

/-- The OTP shadow is loaded (R93), and on JT-H48F the vault die's identity is read (R96). -/
def loadShadow (b : Block) : Block :=
  let b := b.onOtp (fun o => { o with shadow := o.cells })
  if b.run.variant = .jtH48F then
    let rd := (List.range 3).map (fun i => b.otp.vaultDie.getD i 0)
    let bad := rd != (List.range 3).map (fun i => otpShadow b (5 + i))
    let b := b.onOtp (fun o => { o with vaultRd := rd, mismatch := bad })
    if bad then event 0x082 0 b else b
  else b.onOtp (fun o => { o with vaultRd := [0, 0, 0], mismatch := false })

/-- The BBRAM tag of a state (R271). -/
def bbramTag (lcs : Nat) : Word := word ((0xFFFF - (0x0100 + lcs)) * 65536 + (0x0100 + lcs))

/-- The tag check (R88): on a mismatch BBRAM is wiped and tagged anew. -/
def checkTag (b : Block) : Block :=
  if b.bbram.tag = bbramTag b.run.lcs then b.onOtp (fun o => { o with wiped := false })
  else
    let found := bits b.bbram.tag.toNat 2 0
    event 0x081 found ((b.onBbram (fun _ => { BbramSt.blank with tag := bbramTag b.run.lcs })).onOtp (fun o => { o with wiped := true }))

/-! ### Known-answer tests (R99) -/

/-- The known-answer tests of R98 step 5 in order, each with the engine of event 0x0C2 and the engine alarm that its failure is (R21). The spec does
not say which unit of an engine runs a test (DESIGN CHOICE, assumption 12): pipeline 0, the lattice unit for ML-DSA-87, the modular unit for ECDSA P-384 and
LMS-HSS, the unwrap engine for AES-256. -/
def katTests (policy : Nat) : List (Nat × Nat × Nat) :=
  [(3, 0x1C0, 0), (3, 0x1C0, 0), (5, 0x180, 0xFFFFF), (4, 0x280, 1)] ++ (if policy = 0 ∨ policy = 2 then [(4, 0x280, 0)] else [])

/-- The alarm counters of the engines. -/
def countAlarm (engine : Nat) (b : Block) : Block :=
  match engine with
  | 3 => onPipe 0 (fun p => { p with alarms := min 255 (p.alarms + 1) }) b
  | 4 => b.onPke (fun p => { p with alarms := sat32 (p.alarms + 1) })
  | _ => b.onVlt (fun v => { v with alarms := sat32 (v.alarms + 1) })

/-- A test fails once: an engine alarm. -/
def katAlarm (t : Nat × Nat × Nat) (b : Block) : Block := stampAlarm (event t.2.1 t.2.2 (event 0x0C2 t.1 (countAlarm t.1 b)))

/-- A known-answer test that fails `n` times: the engine's self-test and the test are run again up to two more times, and a last failure stops ROM
(R99). Nothing more runs once an escalation has taken the device out of ROM. -/
def katEngine (t : Nat × Nat × Nat) (n : Nat) (b : Block) : Block :=
  let b := (List.range (min n 3)).foldl (fun b _ => if b.run.state = .rom then katAlarm t b else b) b
  if 3 ≤ n ∧ b.run.state = .rom then b.onBoot (fun o => { o with katFail := true }) else b

/-- The tests that ROM runs in FROZEN before its first verification (R408): ECDSA P-384, ML-DSA-65, SHA-384. -/
def frozenTests : List (Nat × Nat × Nat) := [(4, 0x280, 0), (4, 0x280, 1), (3, 0x1C0, 0)]

/-- Tests, until one stops ROM; `fails` says how often each fails. -/
def katRun (ts : List (Nat × Nat × Nat)) (fails : List Nat) (b : Block) : Block :=
  (List.range ts.length).foldl (fun b i =>
    if b.run.state = .rom ∧ b.boot.katFail = false then katEngine (ts.getD i (0, 0, 0)) (fails.getD i 0) b else b) b

/-! ### The effective source list (R100, R101) -/

/-- Codes of BOOT_SRC_ORDER up to the end of its list, each once. -/
def listCodes (order : Nat) : List Nat :=
  (((List.range 4).map (fun i => bits order (3 * i + 2) (3 * i))).takeWhile (fun c => decide (1 ≤ c) && decide (c ≤ 4))).foldl
    (fun l c => if l.contains c then l else l ++ [c]) []

/-- The effective source list. -/
def effectiveList (order straps : Nat) (sbDisabled : Bool) : List Nat :=
  let l := if order = 0 then [1, 2, 3, 4] else listCodes order
  let l := if bit straps 1 then l.filter (· != 1) else l
  let l := if bit straps 0 && l.contains 2 then 2 :: l.filter (· != 2) else l
  if sbDisabled then l.filter (· != 4) else l

/-- ROM builds the list; the walk starts at its head. -/
def buildList (b : Block) : Block :=
  let l := effectiveList (bits (otpShadow b 8) 15 4) b.pins.straps b.pins.sbDisabled
  b.onBoot (fun o => { o with
    order := l, pos := 0, wait := .none
    logs := l.map (fun c => { source := c, tried := false, outcome := 0, slotA := 0, slotB := 0 }) })

/-! ### The walk (R102) -/

/-- Change the log of the present position. -/
def onLog (f : WalkLog → WalkLog) (b : Block) : Block :=
  b.onBoot (fun o => { o with logs := (List.range o.logs.length).map (fun i =>
    let l := o.logs.getD i { source := 0, tried := false, outcome := 0, slotA := 0, slotB := 0 }
    if i = o.pos then f l else l) })

/-- The position has failed with an outcome; the walk moves on. -/
def sourceFailed (outcome : Nat) (b : Block) : Block :=
  (onLog (fun l => { l with outcome := outcome }) b).onBoot (fun o => { o with pos := o.pos + 1, wait := .none })

/-- The image limit of class 0. -/
def keeperFits (n : Nat) : Bool := decide (n ≤ 1536 * 1024)

/-- A flash port as a source: true when its class 0 image was accepted and the keeper has started. -/
def trySource (p : Nat) (v : PortView) (b : Block) : Bool × Block :=
  let b := discoverPort p v b
  match dirOf v with
  | none => (false, sourceFailed 0x3 b)
  | some d =>
    let b := b.onBoot (fun o => { o with firstDir := o.firstDir.orElse (fun _ => some (p, d)) })
    match entryFor d 0 with
    | none => (false, sourceFailed 0x3 b)
    | some e =>
      let t := tryClass (otpShadow b) b.run.lcs keeperFits v e false
      let b := reportFailed t.failed b
      let b := onLog (fun l => { l with outcome := t.last, slotA := t.codeA, slotB := t.codeB }) b
      match t.won with
      | none => (false, (putClass 0 (classFailed t.last e.required) b).onBoot (fun o => { o with pos := o.pos + 1 }))
      | some i =>
        let b := b.onBoot (fun o => { o with port := some p, directory := d })
        let copy := slotCopy v e i
        (true, startKeeper copy.manifest (p + 1) i (slotBase e i) (copy.seq.getD 0) t.lower t.fallback e.required b)

/-- The walk goes on at its present position: to the keeper, to a wait, or to THAW. -/
def walk (f : FlashView) : Nat → Block → Block
  | 0, b => b
  | fuel + 1, b =>
    match b.boot.order[b.boot.pos]? with
    | none => enterThaw 1 f b
    | some c =>
      let b := onLog (fun l => { l with tried := true }) b
      if c = 1 ∨ c = 2 then
        if (f.port (c - 1)).cs0.isSome then
          match trySource (c - 1) (f.port (c - 1)) b with
          | (true, b) => keeperStage f b
          | (false, b) => walk f fuel b
        else b.onBoot (fun o => { o with wait := .sfdp })
      else
        let b := b.onBoot (fun o => { o with wait := .listen })
        if c = 3 then takeUart b else b

/-- The walk from here to its next stop. -/
def walkOn (f : FlashView) (b : Block) : Block := walk f (b.boot.order.length + 1) b

/-! ### ROM entry (R98) -/

/-- Steps 1 to 3, which every entry takes. -/
def romBegins (env : BootEnv) (b : Block) : Block :=
  let b := b.onRun (fun r => { r with state := .rom })
  let b := b.onKey (fun k => { k with dataBad := env.bbramBad, ctlBad := env.ctlBad })
  let b := sampleStraps env.straps env.unstable (b.onSup (fun s => { s with pgood := true }))
  checkTag (loadShadow (completeGroups env.weak (judgeRetained (copySupply b))))

/-- ROM entry: internal power-good is high, no supply fault holds the device, SYS_RST_N is high. With the Frost latch set, ROM enters FROZEN; it
then runs the tests of R408 at once, which is before any verification. -/
def romEntry (env : BootEnv) (b : Block) : Block :=
  if b.run.state ≠ .reset ∨ railsGood b = false ∨ b.sup.held = true ∨ b.pins.sysRstLow = true then b
  else
    let b := romBegins env b
    if b.tmp.latched then
      let b := katRun frozenTests env.kat b
      raiseIrq irqFrozen ((b.onRun (fun r => { r with state := .frozen })).onFlt (fun f => { f with mode := 4 }))
    else
      let b := katRun (katTests (sigPolicy (otpShadow b 8))) env.kat b
      if b.run.state ≠ .rom ∨ b.boot.katFail = true then b else walkOn env.flash (buildList b)

/-- ROM_ENTRY (R98). -/
def execRomEntry (env : BootEnv) (s : State) : Host.Outcome State Fault Refusal := .next { s with blk := romEntry env s.blk }

/-- No SFDP response within 1 ms from chip select 0: it is absent, and the source fails discovery (R102, R126). -/
def sfdpTimeout (f : FlashView) (b : Block) : Block :=
  if b.run.state = .rom ∧ b.boot.wait = .sfdp then
    let c := b.boot.order.getD b.boot.pos 0
    walkOn f (sourceFailed 0x2 (discoverPort (c - 1) { f.port (c - 1) with cs0 := none } b))
  else b

/-- SFDP_TIMEOUT (R102). -/
def execSfdpTimeout (flash : FlashView) (s : State) : Host.Outcome State Fault Refusal := .next { s with blk := sfdpTimeout flash s.blk }

/-- A listen window has ended without an offer: NO_OFFER; the UART returns to the monitor (R102, R498). -/
def listenEnds (f : FlashView) (b : Block) : Block :=
  if b.run.state = .rom ∧ b.boot.wait = .listen then
    walkOn f (sourceFailed 0xF (b.onMon (fun m => { m with owner := 0 })))
  else b

/-- LISTEN_WINDOW_EXPIRY (R102). -/
def execListenWindowExpiry (flash : FlashView) (s : State) : Host.Outcome State Fault Refusal :=
  .next { s with blk := listenEnds flash s.blk }

/-! ### Host release (R117 step K6, R199, R419, R429) -/

/-- K6: STATE SERVICE, the host is released, WDG_P is armed, the healthy run begins; the governor's first decision follows by its own
command. -/
def hostRelease (b : Block) : Block :=
  if b.run.state = .keeperBoot ∧ b.boot.frozenSet = true ∧ b.boot.recordHold = false ∧ hostPwrgdOk b = true then
    let b := b.onRun (fun r => { r with state := .service })
    let b := onHostReset (fun p => { p with released := true }) (b.onBoot (fun o => { o with hostReleased := true }))
    let b := wdgArm true 0x0001EA60 b
    b.onWdg (fun w => { w with runStart := some b.time.secs })
  else b

/-- HOST_RELEASE (R199). -/
def execHostRelease (s : State) : Host.Outcome State Fault Refusal := .next { s with blk := hostRelease s.blk }

/-! ### SYS_RST_N (R49) -/

/-- A low pulse on SYS_RST_N is recognised: a chip reset of KIND 2, which lasts while the pin is low; nothing without internal power-good. -/
def sysRstLow (b : Block) : Block :=
  if b.sup.pgood then chipReset 2 (b.onPins (fun p => { p with sysRstLow := true })) else b.onPins (fun p => { p with sysRstLow := true })

/-- SYS_RST_N_RECOGNISED (R49). -/
def execSysRstNRecognised (s : State) : Host.Outcome State Fault Refusal := .next { s with blk := sysRstLow s.blk }

/-- SYS_RST_N_RISE (R49). -/
def execSysRstNRise (s : State) : Host.Outcome State Fault Refusal :=
  .next { s with blk := s.blk.onPins (fun p => { p with sysRstLow := false }) }

end Sys2Proof.Machine
end

