-- ==== Sys2Proof/Machine/Flags.lean ====
section
/-! DEFINITION. What the registers show: every window of PF0's BAR0, the queue pages, the status page of a VF, as 32-bit values computed from the
state (R77, R97, R124, R154, R190, R206, R234, R284, R303, R321, R349, R374, R415, R435, R450, R472, R500, R506 to R510). -/

namespace Sys2Proof.Machine

/-- Placed fields summed: value at bit. -/
def fields (fs : List (Nat × Nat)) : Nat := (fs.map (fun f => f.1 * 2 ^ f.2)).sum

/-- A list of truth values as a mask. -/
def maskOf (xs : List Bool) : Nat := (List.range xs.length).foldl (fun n i => n + flag (xs.getD i false) i) 0

/-! ### DEV (R206, R506 to R510) -/

/-- Lanes admitted. -/
def lanesAdmitted (b : Block) : Nat := b.ste.lanes.countP (·.admitted)

/-- Cores admitted. -/
def coresAdmitted (b : Block) : Nat := b.sce.cores.countP (·.admitted)

/-- The vault die is bonded. -/
def vaultBonded (b : Block) : Bool := decide (b.run.variant = .jtH48F)

/-- Usable bandwidth of the link in units of 0.45 Tbit/s at 16 GT/s steps: width in x32 units times rate in 8 GT/s units (R186). -/
def linkUnits (b : Block) : Nat :=
  let w : LinkWidth → Nat
    | .none => 0
    | .x32 => 1
    | .x64 => 2
  let r := match b.link.rate with
    | none => 0
    | some .gt16 => 2
    | some .gt24 => 3
    | some .gt32 => 4
  if b.link.phase = .active then (w b.link.w0 + w b.link.w1) * r else 0

/-- FLOOR_LINK_OK (R186): 1.8 Tbit/s on JT-H48F, 0.9 on JT-H48S; 0.225 Tbit/s to a unit. -/
def floorLinkOk (b : Block) : Bool :=
  match b.run.variant with
  | .jtH48F => decide (8 ≤ linkUnits b)
  | .jtH48S => decide (4 ≤ linkUnits b)
  | .jtH48B => false

/-- CORE_BELOW_FLOOR: a measured VDD_CORE below 0.70 V (R77). -/
def coreBelowFloor (b : Block) : Bool := decide (0 < b.pwr.measured) && decide (b.pwr.measured < 700)

/-- FLOOR_MET (R507). -/
def floorMet (b : Block) : Bool :=
  decide (b.run.variant ≠ .jtH48B) && b.ste.lanes.all (fun l => l.admitted && decide (l.state ≠ .failed)) && b.ste.fence == 0 &&
    b.sce.cores.all (fun c => c.admitted && decide (c.state ≠ .failed)) && b.sce.fence == 0 && b.leg.core.isNone && floorLinkOk b &&
    !coreBelowFloor b && decide (b.pwr.tj ≤ 100)

/-- DEV_CAP0 and DEV_CAP1 without VARIANT (R508). -/
def capWords : Variant → Nat × Nat
  | .jtH48F => (0xFFFF0840, 0x0B48C200)
  | .jtH48S => (0xFFFF0420, 0x08E72C20)
  | .jtH48B => (0xFCFF0000, 0x04C70020)

/-- DEV_STATUS. -/
def devStatus (b : Block) : Nat :=
  fields [(stateCode b.run.state, 0), (b2n b.run.keysLocked, 4), (b2n (floorMet b), 8), (lanesAdmitted b, 20), (coresAdmitted b, 24)]

/-- DEV_LINK_STATUS. -/
def linkStatus (b : Block) : Nat :=
  let phase := match b.link.phase with
    | .down => 0
    | .training => 1
    | .active => 2
    | .retrain => 3
  let rate := match b.link.rate with
    | none => 0
    | some .gt16 => 1
    | some .gt24 => 2
    | some .gt32 => 3
  let w : LinkWidth → Nat
    | .none => 0
    | .x32 => 1
    | .x64 => 2
  fields [(phase, 0), (b2n b.link.hsNoAck, 4), (b2n (hostInReset b), 5), (b2n (hostPwrgdOk b), 6), (b2n (floorLinkOk b), 7), (rate, 10),
    (w b.link.w0, 12), (w b.link.w1, 14), (b.link.repaired, 16)]

/-- The code of a TDI state (R206). -/
def tdiCode : Tdi → Nat
  | .configUnlocked => 0
  | .configLocked => 1
  | .run => 2
  | .error => 3

/-- A register of the DEV window. -/
def devReg (b : Block) (off : Nat) : Nat :=
  match off with
  | 0x000 => (match b.run.variant with
    | .jtH48F => 0x48010000
    | .jtH48S => 0x48020000
    | .jtH48B => 0x48030000) + 0x1E5B
  | 0x004 => fields [(Config.steppingMinor.toNat, 0), (Config.steppingMajor.toNat, 8), (if vaultBonded b then Config.vaultStepping.toNat else 0, 16)]
  | 0x008 => devStatus b
  | 0x00C => (capWords b.run.variant).1
  | 0x010 => (capWords b.run.variant).2 + variantFuse b * 2 ^ 28
  | 0x014 => fields [(b.pins.straps, 0), (b.pins.unstable, 8), (b2n b.pins.sbDisabled, 16)]
  | 0x018 => b.dev.rsvdWrites
  | 0x01C => b.dev.discards
  | 0x100 => b.dev.irqCause
  | 0x104 => b.dev.irqEnable
  | 0x108 => fields [(b.q.qerrNum, 0), (b.q.qerrKind, 30)]
  | 0x10C => b.q.qerrCount
  | 0x400 => linkStatus b
  | 0x404 => b2n b.link.writeCheck
  | 0x408 => b.link.retrains
  | 0x40C => b.link.dmaErrors
  | 0x410 => b.link.badAccess
  | 0x414 => b.link.badAccAddr
  | _ =>
    if 0x440 ≤ off ∧ off ≤ 0x47C then
      fields ((List.range 16).map (fun j =>
        let v := (off - 0x440) / 4 * 16 + j
        (if v = 0 then 0 else tdiCode (fnOf b v).tdi, 2 * j)))
    else 0

/-! ### PWR (R77, R472) -/

/-- PWR_SUPPLY_STATUS. DESIGN CHOICE (assumption 5): R73 says "from 100 °C", R77 and event 0x042 say "above 100 °C"; the governor withdraws at exactly
100 °C, where TJ_ABOVE_100 reads 0 and no event is counted. -/
def supplyStatus (b : Block) : Nat :=
  fields [(b2n (decide (100 < b.pwr.tj)), 6), (b2n (coreBelowFloor b), 7), (b2n (bit b.pins.straps 3), 8), (b2n b.sup.ana.good, 9),
    (b2n b.sup.seenReg, 10), (b2n (decide (b.sup.vbatMv < 2500)), 11), (b.sup.faultReg, 20), (b.sup.countReg, 24)]

/-- PWR_STATUS. -/
def pwrStatus (b : Block) : Nat :=
  fields [(b2n b.pwr.canarySlow, 12), (b2n b.pwr.avsFault, 13), (b2n b.pwr.capLimited, 14), (b2n b.pwr.settling, 15),
    ((b.pwr.tj + 64).toNat % 256, 24)]

/-- PWR_RESET_CAUSE. -/
def resetCause (b : Block) : Nat := fields [(b.pwr.kind, 0), (b.pwr.warmRun, 8), (b.pwr.restarts, 16)]

/-- A register of the PWR window. -/
def pwrReg (b : Block) (off : Nat) : Nat :=
  match off with
  | 0x00 => pwrStatus b
  | 0x04 => fields [(b.pwr.cap, 0), (b.pwr.pref, 31)]
  | 0x08 => fields [(b.pwr.measured, 0), (if avsActive b then b.pwr.target else 0, 16)]
  | 0x0C => fields [(lanesOf b.run.variant, 0), (coresAdmitted b, 8), (lanesAdmitted b, 16)]
  | 0x10 => fields [(b.pwr.unitInst, 0), (b.pwr.unitSel, 16)]
  | 0x14 => unitStatusWord b
  | 0x18 => resetCause b
  | 0x1C => b.pwr.avsErrors
  | 0x20 => b.pwr.decisions
  | 0x80 => supplyStatus b
  | _ => 0

/-! ### LCS (R94, R97) -/

/-- LCS_STATE. -/
def lcsStateReg (b : Block) : Nat := fields [(b.run.lcs, 0), (b2n (bit (otpWord b 8) 26), 3)]

/-- Codes of sources as 3-bit entries, the first in bits [2:0]. -/
def packOrder (l : List Nat) : Nat := fields ((List.range l.length).map (fun i => (l.getD i 0, 3 * i)))

/-- The reserved bits of word `i` of a die identity (R97). -/
def identityResv (i : Nat) : Nat := if i = 1 then 0x00E00000 else if i = 2 then 0xFFFFFF00 else 0

/-- Word `i` of a die identity as its register shows it: reserved bits read 0 (R13). -/
def identityWord (i w : Nat) : Nat := w - (w &&& identityResv i)

/-- A register of the LCS window; fuses read as they stand now (R94). BOOT_SRC_ORDER shows the effective order, the default where the fuse is 0
and codes once each (R101), before the straps, which BOOT_SRC_EFFECTIVE also takes in (DEDUCED, assumption 14). -/
def lcsReg (b : Block) (off : Nat) : Nat :=
  let c := otpWord b 8
  match off with
  | 0x00 => lcsStateReg b
  | 0x04 => fields [(b2n b.otp.torn, 0), (b2n b.otp.wiped, 1), (b2n b.otp.mismatch, 2), (b2n (vaultBonded b), 3), (bits c 3 0, 4),
      (b2n (!allZero (otpBytes (otpWord b) 0x10 8) 0 32), 8), (b2n b.otp.nonce.isSome, 9)]
  | 0x40 => fields [(packOrder (effectiveList (bits c 15 4) 0 false), 0), (bits c 17 16, 13), (b2n (!bit c 18), 15), (bits c 21 19, 16),
      (if bits c 25 22 = 0 then 3 else bits c 25 22, 19)]
  | 0x44 => fields [(maskOf ((List.range 24).map (rootRevoked (otpWord b))), 0), (maskOf ((List.range 4).map (tokenRevoked (otpWord b))), 28)]
  | _ =>
    if 0x10 ≤ off ∧ off ≤ 0x18 then identityWord ((off - 0x10) / 4) (otpWord b (2 + (off - 0x10) / 4))
    else if 0x20 ≤ off ∧ off ≤ 0x28 then identityWord ((off - 0x20) / 4) (otpWord b (5 + (off - 0x20) / 4))
    else if 0x30 ≤ off ∧ off ≤ 0x38 then identityWord ((off - 0x30) / 4) (b.otp.vaultRd.getD ((off - 0x30) / 4) 0)
    else if 0x50 ≤ off ∧ off ≤ 0x6C then arbOf (otpWord b) ((off - 0x50) / 4)
    else 0

/-! ### BOOT (R124) -/

/-- BOOT_STATUS. -/
def bootStatus (b : Block) : Nat :=
  let o := b.boot
  fields [(o.source, 0), (o.slot, 4), (b2n o.fallback, 5), (b2n o.noTransport, 6), (b2n o.katFail, 7), (b2n o.recordHold, 8), (b2n o.persisted, 9),
    (b2n o.hostReleased, 10), (b2n o.bmcReleased, 11), (b2n o.filterArmed, 12), (b2n o.mfgKey, 13), (o.thawReason, 16)]

/-- ORDER of BOOT_SRC_EFFECTIVE. -/
def bootOrder (b : Block) : Nat := packOrder b.boot.order

/-- BOOT_CLASS_STATUSn. -/
def classStatus (c : ClassSt) : Nat :=
  fields [(c.outcome, 0), (b2n c.accepted, 4), (c.slot, 5), (b2n c.fallback, 6), (b2n c.required, 7), (c.version, 8), (c.keyEcdsa, 17),
    (c.keyMldsa, 20), (c.keyLms, 23), (b2n c.mfgKey, 26)]

/-- A register of the BOOT window. -/
def bootReg (b : Block) (off : Nat) : Nat :=
  match off with
  | 0x00 => bootStatus b
  | 0x04 => fields [(b2n b.boot.romLock, 0), (b2n b.boot.udsClosed, 1)]
  | 0x08 => fields [(bootOrder b, 0), (b.boot.order.length, 12)]
  | _ =>
    if 0x10 ≤ off ∧ off ≤ 0x1C then (walkLogs b).getD ((off - 0x10) / 4) 0
    else if 0x20 ≤ off ∧ off ≤ 0x3C then ((tget b.boot.classes ((off - 0x20) / 4)).map classStatus).getD 0
    else 0

/-! ### FLT (R154) -/

/-- A region rule as its 16 bytes (R130). -/
def ruleBytes (r : FlashRule) : Bytes :=
  lePut 4 r.base ++ lePut 4 r.size ++ lePut 2 r.rights ++ lePut 1 (flag r.valid 0 + flag r.verified 1 + flag r.append 2) ++ lePut 1 r.cls ++
    lePut 4 r.ledger

/-- A word of a port's rules. -/
def ruleWord (p : FlashPort) (off : Nat) : Nat :=
  match tget p.rules (off / 16) with
  | some r => leAt (ruleBytes r) (off % 16) 4
  | none => 0

/-- FLT_PORTn_STATUS. -/
def portStatus (p : FlashPort) : Nat :=
  let log (c : ChipSel) : Nat := match c with
    | .unseen => 0
    | .absent => 15
    | .found s => s.sizeLog
  let found := [p.cs0, p.cs1].filterMap (fun c => match c with
    | .found s => some s
    | _ => none)
  fields [(b2n (!found.isEmpty && found.all (·.suspend)), 3), (log p.cs0, 4), (log p.cs1, 8), (p.mode, 12)]

/-- A register of the FLT window. -/
def fltReg (b : Block) (off : Nat) : Nat :=
  let f := b.flt
  match off with
  | 0x000 => fields [(f.mode, 0), (b2n f.solstice, 3), (b2n f.policyImage, 4), (b2n f.policyRejected, 5), (f.dirPort, 6)]
  | 0x010 => portStatus f.fla
  | 0x014 => portStatus f.flb
  | 0x020 => f.fla.ledger.length
  | 0x024 => f.flb.ledger.length
  | 0x030 => f.suspectCount
  | 0x034 => f.refuseCount
  | 0x038 => f.lastEvent
  | 0x040 => f.fla.ptr
  | 0x044 => f.flb.ptr
  | 0x100 => f.mbxAddr
  | 0x104 => f.mbxLen
  | 0x108 => f.mbxCmd
  | 0x10C => fields [(f.mbxResult, 0), (b2n f.mbxBusy, 4), (b2n f.mbxOverrun, 5)]
  | _ =>
    if 0x1000 ≤ off ∧ off < 0x2000 then leNat ((List.range 4).map (fun i => tgetD 0 f.buffer (off - 0x1000 + i)))
    else if 0x2000 ≤ off ∧ off < 0x2400 then ruleWord f.fla (off - 0x2000)
    else if 0x2400 ≤ off ∧ off < 0x2800 then ruleWord f.flb (off - 0x2400)
    else if 0x2800 ≤ off ∧ off < 0x2C00 then tgetD 0 f.allow ((off - 0x2800) / 4)
    else 0

/-! ### KEY, VLT (R284, R303) -/

/-- The state of a key slot as KEY_SLOT_STATE shows it. -/
def slotCode (b : Block) (i : Nat) : Nat :=
  match slotState b i with
  | .empty => 0
  | .valid _ _ => 1
  | .corrupt => 2

/-- A register of the KEY window. -/
def keyReg (b : Block) (off : Nat) : Nat :=
  let k := b.key
  match off with
  | 0x00 => fields [(b2n k.deviceRoot.isSome, 0), (b2n (ownerKeys b), 1), (k.domState, 2), (b2n k.restarted, 4), (b2n k.imp.isSome, 5)]
  | 0x20 => fields [(k.member, 0), (k.epoch, 16)]
  | 0x24 => k.checkFails
  | 0x28 => k.commits
  | 0x2C => k.keks.length
  | _ => if 0x10 ≤ off ∧ off ≤ 0x1C then fields ((List.range 16).map (fun j => (slotCode b ((off - 0x10) / 4 * 16 + j), 2 * j))) else 0

/-- A claim waits for a slot (R295). -/
def placeWaits (b : Block) : Bool :=
  b.work.jobs.any (fun j => decide (j.stage = Stage.placeWait)) && decide (freeCount b = 0) && (lruVictim b).isNone

/-- A register of the VLT window. -/
def vltReg (b : Block) (off : Nat) : Nat :=
  let v := b.vlt
  let slots := v.slots.map (·.2)
  match off with
  | 0x00 => fields [(b2n v.ready, 0), (b2n (placeWaits b), 1), (b2n v.selfTest, 2), (b2n v.keysErased, 3), (b2n v.failed, 4),
      (loadsInFlight b, 16)]
  | 0x04 => v.reserve
  | 0x08 => slotsOf b.run.variant
  | 0x0C => slots.countP (fun s => decide (s.state = .resident ∨ s.state = .evicting))
  | 0x10 => slots.countP (fun s => s.pinned)
  | 0x14 => freeCount b
  | 0x18 => v.loads
  | 0x1C => v.idHits
  | 0x20 => v.evictions
  | 0x24 => v.blobFails
  | 0x28 => v.alarms
  | _ => 0

/-! ### DGE, PKE, RNG (R374) -/

/-- DGE_STATUS. -/
def dgeStatus (b : Block) : Nat :=
  let r := b.dge.rm
  fields [(b2n r.busy, 1), (b2n r.done, 2), (b2n r.early, 3), (b2n r.error, 4), (maskOf ((b.dge.pipes.drop 2).map (·.job.isSome)), 16)]

/-- A register of the DGE window; DGE_RM_RESULTn are not read here. -/
def dgeReg (b : Block) (off : Nat) : Nat :=
  match off with
  | 0x00 => dgeStatus b
  | 0x04 => fields [(b.dge.rm.alg, 0), (b.dge.rm.outLen, 8), (b.dge.rm.tail, 16)]
  | _ => 0

/-- The state of a public-key unit as PKE_STATUS shows it. -/
def pkCode : PkState → Nat
  | .idle => 0
  | .busy => 1
  | .selfTest => 2
  | .failed => 3

/-- A register of the PKE window. -/
def pkeReg (b : Block) (off : Nat) : Nat :=
  match off with
  | 0x00 => fields [(pkCode b.pke.mod.state, 0), (pkCode b.pke.lat.state, 4), (min 255 b.pke.mod.queue.length, 16), (min 255 b.pke.lat.queue.length, 24)]
  | 0x04 => b.pke.signs
  | 0x08 => b.pke.verifies
  | 0x0C => b.pke.alarms
  | _ => 0

/-- A register of the RNG window; RNG_RAW is not read here. -/
def rngReg (b : Block) (off : Nat) : Nat :=
  let r := b.rng
  let st := match r.state with
    | .startup => 0
    | .ready => 1
    | .selfTest => 2
    | .failed => 3
  match off with
  | 0x00 => fields [(st, 0), (b2n r.inst0, 4), (b2n r.inst1, 5), (b2n (decide (r.state = .failed)), 6)]
  | 0x04 => fields [(r.repFails, 0), (r.propFails, 16)]
  | 0x08 => r.reseeds
  | 0x0C => r.bytes % 2 ^ 32
  | 0x10 => r.bytesHi
  | _ => 0

/-! ### SCE, STE (R321, R349): absent on JT-H48B, where they read 0 (R5) -/

/-- The state of a core as SCE_CORE_STATUSn shows it. -/
def coreCode : CoreState → Nat
  | .off => 0
  | .selfTest => 1
  | .idle => 2
  | .busy => 3
  | .bound => 4
  | .failed => 5
  | .basic => 6

/-- The abandon timeout in force, in ms. -/
def abandonNow (b : Block) : Nat := max b.sce.abandonMs (ceilDiv b.sce.parkUs 1000)

/-- SCE_STATUS. -/
def sceStatus (b : Block) : Nat :=
  fields [(coresOf b.run.variant, 0), (b2n b.leg.core.isSome, 8), (b2n (b.sce.msgs.any (·.wantPark)), 9),
    (b2n ((b.sce.pending.take 1024).any (fun i => decide (pendingGate b i = .logWait))), 10),
    (b2n ((b.sce.pending.take 1024).any (fun i => decide (pendingGate b i = .stageWait))), 11), (coresAdmitted b, 16)]

/-- A register of the SCE window. -/
def sceReg (b : Block) (off : Nat) : Nat :=
  let s := b.sce
  if coresOf b.run.variant = 0 then 0
  else match off with
  | 0x00 => sceStatus b
  | 0x04 => s.fence % 2 ^ 32
  | 0x08 => s.fence / 2 ^ 32
  | 0x0C => s.parkUs
  | 0x10 => abandonNow b
  | 0x14 => holdLimitOf b.run.variant
  | 0x18 => stagingHeld b
  | 0x1C => s.msgs.length
  | 0x20 => parkedCount b
  | 0x24 => logUsed b
  | 0x28 => min 1024 s.pending.length
  | 0x2C => s.authFails
  | 0x30 => s.abandoned
  | 0x34 => s.parks
  | _ =>
    if 0x100 ≤ off ∧ off ≤ 0x1FC then
      let n := (off - 0x100) / 4
      match s.cores[n]? with
      | some c => fields [(b2n (bit s.fence n), 14), (b2n c.key.isSome, 15), (min 255 c.alarms, 16), (coreCode c.state, 28)]
      | none => 0
    else 0

/-- The state of a lane as STE_LANE_STATUSn shows it. -/
def laneCode : LaneState → Nat
  | .off => 0
  | .selfTest => 1
  | .idle => 2
  | .busy => 3
  | .failed => 4

/-- A register of the STE window. -/
def steReg (b : Block) (off : Nat) : Nat :=
  let s := b.ste
  if lanesOf b.run.variant = 0 then 0
  else match off with
  | 0x00 => fields [(lanesOf b.run.variant, 0), (maskOf (s.lanes.map (fun l => decide (l.state = .busy))), 8),
      (maskOf (s.lanes.map (fun l => decide (l.state = .failed))), 16), (maskOf (s.lanes.map (·.admitted)), 24)]
  | 0x04 => s.fence
  | 0x40 => min 512 s.pending.length
  | 0x44 => s.bytes % 2 ^ 32
  | 0x48 => s.bytesHi
  | 0x4C => s.descs
  | 0x50 => s.cts
  | _ =>
    if 0x10 ≤ off ∧ off ≤ 0x2C then
      let n := (off - 0x10) / 4
      match s.lanes[n]? with
      | some l => fields [(b2n (bit s.fence n), 14), (b2n (l.bank.isSome || l.spare.isSome), 15), (min 255 l.alarms, 16), (laneCode l.state, 28)]
      | none => 0
    else 0

/-! ### WDG (R435) -/

/-- Time of the present period that is over, in µs. -/
def wdgElapsed (b : Block) (isP : Bool) : Nat := b.time.usec - (wdgAt b isP).begun

/-- WDG_TIMER: both times in units of 10 ms, rounded up (DESIGN CHOICE, assumption 24); 0 while no period runs. -/
def wdgTimer (b : Block) (isP : Bool) : Nat :=
  let x := wdgAt b isP
  if wdgCounts b isP then
    let opens := wdgPeriod x * wdgFrac b / 8
    fields [(ceilDiv (wdgPeriod x - wdgElapsed b isP) 10000, 0), (if x.window then 0 else ceilDiv (opens - wdgElapsed b isP) 10000, 16)]
  else 0

/-- WDG_STATUS. -/
def wdgStatus (b : Block) (isP : Bool) : Nat :=
  let x := wdgAt b isP
  fields [(if x.armed then wdgSlots x - (wdgSlots x &&& x.done) else 0, 0), (b2n x.armed, 16), (b2n (wdgTrap b isP), 17), (b2n x.window, 18),
    (b2n x.hard.isSome, 19), (b2n (isP && x.boot), 20), (b2n (isP && wdgRecovery b), 21), (b2n b.wdg.healthy, 22),
    (b2n (!isP && b.wdg.countsLost), 23), (if isP then wdgRung b else wdgConsec b, 24), (x.verdict, 28)]

/-- A register of an instance. -/
def wdgInstReg (b : Block) (isP : Bool) (off : Nat) : Nat :=
  let x := wdgAt b isP
  match off with
  | 0x00 => x.cfg
  | 0x04 => if isP then x.hostCfg else 0
  | 0x0C => wdgStatus b isP
  | 0x10 => wdgLast b isP
  | 0x14 => x.dups
  | 0x18 => wdgResets b isP
  | 0x1C => wdgTimer b isP
  | _ => 0

/-- A register of the WDG window. -/
def wdgReg (b : Block) (off : Nat) : Nat :=
  if off < 0x100 then wdgInstReg b false off
  else if off < 0x200 then wdgInstReg b true (off - 0x100)
  else match off with
  | 0x200 => 900
  | 0x204 => 250
  | 0x208 => wdgWinters b
  | _ => 0

/-! ### EVR, TMP, MON (R415, R450, R500) -/

/-- EVR_STATUS. -/
def evrStatus (b : Block) : Nat :=
  fields [(b.evr.notice, 0), (b2n b.evr.solstice.isSome, 8), (b2n b.evr.countsLost, 9),
    (3 + b.evr.cells.countP (fun c => decide (3 ≤ c.1) && c.2.used), 10)]

/-- A register of the EVR window. -/
def evrReg (b : Block) (off : Nat) : Nat :=
  let e := b.evr
  match off with
  | 0x00 => evrStatus b
  | 0x04 => fields [(e.noticeSev, 0), (e.alertSev, 8)]
  | 0x30 => e.seq % 2 ^ 32
  | 0x34 => e.seqHi
  | 0x40 => e.sel
  | _ =>
    if 0x10 ≤ off ∧ off ≤ 0x2C then e.rates.getD ((off - 0x10) / 4) 0
    else if 0x1000 ≤ off ∧ off < 0x10C0 then leAt (cellBytes e.sel (evCell b e.sel)) (off - 0x1000) 4
    else 0

/-- TMP_STATUS. -/
def tmpStatus (b : Block) : Nat :=
  fields [(b2n (decide (2 ≤ b.run.lcs)), 0), (b2n b.tmp.latched, 1), (b2n (decide (3 ≤ b.run.lcs)), 2), (min 255 (alarmsInWindow b), 8),
    (b.tmp.frostCount, 16)]

/-- A register of the TMP window. -/
def tmpReg (b : Block) (off : Nat) : Nat :=
  match off with
  | 0x00 => tmpStatus b
  | 0x04 => b.tmp.cfg.toNat
  | 0x08 => b.tmp.cfgReq.toNat
  | 0x10 => tmpCause b
  | 0x14 => b.tmp.lastCause
  | 0x18 => b.tmp.frostTime % 2 ^ 32
  | 0x1C => b.tmp.frostTime / 2 ^ 32
  | 0x20 => b.tmp.inputs
  | _ => 0

/-- MON_STATUS. -/
def monStatus (b : Block) : Nat :=
  let mode := match b.mon.mode with
    | .autobaud => 0
    | .line => 1
    | .framed => 2
  fields [(b2n b.mon.running.isSome, 9), (mode, 10), (b.mon.owner, 12), (b2n (!romServes b && !b.boot.katFail), 14), (b2n b.mon.debugOpen, 15),
    (b.mon.baud, 20)]

/-- A register of the MON window. -/
def monReg (b : Block) (off : Nat) : Nat :=
  match off with
  | 0x00 => monStatus b
  | 0x04 => b.mon.framesOk
  | 0x08 => b.mon.framesBad
  | 0x0C => b.mon.refused
  | 0x10 => b.mon.unlocks
  | 0x14 => b.mon.failed
  | _ => 0

/-! ### The windows of R501 -/

/-- A register of a block window, whatever STATE is: what the host reads outside FROZEN (`pf0Reg`), and what the monitor shows. -/
def blockReg (b : Block) (off : Nat) : Nat :=
  let o := off % 0x10000
  match off / 0x10000 with
  | 0 => devReg b o
  | 1 => pwrReg b o
  | 2 => lcsReg b o
  | 3 => bootReg b o
  | 4 => fltReg b o
  | 5 => keyReg b o
  | 6 => vltReg b o
  | 7 => dgeReg b o
  | 8 => sceReg b o
  | 9 => steReg b o
  | 10 => pkeReg b o
  | 11 => rngReg b o
  | 12 => wdgReg b o
  | 13 => evrReg b o
  | 14 => tmpReg b o
  | 15 => monReg b o
  | _ => 0

/-- A read of a 64-bit counter's low half latches the high half (R321, R374, R450). -/
def latchHi (off : Nat) (b : Block) : Block :=
  if off = 0xD0030 then b.onEvr (fun e => { e with seqHi := e.seq / 2 ^ 32 })
  else if off = 0x90044 then b.onSte (fun s => { s with bytesHi := s.bytes / 2 ^ 32 })
  else if off = 0xB000C then b.onRng (fun r => { r with bytesHi := r.bytes / 2 ^ 32 })
  else b

/-! ### Queue pages (R234) and the VF status page (R190) -/

/-- Q_SQ_STATUS. -/
def sqStatus (b : Block) (n : Nat) : Nat :=
  let s := sqOf b n
  let st := match s.state with
    | .free => 0
    | .active => 1
    | .draining => 2
    | .disabled => 3
  fields [(st, 0), (b2n (decide (s.state = .disabled)), 3), (b2n s.error, 4), (b2n s.dbIgnored, 5), (b2n (fenceWait b n), 6), (b2n (creditWait b n), 7)]

/-- Q_CQ_STATUS. -/
def cqStatus (b : Block) (n : Nat) : Nat :=
  let c := cqOf b n
  if c.active then
    fields [(1, 0), (b2n (decide (c.size ≤ heldOf b n)), 3), (b2n c.headInvalid, 4), ((boundSqs b n).length, 16)]
  else fields [(b2n c.headInvalid, 4)]

/-- The set-up registers of PF0's page 0. -/
def adminReg (b : Block) (off : Nat) : Nat :=
  let a := b.q.admin
  match off with
  | 0x18 => a.sqBase % 2 ^ 32
  | 0x1C => a.sqBase / 2 ^ 32
  | 0x20 => a.cqBase % 2 ^ 32
  | 0x24 => a.cqBase / 2 ^ 32
  | 0x28 => a.shadow % 2 ^ 32
  | 0x2C => a.shadow / 2 ^ 32
  | 0x30 => a.cfg.toNat
  | 0x34 => fields [(b2n a.enable, 0), (b2n a.ready, 1), (b2n a.cfgError, 2)]
  | _ => 0

/-- A register of a queue page as a function sees it: 0 where no device queue number stands behind the page (R209, R505). -/
def pageReg (b : Block) (fn page off : Nat) : Nat :=
  match pageDqn b fn page with
  | none => 0
  | some n =>
    match off with
    | 0x08 => sqStatus b n
    | 0x0C => cqStatus b n
    | 0x10 => (sqOf b n).head.toNat
    | 0x14 => (cqOf b n).written.toNat
    | _ => if fn = 0 ∧ page = 0 then adminReg b off else 0

/-! ### The board-facing outputs (R46, R54, R58, R59, R398) -/

/-- An output of the sideband group. A name stands for each pin of its kind; `port` is 0 for FLA, 1 for FLB, `pair` 0 for mesh A, 1 for B. -/
inductive BoardPin where
  | flashReset (port : Nat) | flashSelect (port : Nat) | flashClock (port : Nat) | flashData (port : Nat)
  | spitData | spitAlert | sbLines | sbAlert | avs | monTx | hostReset | bmcReset | platCycle | jtagTdo
  | mesh (pair : Nat) | frostOut
  deriving DecidableEq, Repr

/-- The level that an output rests at: `bus` is a pin that its protocol drives, outside the transfers that the commands and `Out` show; `off` is a pin of
VDD_IO while that supply is not good, of which the spec says nothing. -/
inductive PinLevel where
  | low | high | hiZ | bus | off
  deriving DecidableEq, Repr

/-- An open-drain output: low when asserted. -/
def openDrain (asserted : Bool) : PinLevel := if asserted then .low else .hiZ

/-- A driven output of two levels. -/
def driven (up : Bool) : PinLevel := if up then .high else .low

/-- FLA_RESET_N and FLB_RESET_N: high from the start of the source walk on, low in FROZEN (R54, R58). -/
def flashResetHigh (b : Block) : Bool :=
  match b.run.state with
  | .reset | .frozen => false
  | .rom => !b.boot.order.isEmpty
  | _ => true

/-- The battery domain has a supply (R71). -/
def batteryAlive (b : Block) : Bool := b.sup.ana.good || decide (2400 ≤ b.sup.vbatMv)

/-- A pin of the VDD_IO domain while that supply is good. -/
def ioLevel (b : Block) (p : BoardPin) : PinLevel :=
  let inReset := decide (b.run.state = .reset)
  match p with
  | .flashReset _ => driven (flashResetHigh b)
  | .flashSelect _ => .high
  | .flashClock _ => .low
  | .flashData _ => .hiZ
  | .spitData => if inReset then .hiZ else .bus
  | .spitAlert => openDrain (b.pins.spitAlert && !inReset)
  | .sbLines => if inReset || b.pins.sbDisabled then .hiZ else .bus
  | .sbAlert => openDrain (b.pins.sbAlert && !inReset)
  | .avs => if inReset || !avsActive b then .hiZ else .bus
  | .monTx => if inReset then .hiZ else .high
  | .hostReset => driven (!inReset && !hostInReset b)
  | .bmcReset => driven (!inReset && b.pins.bmcHigh)
  | .platCycle => openDrain (b.pins.platCycle && !inReset)
  | .jtagTdo => if inReset || decide (2 ≤ b.run.lcs) || bit (otpShadow b 8) 26 then .hiZ else .bus
  | .mesh _ | .frostOut => .off

/-- The level of a board-facing output. Its pins of the battery domain do not depend on STATE or VDD_IO. -/
def outputLevel (b : Block) (p : BoardPin) : PinLevel :=
  match p with
  | .mesh i => if bit b.tmp.cfg.toNat i then .bus else .low
  | .frostOut => openDrain (b.tmp.latched && batteryAlive b)
  | p => if b.sup.io.good then ioLevel b p else .off

/-- Words of the VF status page (R190). -/
def vfStatus (b : Block) (fn off : Nat) : Nat :=
  match off with
  | 0x0 => fields [(stateCode b.run.state, 0), (b2n b.run.keysLocked, 4), (tdiCode (fnOf b fn).tdi, 5), (b2n (worldOf b fn), 7)]
  | 0x4 => (dqnsOf b fn).length
  | 0x8 => (fnOf b fn).resets
  | _ => 0

end Sys2Proof.Machine
end

