-- ==== Sys2Proof/Machine/Spdm.lean ====
section
/-! DEFINITION. The SPDM 1.3 responder over MCTP and DOE, and its secured sessions (R179 to R182, R195). Message layouts, transcripts and key
schedule are those of DMTF DSP0274 1.3 (PRESUMED, assumption 18). -/

namespace Sys2Proof

/-- The message comes over MCTP. -/
def SpdmVia.isMctp : SpdmVia → Bool
  | .mctp _ => true
  | _ => false

end Sys2Proof

namespace Sys2Proof.Machine

/-! ### Messages -/

/-- The version byte of SPDM 1.3. -/
def spdmVer : Byte := 0x13

/-- An SPDM header. -/
def spdmHead (code p1 p2 : Nat) : Bytes := spdmVer :: (lePut 1 code ++ lePut 1 p1 ++ lePut 1 p2)

/-- ERROR with a code and its data. -/
def spdmError (code data : Nat) : Bytes := spdmHead 0x7F code data

def errInvalid : Nat := 0x01
def errBusy : Nat := 0x03
def errUnexpected : Nat := 0x04
def errUnspecified : Nat := 0x05
def errDecrypt : Nat := 0x06
def errUnsupported : Nat := 0x07
def errVersion : Nat := 0x41
def errResynch : Nat := 0x43

/-- Request codes that the responder supports over MCTP (R179), and those that DOE adds (R195). -/
def spdmBase : List Nat := [0x84, 0xE1, 0xE3, 0x81, 0x82, 0x83, 0xE0]
def spdmMore : List Nat := [0xE4, 0xE5, 0xEC]

/-- The secured session of a number. -/
def spdmSession (b : Block) (sid : Nat) : Option SpdmSession := b.rcd.sessions.find? (fun x => x.sid == sid)

/-- The connection of a path; sessions belong to DOE's. -/
def connOf (b : Block) : SpdmVia → SpdmConn
  | .mctp _ => b.rcd.mctp
  | _ => b.rcd.doe

/-- Change the connection of a path. -/
def onConn (via : SpdmVia) (f : SpdmConn → SpdmConn) (b : Block) : Block :=
  b.onRcd (fun r => match via with
    | .mctp _ => { r with mctp := f r.mctp }
    | _ => { r with doe := f r.doe })

/-! ### Secured records (AES-256-GCM; DSP0277 over DOE: no sequence number on the wire, no random data; PRESUMED, assumption 18) -/

/-- The nonce of a record: the initialization vector with the record's number. -/
def secNonce (iv : Bytes) (seq : Nat) : Bytes := xorBytes iv (lePut 8 seq ++ zeros 4)

/-- A response as its record: session number, length, the encrypted message with its own length, tag. -/
def secSeal (s : SpdmSession) (body : Bytes) : Bytes :=
  let text := lePut 2 body.length ++ body
  let head := lePut 4 s.sid ++ lePut 2 (text.length + 16)
  let r := gcmSeal s.keys.rspKey (secNonce s.keys.rspIv s.rspSeq) head text
  head ++ r.1 ++ r.2

/-- The request inside a record, given without its session number, when its tag passes. -/
def secOpen (s : SpdmSession) (record : Bytes) : Option Bytes :=
  let n := leAt record 0 2
  if n < 18 ∨ record.length ≠ n + 2 then none
  else match gcmOpen s.keys.reqKey (secNonce s.keys.reqIv s.reqSeq) (lePut 4 s.sid ++ record.take 2) (slice record 2 (n - 16))
      (record.drop (n - 14)) with
    | some text => if leAt text 0 2 + 2 ≤ text.length then some (slice text 2 (leAt text 0 2)) else none
    | none => none

/-- Change a secured session. -/
def onSession (sid : Nat) (f : SpdmSession → SpdmSession) (b : Block) : Block :=
  b.onRcd (fun r => { r with sessions := r.sessions.map (fun x => if x.sid = sid then f x else x) })

/-- A response has been sealed: it is counted; keys handed over to take effect; a session that is over goes. -/
def sealed (sid : Nat) (b : Block) : Block :=
  let b := onSession sid (fun s => match s.next with
    | some k => { s with keys := k, reqSeq := 0, rspSeq := 0, next := none }
    | none => { s with rspSeq := s.rspSeq + 1 }) b
  b.onRcd (fun r => { r with sessions := r.sessions.filter (fun x => !(x.sid == sid && x.ending)) })

/-- A data object for the DOE mailbox: PCI-SIG, type, length in words, contents padded to whole words. -/
def doeObject (kind : Nat) (body : Bytes) : Bytes :=
  let w := ceilDiv body.length 4
  lePut 2 1 ++ lePut 2 kind ++ lePut 4 (w + 2) ++ body ++ zeros (4 * w - body.length)

/-- Present a data object in the DOE mailbox. -/
def doeSend (kind : Nat) (body : Bytes) (b : Block) : Block :=
  send (.doe kind body) (b.onLink (fun l => { l with cfg := { l.cfg with doeOut := doeObject kind body } }))

/-- Send a response on its path. -/
def spdmSend (via : SpdmVia) (body : Bytes) (b : Block) : Block :=
  match via with
  | .mctp _ => mctpSend 0x05 body b
  | .doe => doeSend 1 body b
  | .session sid => match spdmSession b sid with
    | some s => doeSend 2 (secSeal s body) (sealed sid b)
    | none => b

/-- The request that a message carries: in the clear as it is, in a session as its record opens. -/
def spdmOpen (b : Block) (via : SpdmVia) (wire : Bytes) : Option Bytes :=
  match via with
  | .session sid => (spdmSession b sid).bind (fun s => secOpen s wire)
  | _ => some wire

/-- A record has been opened and counts. -/
def tookRecord (via : SpdmVia) (b : Block) : Block :=
  match via with
  | .session sid => onSession sid (fun s => { s with reqSeq := s.reqSeq + 1 }) b
  | _ => b

/-- The path delivers requests: the sideband port, the link, an open session. -/
def spdmPath (b : Block) : SpdmVia → Bool
  | .mctp target => mctpTo b target && !b.boot.katFail
  | .doe => decide (b.link.phase = .active)
  | .session sid => decide (b.link.phase = .active) && (spdmSession b sid).isSome

/-- The responder runs: with the keeper, not in WINTER (R430). -/
def spdmRuns (b : Block) : Bool := keeperRuns b && b.run.state != .winter

/-- Answer a request that has come in on a path. In FROZEN every request gets Unspecified (R182); the next one after a mid-boot record gets
RequestResynch (R181). -/
def spdmAnswer (via : SpdmVia) (versionOk : Bool) (f : Block → Bytes × Block) (b : Block) : Block :=
  let b := tookRecord via b
  if b.run.state = .frozen then spdmSend via (spdmError errUnspecified 0) b
  else if spdmRuns b = false then b
  else if (connOf b via).resynch then spdmSend via (spdmError errResynch 0) (onConn via (fun _ => SpdmConn.reset) b)
  else if versionOk = false then spdmSend via (spdmError errVersion 0) b
  else
    let r := f b
    spdmSend via r.1 r.2

/-- Judge a request of the code `code` and answer it with what `f` gives; a message of another code is no request of this row. -/
def spdmRun (code : Nat) (via : SpdmVia) (wire : Bytes) (f : Bytes → Block → Bytes × Block) (b : Block) : Block :=
  if spdmPath b via = false then b
  else match spdmOpen b via wire with
    | none => b
    | some req =>
      if req.length < 4 ∨ leAt req 1 1 ≠ code then b
      else spdmAnswer via (leAt req 0 1 == if code = 0x84 then 0x10 else 0x13) (f req) b

/-- In the clear. -/
def inClear : SpdmVia → Bool
  | .session _ => false
  | _ => true

/-- The session of a path has ended its handshake. -/
def sessionUp (b : Block) : SpdmVia → Bool
  | .session sid => (spdmSession b sid).any (·.up)
  | _ => false

/-- A request after the algorithms are agreed, in the clear or in a session that is up. -/
def spdmReady (b : Block) (via : SpdmVia) : Bool :=
  decide ((connOf b via).phase = .ready) && (inClear via || sessionUp b via)

/-! ### Connection (R179) -/

/-- GET_VERSION: the connection starts anew; over DOE its sessions end. -/
def spdmVersion (via : SpdmVia) (req : Bytes) (b : Block) : Bytes × Block :=
  if inClear via = false then (spdmError errUnexpected 0, b)
  else
    let rsp : Bytes := [0x10, 0x04, 0, 0, 0, 1, 0x00, 0x13]
    let b := onConn via (fun _ => { SpdmConn.reset with phase := .version, msgA := req ++ rsp }) b
    (rsp, if via.isMctp then b else b.onRcd (fun r => { r with sessions := [] }))

/-- The capability flags: CERT, CHAL, MEAS with signature; over DOE also ENCRYPT, MAC and KEY_EX. -/
def spdmFlags (via : SpdmVia) : Nat := 0x16 + if via.isMctp then 0 else 0x2C0

/-- GET_CAPABILITIES; CTExponent is left open. -/
def spdmCapabilities (via : SpdmVia) (req : Bytes) (b : Block) : Bytes × Block :=
  if inClear via = false ∨ (connOf b via).phase ≠ .version then (spdmError errUnexpected 0, b)
  else if req.length < 20 ∨ leAt req 12 4 < 42 ∨ leAt req 16 4 < leAt req 12 4 then (spdmError errInvalid 0, b)
  else
    let rsp := spdmHead 0x61 0 0 ++ [0, Config.ctExponent, 0, 0] ++ lePut 4 (spdmFlags via) ++ lePut 4 4096 ++ lePut 4 4096
    (rsp, onConn via (fun c => { c with phase := .capabilities, msgA := c.msgA ++ req ++ rsp }) b)

/-- One algorithm structure of a request, answered: P-384, AES-256-GCM, no requester signature, the SPDM key schedule; nothing over MCTP. -/
def algStruct (via : SpdmVia) (s : Bytes) : Bytes :=
  let ours := if via.isMctp then 0 else match leAt s 0 1 with
    | 2 => 0x10
    | 3 => 0x02
    | 5 => 0x01
    | _ => 0
  s.take 1 ++ [0x20] ++ lePut 2 (leAt s 2 2 &&& ours)

/-- The algorithm structures of a request, each without its external algorithms. -/
def algStructs : Nat → Bytes → List Bytes
  | 0, _ => []
  | n + 1, s => if s.length < 4 then [] else s.take 4 :: algStructs n (s.drop (4 + 4 * (leAt s 1 1 % 16)))

/-- NEGOTIATE_ALGORITHMS. -/
def spdmAlgorithms (via : SpdmVia) (req : Bytes) (b : Block) : Bytes × Block :=
  let n := leAt req 2 1
  let structs := algStructs n (req.drop (32 + 4 * (leAt req 28 1 + leAt req 29 1)))
  if inClear via = false ∨ (connOf b via).phase ≠ .capabilities then (spdmError errUnexpected 0, b)
  else if req.length < 32 ∨ leAt req 4 2 ≠ req.length ∨ structs.length ≠ n then (spdmError errInvalid 0, b)
  else
    let body := lePut 1 (leAt req 6 1 &&& 1) ++ lePut 1 (leAt req 7 1 &&& 2) ++ lePut 4 4 ++ lePut 4 (leAt req 8 4 &&& 0x80) ++
      lePut 4 (leAt req 12 4 &&& 0x2) ++ zeros 16 ++ (structs.map (algStruct via)).flatten
    let rsp := spdmHead 0x63 n 0 ++ lePut 2 (6 + body.length) ++ body
    (rsp, onConn via (fun c => { c with phase := .ready, msgA := c.msgA ++ req ++ rsp }) b)

/-! ### Certificates (R159, R179) -/

/-- The certificate chain of slot 0: length, the hash of the root certificate, the ECDSA chain. -/
def spdmChain (b : Block) : Bytes :=
  let certs := certChain b true
  let root := ((chainLinks b.run.lcs).head?.map (fun l => certificate b true l.1 l.2)).getD []
  lePut 2 (52 + certs.length) ++ zeros 2 ++ sha384 root ++ certs

/-- Add an exchange to the transcript of certificates; the measurement log ends. In a session nothing is added. -/
def noteB (via : SpdmVia) (req rsp : Bytes) (b : Block) : Block :=
  if inClear via then onConn via (fun c => { c with msgB := c.msgB ++ req ++ rsp, msgL := [] }) b else onConn via (fun c => { c with msgL := [] }) b

/-- GET_DIGESTS. -/
def spdmDigests (via : SpdmVia) (req : Bytes) (b : Block) : Bytes × Block :=
  if spdmReady b via = false then (spdmError errUnexpected 0, b)
  else
    let rsp := spdmHead 0x01 1 1 ++ sha384 (spdmChain b)
    (rsp, noteB via req rsp b)

/-- GET_CERTIFICATE of slot 0: a portion that fits 4,096 bytes, or the chain's length. -/
def spdmCertificate (via : SpdmVia) (req : Bytes) (b : Block) : Bytes × Block :=
  let chain := spdmChain b
  let off := leAt req 4 2
  if spdmReady b via = false then (spdmError errUnexpected 0, b)
  else if req.length < 8 ∨ leAt req 2 1 % 16 ≠ 0 ∨ chain.length ≤ off then (spdmError errInvalid 0, b)
  else
    let n := if bit (leAt req 3 1) 0 then 0 else min (leAt req 6 2) (min (chain.length - off) 4088)
    let rest := if bit (leAt req 3 1) 0 then chain.length else chain.length - off - n
    let rsp := spdmHead 0x02 0 0 ++ lePut 2 n ++ lePut 2 rest ++ (chain.drop off).take n
    (rsp, noteB via req rsp b)

/-! ### Signatures and measurements (R180) -/

/-- What is signed over a transcript: the version prefix, the padded context, the transcript's hash. -/
def spdmToSign (context : String) (transcript : Bytes) : Bytes :=
  let c := ascii context
  (List.replicate 4 (ascii "dmtf-spdm-v1.3.*")).flatten ++ zeros (36 - c.length) ++ c ++ sha384 transcript

/-- A signature by the Alias ECDSA key; deterministic while the random source is FAILED (R372). -/
def spdmSign (context : String) (transcript : Bytes) (b : Block) : Bytes × Block :=
  let r := if b.rng.state = .failed then ([], event 0x2C2 0 b) else draw1 56 b
  (pkSign 0x02 (cdiEc (aliasCdi b)) false 0x02 [] (spdmToSign context transcript) r.1, countSign r.2)

/-- A measurement block in DMTF digest form. -/
def measureBlock (index kind : Nat) (value : Bytes) : Bytes :=
  lePut 1 index ++ [0x01] ++ lePut 2 (3 + value.length) ++ lePut 1 kind ++ lePut 2 value.length ++ value

/-- The measurement blocks of the newest record, by index; a class that was not accepted has none. -/
def measureBlocks (b : Block) : List (Nat × Bytes) :=
  let ofClass (c : Nat) : List (Nat × Bytes) :=
    match b.boot.measures.find? (fun m => m.cls == c && !m.header.isEmpty) with
    | some m => [(2 + c, measureBlock (2 + c) 1 (sha384 m.header))]
    | none => []
  let record := match newestRecord b with
    | some r => [(10, measureBlock 10 3 (sha384 (frRecord r.frame)))]
    | none => []
  (1, measureBlock 1 0 romDigest) :: (List.range 8).flatMap ofClass ++ record

/-- A measurement summary hash: none, or over every block. -/
def measureSummary (b : Block) (kind : Nat) : Bytes := if kind = 0 then [] else sha384 ((measureBlocks b).flatMap (·.2))

/-- A measurement summary type. -/
def summaryKind (n : Nat) : Bool := n == 0 || n == 1 || n == 255

/-- CHALLENGE (R181: Busy before the first record). -/
def spdmChallenge (via : SpdmVia) (req : Bytes) (b : Block) : Bytes × Block :=
  let c := connOf b via
  if inClear via = false ∨ c.phase ≠ .ready then (spdmError errUnexpected 0, b)
  else if req.length < 44 ∨ leAt req 2 1 ≠ 0 ∨ summaryKind (leAt req 3 1) = false then (spdmError errInvalid 0, b)
  else if (newestRecord b).isNone then (spdmError errBusy 0, b)
  else if hybridDead b ≠ none ∨ b.rng.state = .failed then (spdmError errUnspecified 0, b)
  else
    let (nonce, b) := draw1 32 b
    let front := spdmHead 0x03 0 1 ++ sha384 (spdmChain b) ++ nonce ++ measureSummary b (leAt req 3 1) ++ zeros 2 ++ slice req 36 8
    let (sig, b) := spdmSign "responder-challenge_auth signing" (c.msgA ++ c.msgB ++ req ++ front) b
    (front ++ sig, onConn via (fun c => { c with msgB := [], msgL := [] }) b)

/-- GET_MEASUREMENTS: the number of blocks, one block, or all; signed over the log when asked (R180, R181). -/
def spdmMeasurements (via : SpdmVia) (req : Bytes) (b : Block) : Bytes × Block :=
  let c := connOf b via
  let signed := bit (leAt req 2 1) 0
  let op := leAt req 3 1
  let blocks := measureBlocks b
  let chosen := if op = 0 then [] else if op = 255 then blocks else blocks.filter (fun x => x.1 == op)
  if spdmReady b via = false then (spdmError errUnexpected 0, b)
  else if req.length < (if signed then 45 else 12) ∨ (signed = true ∧ leAt req 36 1 % 16 ≠ 0) then (spdmError errInvalid 0, b)
  else if (newestRecord b).isNone then (spdmError errBusy 0, b)
  else if op ≠ 0 ∧ chosen = [] then (spdmError errInvalid 0, b)
  else if (signed = true ∧ hybridDead b ≠ none) ∨ b.rng.state = .failed then (spdmError errUnspecified 0, b)
  else
    let (nonce, b) := draw1 32 b
    let record := chosen.flatMap (·.2)
    let ctx := if signed then slice req 37 8 else slice req 4 8
    let front := spdmHead 0x60 (if op = 0 then blocks.length else 0) 0 ++ lePut 1 chosen.length ++ lePut 3 record.length ++ record ++ nonce ++
      zeros 2 ++ ctx
    if signed then
      let (sig, b) := spdmSign "responder-measurements signing" (c.msgA ++ c.msgL ++ req ++ front) b
      (front ++ sig, onConn via (fun c => { c with msgL := [] }) b)
    else (front, onConn via (fun c => { c with msgL := c.msgL ++ req ++ front }) b)

/-! ### Secured sessions (R195) -/

/-- HMAC-SHA-384. -/
def mac384 (key m : Bytes) : Bytes := hmac 0x12 key m

/-- HKDF-Expand to `n` bytes, at most one block, for an SPDM label and context. -/
def spdmExpand (n : Nat) (secret : Bytes) (label : String) (context : Bytes) : Bytes :=
  (mac384 secret (lePut 2 n ++ ascii "spdm1.3 " ++ ascii label ++ context ++ [0x01])).take n

/-- Keys and initialization vectors of both directions from a secret and a transcript hash. -/
def secKeys (secret th : Bytes) (req rsp : String) : SecKeys :=
  let q := spdmExpand 48 secret req th
  let r := spdmExpand 48 secret rsp th
  { reqKey := spdmExpand 32 q "key" [], reqIv := spdmExpand 12 q "iv" [], rspKey := spdmExpand 32 r "key" [], rspIv := spdmExpand 12 r "iv" [] }

/-- The keys of application data, from the handshake secret and the transcript up to FINISH_RSP. -/
def dataKeys (secret trans : Bytes) : SecKeys :=
  secKeys (mac384 (spdmExpand 48 secret "derived" []) (zeros 48)) (sha384 trans) "req app data" "rsp app data"

/-- The value that proves knowledge of a handshake secret over a transcript. -/
def verifyData (secret : Bytes) (direction : String) (th1 transcript : Bytes) : Bytes :=
  mac384 (spdmExpand 48 (spdmExpand 48 secret direction th1) "finished" []) (sha384 transcript)

/-- The opaque data of the response: the secured message version, when the request has opaque data. -/
def exchangeOpaque (n : Nat) : Bytes :=
  if n = 0 then zeros 2 else lePut 2 12 ++ [1, 0, 0, 0, 0, 0, 4, 0, 1, 0, 0x00, 0x11]

/-- KEY_EXCHANGE: P-384, the Alias key signs; at most four sessions. -/
def spdmExchange (via : SpdmVia) (req : Bytes) (b : Block) : Bytes × Block :=
  let c := connOf b via
  let peer := 0x04 :: slice req 40 96
  let opaqueLen := leAt req 136 2
  if via ≠ .doe ∨ c.phase ≠ .ready then (spdmError errUnexpected 0, b)
  else if req.length < 138 + opaqueLen ∨ leAt req 3 1 ≠ 0 ∨ summaryKind (leAt req 2 1) = false ∨ pkValid 0x02 peer = false then
    (spdmError errInvalid 0, b)
  else if 4 ≤ b.rcd.sessions.length then (spdmError errBusy 0, b)
  else if hybridDead b ≠ none ∨ b.rng.state = .failed then (spdmError errUnspecified 0, b)
  else
    let (seed, b) := draw1 56 b
    let (random, b) := draw1 32 b
    let priv := pkPriv 0x02 seed
    let shared := pkAgree 0x02 priv peer
    let rspId := b.rcd.nextSid % 65536
    let front := spdmHead 0x64 0 0 ++ lePut 2 rspId ++ zeros 2 ++ random ++ (pkPublic 0x02 priv).drop 1 ++
      measureSummary b (leAt req 2 1) ++ exchangeOpaque opaqueLen
    let trans := c.msgA ++ sha384 (spdmChain b) ++ req ++ front
    let (sig, b) := spdmSign "responder-key_exchange_rsp signing" trans b
    let secret := mac384 (zeros 48) shared
    let th1 := sha384 (trans ++ sig)
    let proof := verifyData secret "rsp hs data" th1 (trans ++ sig)
    let sid := leAt req 4 2 + 65536 * rspId
    let s : SpdmSession :=
      { sid := sid, up := false, ending := false, secret := secret ++ th1, trans := trans ++ sig ++ proof
        keys := secKeys secret th1 "req hs data" "rsp hs data", reqSeq := 0, rspSeq := 0, next := none }
    (front ++ sig ++ proof, b.onRcd (fun r => { r with
      sessions := r.sessions ++ [s], nextSid := if r.nextSid = 0xFFFF then 1 else r.nextSid + 1, doe := { r.doe with msgL := [] } }))

/-- A session ends once its response has gone. -/
def endSpdmSession (sid : Nat) (b : Block) : Block := onSession sid (fun s => { s with ending := true }) b

/-- FINISH, inside its session: a wrong proof ends the session. -/
def spdmFinish (via : SpdmVia) (req : Bytes) (b : Block) : Bytes × Block :=
  match via with
  | .session sid => match spdmSession b sid with
    | some s =>
      if s.up then (spdmError errUnexpected 0, b)
      else if req.length ≠ 52 ∨ leAt req 2 1 ≠ 0 then (spdmError errInvalid 0, b)
      else if slice req 4 48 ≠ verifyData (s.secret.take 48) "req hs data" (s.secret.drop 48) (s.trans ++ req.take 4) then
        (spdmError errDecrypt 0, endSpdmSession sid b)
      else
        let rsp := spdmHead 0x65 0 0
        (rsp, onSession sid (fun s => { s with up := true, next := some (dataKeys (s.secret.take 48) (s.trans ++ req ++ rsp)) }) b)
    | none => (spdmError errUnexpected 0, b)
  | _ => (spdmError errUnexpected 0, b)

/-- END_SESSION. -/
def spdmEnd (via : SpdmVia) (b : Block) : Bytes × Block :=
  match via with
  | .session sid => if sessionUp b via then (spdmHead 0x6C 0 0, endSpdmSession sid b) else (spdmError errUnexpected 0, b)
  | _ => (spdmError errUnexpected 0, b)

/-! ### The rows -/

/-- What answers a request code that the responder supports. -/
def spdmHandler (code : Nat) : Option (SpdmVia → Bytes → Block → Bytes × Block) :=
  match code with
  | 0x84 => some spdmVersion
  | 0xE1 => some spdmCapabilities
  | 0xE3 => some spdmAlgorithms
  | 0x81 => some spdmDigests
  | 0x82 => some spdmCertificate
  | 0x83 => some spdmChallenge
  | 0xE0 => some spdmMeasurements
  | 0xE4 => some spdmExchange
  | 0xE5 => some spdmFinish
  | 0xEC => some (fun via _ b => spdmEnd via b)
  | _ => none

/-- The path supports a request code: DOE adds KEY_EXCHANGE, FINISH and END_SESSION (R195). -/
def spdmKnows (via : SpdmVia) (code : Nat) : Bool := (if via.isMctp then spdmBase else spdmBase ++ spdmMore).contains code

/-- A request of a supported code; over a path that does not support it SPDM_UNSUPPORTED_REQUEST answers it. -/
def spdmTake (code : Nat) (via : SpdmVia) (wire : Bytes) (b : Block) : Block :=
  match spdmHandler code with
  | some f => if spdmKnows via code then spdmRun code via wire (f via) b else b
  | none => b

/-- GET_VERSION (R179). -/
def execGetVersion (via : SpdmVia) (req : Bytes) (s : State) : Host.Outcome State Fault Refusal := .next { s with blk := spdmTake 0x84 via req s.blk }
/-- GET_CAPABILITIES (R179). -/
def execGetCapabilities (via : SpdmVia) (req : Bytes) (s : State) : Host.Outcome State Fault Refusal := .next { s with blk := spdmTake 0xE1 via req s.blk }
/-- NEGOTIATE_ALGORITHMS (R179). -/
def execNegotiateAlgorithms (via : SpdmVia) (req : Bytes) (s : State) : Host.Outcome State Fault Refusal :=
  .next { s with blk := spdmTake 0xE3 via req s.blk }
/-- GET_DIGESTS (R179). -/
def execGetDigests (via : SpdmVia) (req : Bytes) (s : State) : Host.Outcome State Fault Refusal := .next { s with blk := spdmTake 0x81 via req s.blk }
/-- GET_CERTIFICATE (R179). -/
def execGetCertificate (via : SpdmVia) (req : Bytes) (s : State) : Host.Outcome State Fault Refusal := .next { s with blk := spdmTake 0x82 via req s.blk }
/-- CHALLENGE (R179, R181). -/
def execChallenge (via : SpdmVia) (req : Bytes) (s : State) : Host.Outcome State Fault Refusal := .next { s with blk := spdmTake 0x83 via req s.blk }
/-- GET_MEASUREMENTS (R180, R181). -/
def execGetMeasurements (via : SpdmVia) (req : Bytes) (s : State) : Host.Outcome State Fault Refusal :=
  .next { s with blk := spdmTake 0xE0 via req s.blk }
/-- KEY_EXCHANGE (R195). -/
def execKeyExchange (via : SpdmVia) (req : Bytes) (s : State) : Host.Outcome State Fault Refusal := .next { s with blk := spdmTake 0xE4 via req s.blk }
/-- FINISH (R195). -/
def execFinish (via : SpdmVia) (req : Bytes) (s : State) : Host.Outcome State Fault Refusal := .next { s with blk := spdmTake 0xE5 via req s.blk }
/-- END_SESSION (R195). -/
def execEndSession (via : SpdmVia) (req : Bytes) (s : State) : Host.Outcome State Fault Refusal := .next { s with blk := spdmTake 0xEC via req s.blk }

end Sys2Proof.Machine
end

