-- ==== Sys2Proof/Machine/Tdisp.lean ====
section
/-! DEFINITION. TDISP requests inside a secured session (R195 to R197). Message layouts are those of TDISP 1.0 (PRESUMED, assumption 18). -/

namespace Sys2Proof.Machine

/-! ### Messages -/

/-- A TDISP header of a response to a request: version, type, the request's interface identifier. -/
def tdispHead (kind : Nat) (req : Bytes) : Bytes := [0x10] ++ lePut 1 kind ++ zeros 2 ++ slice req 4 12

/-- The TDISP message that an SPDM request carries: a vendor-defined request of PCI-SIG with protocol 1. -/
def tdispOf (req : Bytes) : Option Bytes :=
  if 12 ≤ req.length ∧ slice req 0 2 = [0x13, 0xFE] ∧ slice req 4 5 = [3, 0, 2, 1, 0] ∧ req.getD 11 0 = 1 ∧ leAt req 9 2 + 11 ≤ req.length then
    some (slice req 12 (leAt req 9 2 - 1))
  else none

/-- A TDISP response as a vendor-defined SPDM response. -/
def tdispWrap (m : Bytes) : Bytes := spdmHead 0x7E 0 0 ++ [3, 0, 2, 1, 0] ++ lePut 2 (1 + m.length) ++ [1] ++ m

/-- TDISP_ERROR. -/
def tdispError (code : Nat) (req : Bytes) : Bytes := tdispHead 0x7F req ++ lePut 4 code ++ zeros 4

def tdInvalidRequest : Nat := 0x0001
def tdInvalidState : Nat := 0x0004
def tdUnsupported : Nat := 0x0007
def tdVersion : Nat := 0x0041
def tdInvalidInterface : Nat := 0x0101
def tdInvalidNonce : Nat := 0x0102
def tdInvalidConfig : Nat := 0x0104

/-- The function of an interface identifier: the routing ID's offset from PF0 under ARI (R187). -/
def tdispFn (req : Bytes) : Nat := leAt req 4 1

/-- Judge a TDISP message `m` of a supported type: a wrong version, or an interface that is no enabled VF and so has no TDI (R196), gets an error;
otherwise `f` gives the response and what it does to the VF. -/
def tdispJudge (m : Bytes) (f : Bytes → Nat → Block → Bytes × Block) (b : Block) : Bytes × Block :=
  let r :=
    if leAt m 0 1 / 16 ≠ 1 then (tdispError tdVersion m, b)
    else if vfEnabled b (tdispFn m) = false then (tdispError tdInvalidInterface m, b)
    else f m (tdispFn m) b
  (tdispWrap r.1, r.2)

/-- Run a TDISP request of type `kind`, carried by a record of a session that is up. A message of another type is no request of this row. -/
def tdispRun (kind sid : Nat) (record : Bytes) (f : Bytes → Nat → Block → Bytes × Block) (b : Block) : Block :=
  let via : SpdmVia := .session sid
  if spdmPath b via = false ∨ sessionUp b via = false then b
  else match (spdmOpen b via record).bind tdispOf with
    | none => b
    | some m => if m.length < 16 ∨ leAt m 1 1 ≠ kind then b else spdmAnswer via true (tdispJudge m f) b

/-- Answer with an error. -/
def tdispBad (code : Nat) (req : Bytes) (b : Block) : Bytes × Block := (tdispError code req, b)

/-! ### The requests (R195, R196) -/

/-- GET_TDISP_VERSION: 1.0. -/
def tdispVersion (req : Bytes) (_ : Nat) (b : Block) : Bytes × Block := (tdispHead 0x01 req ++ [1, 0x10], b)

/-- GET_TDISP_CAPABILITIES: the seven requests, no lock flag; the address width is left open. -/
def tdispCapabilities (req : Bytes) (_ : Nat) (b : Block) : Bytes × Block :=
  if req.length < 20 then tdispBad tdInvalidRequest req b
  else (tdispHead 0x02 req ++ zeros 4 ++ lePut 16 0xFE ++ zeros 2 ++ zeros 3 ++ [Config.devAddrWidth, 1, 1], b)

/-- LOCK_INTERFACE_REQUEST: an unlocked VF with Bus Master Enable set is locked and gets a nonce; no flag and no peer-to-peer binding. -/
def tdispLock (req : Bytes) (v : Nat) (b : Block) : Bytes × Block :=
  if req.length < 36 ∨ leAt req 16 2 ≠ 0 then tdispBad tdInvalidRequest req b
  else if (fnOf b v).tdi ≠ .configUnlocked then tdispBad tdInvalidState req b
  else if (fnOf b v).bme = false then tdispBad tdInvalidConfig req b
  else
    let (nonce, b) := draw1 32 b
    let b := onFn b v (fun f => { f with tdi := .configLocked })
    (tdispHead 0x03 req ++ nonce, b.onRcd (fun r => { r with nonces := tset r.nonces v (nonce ++ slice req 20 8) }))

/-- A memory range of the interface report: its first 4 KiB page, its pages, its attributes (bit 0 MSI-X table, bit 1 PBA, bit 2 not owned by
the TEE). -/
def reportRange (base off len attr : Nat) : Bytes := lePut 8 ((base + off) % 2 ^ 64 / 4096) ++ lePut 4 (ceilDiv len 4096) ++ lePut 4 attr

/-- The interface report of a VF: no IDE stream; doorbells and status page owned by the TEE, MSI-X table and PBA not. -/
def interfaceReport (b : Block) (v : Nat) : Bytes :=
  let base := b.link.vfBar + (v - 1) * 0x100000 + leAt ((tget b.rcd.nonces v).getD []) 32 8
  let f := fnOf b v
  zeros 2 ++ zeros 2 ++ lePut 2 (fields [(2047, 0), (b2n f.funcMask, 14), (b2n f.msixEnable, 15)]) ++ zeros 2 ++ zeros 4 ++ lePut 4 4 ++
    reportRange base 0x00000 0x80000 0 ++ reportRange base 0x80000 0x8000 5 ++ reportRange base 0x88000 0x100 6 ++
    reportRange base 0x90000 0x1000 0 ++ lePut 4 0

/-- GET_DEVICE_INTERFACE_REPORT: a portion of the report of a TDI that is locked or runs. -/
def tdispReport (req : Bytes) (v : Nat) (b : Block) : Bytes × Block :=
  let rep := interfaceReport b v
  let off := leAt req 16 2
  if req.length < 20 ∨ rep.length ≤ off then tdispBad tdInvalidRequest req b
  else if (fnOf b v).tdi ≠ .configLocked ∧ (fnOf b v).tdi ≠ .run then tdispBad tdInvalidState req b
  else
    let n := min (leAt req 18 2) (rep.length - off)
    (tdispHead 0x04 req ++ lePut 2 n ++ lePut 2 (rep.length - off - n) ++ (rep.drop off).take n, b)

/-- GET_DEVICE_INTERFACE_STATE. -/
def tdispState (req : Bytes) (v : Nat) (b : Block) : Bytes × Block := (tdispHead 0x05 req ++ lePut 1 (tdiCode (fnOf b v).tdi), b)

/-- START_INTERFACE_REQUEST: a locked TDI runs, when the nonce is its own. -/
def tdispStart (req : Bytes) (v : Nat) (b : Block) : Bytes × Block :=
  if req.length < 48 then tdispBad tdInvalidRequest req b
  else if (fnOf b v).tdi ≠ .configLocked then tdispBad tdInvalidState req b
  else if (tget b.rcd.nonces v).map (·.take 32) ≠ some (slice req 16 32) then tdispBad tdInvalidNonce req b
  else (tdispHead 0x06 req, onFn b v (fun f => { f with tdi := .run }))

/-- STOP_INTERFACE_REQUEST: the queues of a TDI that is not unlocked end. -/
def tdispStop (req : Bytes) (v : Nat) (b : Block) : Bytes × Block :=
  if (fnOf b v).tdi = .configUnlocked then (tdispHead 0x07 req, b)
  else (tdispHead 0x07 req, settleAll (tdiUnlock v (endQueues (fun f => f == v) b)))

/-- GET_TDISP_VERSION (R195). -/
def execGetTdispVersion (sid : Nat) (record : Bytes) (s : State) : Host.Outcome State Fault Refusal :=
  .next { s with blk := tdispRun 0x81 sid record tdispVersion s.blk }

/-- GET_TDISP_CAPABILITIES (R195). -/
def execGetTdispCapabilities (sid : Nat) (record : Bytes) (s : State) : Host.Outcome State Fault Refusal :=
  .next { s with blk := tdispRun 0x82 sid record tdispCapabilities s.blk }

/-- LOCK_INTERFACE_REQUEST (R196). -/
def execLockInterfaceRequest (sid : Nat) (record : Bytes) (s : State) : Host.Outcome State Fault Refusal :=
  .next { s with blk := tdispRun 0x83 sid record tdispLock s.blk }

/-- GET_DEVICE_INTERFACE_REPORT (R195). -/
def execGetDeviceInterfaceReport (sid : Nat) (record : Bytes) (s : State) : Host.Outcome State Fault Refusal :=
  .next { s with blk := tdispRun 0x84 sid record tdispReport s.blk }

/-- GET_DEVICE_INTERFACE_STATE (R195). -/
def execGetDeviceInterfaceState (sid : Nat) (record : Bytes) (s : State) : Host.Outcome State Fault Refusal :=
  .next { s with blk := tdispRun 0x85 sid record tdispState s.blk }

/-- START_INTERFACE_REQUEST (R196). -/
def execStartInterfaceRequest (sid : Nat) (record : Bytes) (s : State) : Host.Outcome State Fault Refusal :=
  .next { s with blk := tdispRun 0x86 sid record tdispStart s.blk }

/-- STOP_INTERFACE_REQUEST (R196). -/
def execStopInterfaceRequest (sid : Nat) (record : Bytes) (s : State) : Host.Outcome State Fault Refusal :=
  .next { s with blk := tdispRun 0x87 sid record tdispStop s.blk }

/-! ### Requests outside the supported set, and the DOE mailbox -/

/-- The TDISP requests of R195 by their type. -/
def tdispHandler (kind : Nat) : Option (Bytes → Nat → Block → Bytes × Block) :=
  match kind with
  | 0x81 => some tdispVersion
  | 0x82 => some tdispCapabilities
  | 0x83 => some tdispLock
  | 0x84 => some tdispReport
  | 0x85 => some tdispState
  | 0x86 => some tdispStart
  | 0x87 => some tdispStop
  | _ => none

/-- A request outside the supported set gets an SPDM error, or inside a session a TDISP error when it is a TDISP request (R179, R195). A record that
does not open ends its session with DecryptError, in the clear. -/
def spdmUnsupported (via : SpdmVia) (wire : Bytes) (b : Block) : Block :=
  if spdmPath b via = false then b
  else match spdmOpen b via wire with
    | none => match via with
      | .session sid => spdmSend .doe (spdmError errDecrypt 0) (b.onRcd (fun r => { r with sessions := r.sessions.filter (fun x => x.sid != sid) }))
      | _ => b
    | some req =>
      if req.length < 4 ∨ spdmKnows via (leAt req 1 1) = true then b
      else match if sessionUp b via then tdispOf req else none with
        | some m =>
          if (tdispHandler (leAt m 1 1)).isSome then b
          else spdmAnswer via true (fun b => (tdispWrap (tdispError tdUnsupported m), b)) b
        | none => spdmAnswer via (leAt req 0 1 == 0x13) (fun b => (spdmError errUnsupported (leAt req 1 1), b)) b

/-- SPDM_UNSUPPORTED_REQUEST (R179). -/
def execSpdmUnsupportedRequest (via : SpdmVia) (req : Bytes) (s : State) : Host.Outcome State Fault Refusal :=
  .next { s with blk := spdmUnsupported via req s.blk }

/-- The length of an SPDM request in the clear, without the padding of its data object. -/
def spdmLength (m : Bytes) : Nat :=
  match leAt m 1 1 with
  | 0x84 | 0x81 => 4
  | 0xE1 => 20
  | 0xE3 => leAt m 4 2
  | 0x82 => 8
  | 0x83 => 44
  | 0xE0 => if bit (leAt m 2 1) 0 then 45 else 12
  | 0xE4 => 138 + leAt m 136 2
  | _ => m.length

/-- An SPDM message of any code. -/
def spdmAny (via : SpdmVia) (wire : Bytes) (b : Block) : Block :=
  match spdmOpen b via wire with
  | none => spdmUnsupported via wire b
  | some req =>
    if spdmKnows via (leAt req 1 1) then spdmTake (leAt req 1 1) via wire b
    else match via, (if sessionUp b via then tdispOf req else none).bind (fun m => (tdispHandler (leAt m 1 1)).map (fun f => (leAt m 1 1, f))) with
      | .session sid, some h => tdispRun h.1 sid wire h.2 b
      | _, _ => spdmUnsupported via wire b

/-- GO of the DOE mailbox: the object written is taken. Type 0 is discovery of the types served, 1 SPDM, 2 a secured record; any other object sets
the mailbox's error (PRESUMED, assumption 18, the Data Object Exchange of PCI Express). -/
def doeGo (b : Block) : Block :=
  let o := b.link.cfg.doeIn
  let b := b.onLink (fun l => { l with cfg := { l.cfg with doeIn := [] } })
  let m := o.drop 8
  let bad := b.onLink (fun l => { l with cfg := { l.cfg with doeError := true } })
  if o.length < 12 ∨ leAt o 4 4 % 2 ^ 18 * 4 ≠ o.length ∨ leAt o 0 2 ≠ 1 then bad
  else match leAt o 2 1 with
    | 0 => if 2 < leAt m 0 1 then bad else doeSend 0 (lePut 2 1 ++ lePut 1 (leAt m 0 1) ++ lePut 1 ((leAt m 0 1 + 1) % 3)) b
    | 1 => spdmAny .doe (m.take (spdmLength m)) b
    | 2 => spdmAny (.session (leAt m 0 4)) (slice m 4 (2 + leAt m 4 2)) b
    | _ => bad

end Sys2Proof.Machine
end

