-- ==== Sys2Proof/Machine/Thaw.lean ====
section
/-! DEFINITION. Thaw: offers, chunks, the writing and activation of each image as it arrives, the end of a bundle, status (R102, R106, R119 to R123). -/

namespace Sys2Proof.Machine

/-! ### Activation (R106, R119) -/

/-- Offset of the activation marker of a slot on its chip select. -/
def markerOff (e : DirEntry) (i : Nat) : Nat := slotStart e i + e.size - 4096

/-- A marker. -/
def markerBytes (cls slot seq : Nat) (header : Bytes) : Bytes :=
  lePut 4 0x4A414D31 ++ lePut 1 cls ++ lePut 1 slot ++ zeros 2 ++ lePut 4 seq ++ zeros 4 ++ sha384 header

/-- SEQ of the next activation: one above the higher valid SEQ of the two slots; 1 when neither is valid. -/
def nextSeqOf (v : PortView) (e : DirEntry) : Nat :=
  (max ((slotCopy v e 0).seq.getD 0) ((slotCopy v e 1).seq.getD 0) + 1) % 2 ^ 32

/-- An image of a class fits on a port (R111 check 3). -/
def activationFits (b : Block) (p cls n : Nat) : Bool :=
  if cls = 0 then keeperFits n else decide (4 + n / 4096 ≤ ledgerRoom b p)

/-- What an activation gives: the new SEQ, the outcome of R111 with which the slot is refused, or a marker that did not read back. -/
inductive Activated where
  | done (seq : Nat)
  | refused (outcome : Nat)
  | marker
  deriving DecidableEq, Repr

/-- Verify a slot with the OTP values in force, program its marker, read it back. Programming only clears bits. -/
def activateSlot (p : Nat) (e : DirEntry) (i : Nat) (s : PortView × Block) : Activated × PortView × Block :=
  let v := s.1
  let r := judgeSlot (otpWord s.2) s.2.run.lcs (activationFits s.2 p e.cls) v e i
  if r ≠ 1 then (.refused r, s)
  else
    let seq := nextSeqOf v e
    let mark := markerBytes e.cls i seq (mHead (slotCopy v e i).manifest)
    let off := markerOff e i
    let s := keeperProgramPage p (e.cs * 0x20000000 + off) mark s
    (if v.fails.isEmpty ∧ s.1.read e.cs off 64 = some mark then .done seq else .marker, s)

/-! ### Writing a slot -/

/-- Erase the 64 KiB that begin at an address, by 4 KiB where the chip select erases no 64 KiB. -/
def erase64K (p addr : Nat) (s : PortView × Block) : PortView × Block :=
  if (s.1.chip (csOf addr)).any (·.erase64K) then keeperErase p 65536 addr s
  else (List.range 16).foldl (fun s i => keeperErase p 4096 (addr + 4096 * i) s) s

/-- Erase the marker block of a slot, by the smallest erase size that holds it. -/
def eraseMarker (p : Nat) (e : DirEntry) (i : Nat) (s : PortView × Block) : PortView × Block :=
  let a := e.cs * 0x20000000 + markerOff e i
  let unit := if eraseUnit s.1 a = 4096 then 4096 else 65536
  keeperErase p unit (a / unit * unit) s

/-- Write bytes into a slot from an offset on; each 64 KiB block is erased as it is entered. -/
def slotWrite (p base : Nat) : Nat → Nat → Bytes → PortView × Block → PortView × Block
  | 0, _, _, s => s
  | fuel + 1, off, data, s =>
    if data.isEmpty then s
    else
      let k := min data.length (65536 - off % 65536)
      let s := if off % 65536 = 0 then erase64K p (base + off) s else s
      slotWrite p base fuel (off + k) (data.drop k) (keeperProgram p (base + off) (data.take k) s)

/-- Write bytes into a slot of the directory's class. -/
def writeSlot (p : Nat) (e : DirEntry) (i off : Nat) (data : Bytes) (s : PortView × Block) : PortView × Block :=
  slotWrite p (slotBase e i) (data.length / 65536 + 2) off data s

/-- The slot without a valid marker, otherwise the one with the lower SEQ (R122). DESIGN CHOICE (assumption 14): A when neither has a valid marker,
B when both have the same SEQ. -/
def lowerSlot (v : PortView) (e : DirEntry) : Nat :=
  match (slotCopy v e 0).seq, (slotCopy v e 1).seq with
  | none, _ => 0
  | some _, none => 1
  | some x, some y => if x < y then 0 else 1

/-- The inactive slot of a class: the one not accepted at this boot (R119). DESIGN CHOICE (assumption 14): where none was accepted, or on the port that was
not booted from, the slot without a valid marker, otherwise the one with the lower SEQ. -/
def inactiveSlot (b : Block) (v : PortView) (e : DirEntry) : Nat :=
  match tget b.boot.classes e.cls with
  | some c => if c.accepted then 1 - c.slot else lowerSlot v e
  | none => lowerSlot v e

/-! ### An image of a bundle (R122) -/

/-- The outcome of R111 of an activation, 0x4 when the marker did not read back. -/
def activatedCode (a : Activated) : Nat :=
  match a with
  | .done _ => 1
  | .refused c => c
  | .marker => 4

/-- Activate a slot that has been written. -/
def activateCode (p : Nat) (e : DirEntry) (i : Nat) (r : FlashView × Block) : Nat × FlashView × Block :=
  let (a, v, b) := activateSlot p e i (r.1.port p, r.2)
  (activatedCode a, r.1.onPort p (fun _ => v), b)

/-- Write into a slot of a port. -/
def putSlot (p : Nat) (f : PortView × Block → PortView × Block) (r : FlashView × Block) : FlashView × Block :=
  let s := f (r.1.port p, r.2)
  (r.1.onPort p (fun _ => s.1), s.2)

/-- What the log of the listen window shows once ROM has judged the offered image (R102). -/
def logJudged (transport outcome : Nat) (b : Block) : Block :=
  if b.boot.thawReason = 4 ∧ (b.boot.logs[b.boot.pos]?).any (fun l => l.source == transport) = true then
    onLog (fun l => { l with outcome := outcome }) b
  else b

/-- Change the offer. -/
def onOffer (f : ThawOffer → ThawOffer) (b : Block) : Block := b.onBoot (fun x => { x with offer := x.offer.map f })

/-- An image of the bundle has failed: nothing more of the bundle is taken, its staging bytes are zeroed (R111, R122). -/
def imageFails (code : Nat) (b : Block) : Block :=
  event 0x0C0 code ((onOffer (fun o => { o with code := code, head := [], image := [], slot := none }) b).onBoot (fun x => { x with
    lastOutcome := code }))

/-- An image of the bundle holds: the next one may come. -/
def imageHolds (b : Block) : Block :=
  (onOffer (fun o => { o with left := o.left - 1, head := [], image := [], come := 0, slot := none }) b).onBoot (fun x => { x with lastOutcome := 1 })

/-- The class 0 entry that Thaw writes to: of the first port of the effective list with a valid directory. -/
def thawTarget (b : Block) : Option (Nat × Bytes × DirEntry) :=
  b.boot.firstDir.bind (fun x => (entryFor x.2 0).map (fun e => (x.1, x.2, e)))

/-- ROM has found an offered class 0 image wanting. -/
def romRefuses (transport code : Nat) (b : Block) : Block :=
  let required := (thawTarget b).any (fun t => t.2.2.required)
  imageFails code (putClass 0 (classFailed code required) (logJudged transport code b))

/-- ROM has accepted the offered class 0 image: the keeper starts, and writes it to its port; without a port the bundle ends with NO_FLASH. -/
def romAccepts (transport : Nat) (m img : Bytes) (r : FlashView × Block) : FlashView × Block :=
  let (f, b) := r
  let target := thawTarget b
  let b := logJudged transport 1 b
  let b := keeperBegins (startKeeper m transport 0 0 0 false false (target.any (fun t => t.2.2.required)) b)
  let b := discoverPort 1 f.flb (discoverPort 0 f.fla b)
  match target with
  | none => (f, onOffer (fun o => { o with left := 0 }) (imageHolds (b.onBoot (fun o => { o with thawReason := 3 }))))
  | some (p, d, e) =>
    let b := b.onBoot (fun o => { o with port := some p, directory := d })
    let i := lowerSlot (f.port p) e
    let r := putSlot p (fun s => writeSlot p e i 0 (m ++ img) (eraseMarker p e i s)) (f, b)
    let (code, f, b) := activateCode p e i r
    (f, if code = 1 then imageHolds b else imageFails code b)

/-- The manifest of an image has come whole. While no keeper runs, ROM judges it as class 0 by the checks that need no image. Later, and with
PLATFORM_REQUIRED_FAIL, the keeper begins to write the image into the inactive slot of its class. -/
def headComes (o : ThawOffer) (r : FlashView × Block) : FlashView × Block :=
  let (f, b) := r
  let m := o.head
  if b.boot.romLock = false then
    let code := judgeHead (otpShadow b) b.run.lcs 0 keeperFits m
    if code = 1 then r else (f, romRefuses o.transport code b)
  else if (headOk m && (mBlocks m).isSome) = false then (f, imageFails 0x5 b)
  else match b.boot.port, entryFor b.boot.directory (mClass m) with
    | some p, some e =>
      if e.cls = 0 ∧ b.boot.thawReason = 2 then (f, imageFails 0xD b)
      else if fitsSlot e (mLen m) = false then (f, imageFails 0x6 b)
      else
        let i := if e.cls = 0 then lowerSlot (f.port p) e else inactiveSlot b (f.port p) e
        putSlot p (fun s => writeSlot p e i 0 m (eraseMarker p e i s)) (f, onOffer (fun o => { o with slot := some (p, e.cls, i) }) b)
    | _, _ => (f, imageFails 0xD b)

/-- Bytes of an image come: into staging for ROM, else into the slot; with its last byte the image is judged, and activated. -/
def imageComes (o : ThawOffer) (data : Bytes) (r : FlashView × Block) : FlashView × Block :=
  let (f, b) := r
  let m := o.head
  let come := o.come + data.length
  match o.slot with
  | none =>
    let img := o.image ++ data
    let b := onOffer (fun o => { o with come := come, image := img }) b
    if come < mLen m then (f, b)
    else
      let code := judgeImage m (some img)
      if code = 1 then romAccepts o.transport m img (f, b) else (f, romRefuses o.transport code b)
  | some (p, c, i) =>
    match entryFor b.boot.directory c with
    | none => (f, imageFails 0xD b)
    | some e =>
      let r := putSlot p (writeSlot p e i (manifestLen + o.come) data) (f, onOffer (fun o => { o with come := come }) b)
      if come < mLen m then r
      else
        let (code, f, b) := activateCode p e i r
        (f, if code = 1 then imageHolds b else imageFails code b)

/-- The bytes of a chunk go to the manifests and images that they belong to; what follows a failed image, or the last one, is dropped. -/
def bundleTakes : Nat → Bytes → FlashView × Block → FlashView × Block
  | 0, _, r => r
  | fuel + 1, data, r =>
    match r.2.boot.offer with
    | none => r
    | some o =>
      if data.isEmpty ∨ o.code ≠ 0 ∨ o.left = 0 then r
      else if o.head.length < manifestLen then
        let k := min data.length (manifestLen - o.head.length)
        let o := { o with head := o.head ++ data.take k }
        let r := (r.1, r.2.onBoot (fun x => { x with offer := some o }))
        bundleTakes fuel (data.drop k) (if o.head.length < manifestLen then r else headComes o r)
      else
        let k := min data.length (mLen o.head - o.come)
        bundleTakes fuel (data.drop k) (imageComes o (data.take k) r)

/-! ### The Thaw commands (R121) -/

/-- Source code of a transport: SERIAL for frames, SIDEBAND for MCTP. -/
def transportOf (by_ : Nat) : Nat := 3 + by_

/-- A transport answers Thaw commands (R102, R103): during ROM's walk at its own position alone, in THAW when the effective list has it; elsewhere
with the refusals of R121 (R494). -/
def thawAnswers (b : Block) (t : Nat) : Bool :=
  match b.run.state with
  | .rom => decide (b.boot.wait = .listen) && b.boot.order[b.boot.pos]? == some t
  | .thaw => b.boot.order.contains t
  | _ => true

/-- Offers are taken. -/
def offersTaken (b : Block) : Bool := decide (b.run.state = .rom) || decide (b.run.state = .thaw)

/-- The offer of another transport stands. -/
def otherOffer (b : Block) (t : Nat) : Bool := b.boot.offer.any (fun o => o.transport != t)

/-- THAW_OFFER: bundle length, image count; READY (0) with the largest chunk, or BUSY (1). -/
def thawOffer (f : FlashView) (by_ : Nat) (p : Bytes) (b : Block) : Answer × Block :=
  let t := transportOf by_
  if thawAnswers b t = false then (.silent, b)
  else if p.length ≠ 8 then (.malformed, b)
  else if offersTaken b = false ∨ otherOffer b t = true then (.reply [1], b)
  else
    let b := if b.run.state = .rom then enterThaw 4 f b else b
    let n := max 1 (leAt p 4 4)
    let o : ThawOffer :=
      { transport := t, length := leAt p 0 4, images := n, taken := 0, left := n, head := [], image := [], come := 0, slot := none, code := 0,
        lastAt := b.time.usec }
    (.reply (0 :: lePut 4 (Config.thawChunk by_)), b.onBoot (fun x => { x with offer := some o }))

/-- The offer that a transport holds. -/
def heldOffer (b : Block) (t : Nat) : Option ThawOffer := b.boot.offer.filter (fun o => o.transport == t)

/-- THAW_CHUNK: an offset and data; ACK (0) with the next offset, or OUT_OF_ORDER (1). -/
def thawTakes (f : FlashView) (by_ : Nat) (p : Bytes) (b : Block) : Answer × Block :=
  if thawAnswers b (transportOf by_) = false then (.silent, b)
  else if p.length < 4 then (.malformed, b)
  else match heldOffer b (transportOf by_) with
    | none => (.reply [1], b)
    | some o =>
      let data := p.drop 4
      if leAt p 0 4 ≠ o.taken ∨ o.length < o.taken + data.length then (.reply [1], b)
      else
        let o := { o with taken := o.taken + data.length, lastAt := b.time.usec }
        (.reply (0 :: lePut 4 o.taken), (bundleTakes (data.length + 1) data (f, b.onBoot (fun x => { x with offer := some o }))).2)

/-- The outcome of a bundle: 1, or the code of the image that failed. DESIGN CHOICE (assumption 14): a bundle that has not come whole fails with
FETCH_ERROR. -/
def bundleCode (o : ThawOffer) : Nat := if o.code ≠ 0 then o.code else if o.left = 0 then 1 else 0xE

/-- THAW_END: VERIFIED (0), or FAILED (1) with its outcome. The staging bytes are zeroed. -/
def thawEnds (by_ : Nat) (p : Bytes) (b : Block) : Answer × Block :=
  if thawAnswers b (transportOf by_) = false then (.silent, b)
  else if p ≠ [] then (.malformed, b)
  else match heldOffer b (transportOf by_) with
    | none => (.reply [1, 0], b)
    | some o =>
      let code := bundleCode o
      (if code = 1 then .reply [0] else .reply [1, BitVec.ofNat 8 code], b.onBoot (fun x => { x with offer := none, lastOutcome := code }))

/-- A bundle that held has been taken whole: the firmware warm reset follows its reply (R122). -/
def thawDone (had : Bool) (b : Block) : Block :=
  if had ∧ b.boot.offer = none ∧ b.boot.lastOutcome = 1 ∧ b.boot.thawReason ≠ 3 ∧ b.run.state = .thaw then chipReset 4 b else b

/-- THAW_STATUS: STATE, THAW_REASON, BOOT_STATUS, the last outcome. -/
def thawStatus (by_ : Nat) (p : Bytes) (b : Block) : Answer × Block :=
  if thawAnswers b (transportOf by_) = false then (.silent, b)
  else if p ≠ [] then (.malformed, b)
  else (.reply (0 :: lePut 1 (stateCode b.run.state) ++ lePut 1 b.boot.thawReason ++ lePut 4 (bootStatus b) ++ lePut 1 b.boot.lastOutcome), b)

/-- A chunk waits until the ports can serve the keeper's writes (R128). -/
def chunkRun (f : Block → Block) (b : Block) : Block := if writableNow b 0 ∧ writableNow b 1 then f b else b

/-- THAW_OFFER (R102, R121, R122). -/
def execThawOffer (via : Via) (flash : FlashView) (s : State) : Host.Outcome State Fault Refusal :=
  .next { s with blk := viaRun 0x01 via (thawOffer flash) s.blk }

/-- THAW_CHUNK (R121, R122). -/
def execThawChunk (part : ThawPart) (s : State) : Host.Outcome State Fault Refusal :=
  .next { s with blk := chunkRun (viaRun 0x02 part.via (thawTakes part.flash)) s.blk }

/-- THAW_END (R121, R122). The images were judged as they came: nothing of the ports is asked here. -/
def execThawEnd (via : Via) (_flash : FlashView) (s : State) : Host.Outcome State Fault Refusal :=
  .next { s with blk := thawDone s.blk.boot.offer.isSome (viaRun 0x03 via thawEnds s.blk) }

/-- THAW_STATUS (R121). -/
def execThawStatus (via : Via) (s : State) : Host.Outcome State Fault Refusal := .next { s with blk := viaRun 0x04 via thawStatus s.blk }

/-- THAW_OFFER_TIMEOUT (R122): the offer is abandoned and its bytes are zeroed. -/
def execThawOfferTimeout (s : State) : Host.Outcome State Fault Refusal :=
  .next { s with blk := s.blk.onBoot (fun x => { x with offer := none }) }

end Sys2Proof.Machine
end

