-- ==== Sys2Proof/Machine/Update.lean ====
section
/-! DEFINITION. BOOT_ACTIVATE, and the live keeper update (R119, R158, R174, R466 to R469). -/

namespace Sys2Proof.Machine

/-! ### BOOT_ACTIVATE (R119) -/

/-- A restart into the recovery slots is asked for no longer once host software has activated a host class (R118). -/
def clearRecovery (cls : Nat) (b : Block) : Block :=
  if hostClass cls ∧ wdgRecovery b = true then commitAlone (commitRec 1 (wdgFlag 0 false (wdgRec b))) b else b

/-- The activation of an HSM command, with its command. -/
def actOf (b : Block) (job : Nat) : Option (HsmJob × Activation) :=
  match b.kpr.hsm.find? (fun h => h.id == job && h.stage == .activating), b.flt.acts.find? (fun a => a.job == job) with
  | some h, some a => some (h, a)
  | _, _ => none

/-- Change an activation. -/
def onAct (job : Nat) (f : Activation → Activation) (b : Block) : Block :=
  b.onFlt (fun x => { x with acts := x.acts.map (fun a => if a.job = job then f a else a) })

/-- An activation ends, and the slot is open to its writers again. -/
def actEnds (h : HsmJob) (f : Block → Block) (b : Block) : Block :=
  settleAll (f (b.onFlt (fun x => { x with acts := x.acts.filter (fun a => a.job != h.id) })))

/-- The slot fails verification. -/
def actFails (h : HsmJob) (code : Nat) : Block → Block := actEnds h (hsmFail h 0x0104 code)

/-- The marker was not programmed, or did not read back. -/
def actMarkerFails (h : HsmJob) : Block → Block := actEnds h (hsmFail h 0x0106 0)

/-- The next read of an activation: judged (R132), then at rank 1 of its port; a read that is refused gives no byte. -/
def actRead (h : HsmJob) (a : Activation) (step : ActStep) (addr n : Nat) (b : Block) : Block :=
  match flashJudge b a.port .keeper opRead addr n with
  | .refused ap => actFails h 0xE (flashRefuse .keeper a.port addr ap b)
  | .allowed _ => askOp a.port .read addr n [] 1 [.keeper h.id] (onAct h.id (fun x => { x with step := step }) b)

/-- The directory entry of an activation. -/
def actEntry (a : Activation) : DirEntry := (entryFor a.dir a.cls).getD (dirEntry [] 0)

/-- Port address of the marker of a slot. -/
def markerAddr (e : DirEntry) (i : Nat) : Nat := e.cs * 0x20000000 + markerOff e i

/-- The next 64 KiB part of the image. -/
def actImagePart (h : HsmJob) (a : Activation) (m : Bytes) (b : Block) : Block :=
  actRead h a .image (slotBase (actEntry a) a.slot + manifestLen + a.image.length) (min 65536 (mLen m - a.image.length)) b

/-- SEQ of the new marker (R119): one above the higher valid SEQ of the two slots; the slot accepted at this boot keeps the SEQ it had. -/
def actSeq (b : Block) (a : Activation) : Nat :=
  let active := if b.boot.port = some a.port then ((tget b.boot.classes a.cls).filter (·.accepted)).map (·.seq) else none
  (max (active.getD 0) (max (tgetD 0 a.seqs 0) (tgetD 0 a.seqs 1)) + 1) % 2 ^ 32

/-- The slot of an activation once its candidates are read: the only one, or the one without a valid marker, or the one with the lower SEQ. -/
def actSlot (a : Activation) : Nat :=
  match tget a.manifests 0, tget a.manifests 1 with
  | some _, none => 0
  | none, _ => 1
  | some _, some _ =>
    match tget a.seqs 0, tget a.seqs 1 with
    | none, _ => 0
    | some _, none => 1
    | some x, some y => if x < y then 0 else 1

/-- Checks 1 to 8 of R111 with the OTP values in force; then the image is copied. -/
def actJudge (h : HsmJob) (a : Activation) (b : Block) : Block :=
  let e := actEntry a
  let a := { a with slot := actSlot a }
  let m := tgetD [] a.manifests a.slot
  match hybridDead b with
  | some u => actEnds h (hsmFinish h stEngineAlarm (unitDetail u) 0 []) b
  | none =>
    let code := judgeHead (otpWord b) b.run.lcs a.cls (fun n => fitsSlot e n && activationFits b a.port a.cls n) m
    if code ≠ 1 then actFails h code b else actImagePart h a m (onAct h.id (fun x => { x with slot := a.slot }) b)

/-- The slots still to be read, then the judgment. -/
def actNext (h : HsmJob) (a : Activation) (b : Block) : Block :=
  match a.toRead with
  | i :: _ => actRead h a (.manifest i) (slotBase (actEntry a) i) manifestLen b
  | [] => actJudge h a b

/-- The image has come whole: checks 9 and 10, then the marker is programmed. -/
def actImage (h : HsmJob) (a : Activation) (m : Bytes) (b : Block) : Block :=
  let code := judgeImage m (some a.image)
  if code ≠ 1 then actFails h code b
  else
    let e := actEntry a
    let addr := markerAddr e a.slot
    let mark := markerBytes a.cls a.slot (actSeq b a) (mHead m)
    match flashJudge b a.port .keeper opProgram addr 64 with
    | .refused ap => actMarkerFails h (flashRefuse .keeper a.port addr ap b)
    | .allowed _ =>
      askOp a.port .program addr 64 mark 1 [.keeper h.id] (onAct h.id (fun x => { x with step := .program, mark := mark }) b)

/-- A restart into the recovery slots is asked for no longer, and the command has succeeded. -/
def actDone (h : HsmJob) (a : Activation) (b : Block) : Block :=
  actEnds h (fun b => hsmOk h (leAt a.mark 8 4) [] (clearRecovery a.cls b)) b

/-- The directory of the other port has been read. -/
def actDir (h : HsmJob) (a : Activation) (data : Bytes) (b : Block) : Block :=
  let size (cs : Nat) : Nat := chipSize (portOf b a.port) (cs * 0x20000000)
  match if dirValid size data then entryFor data a.cls else none with
  | none => actEnds h (hsmFail h 0x0105 0) b
  | some e =>
    let f (x : Activation) : Activation := { x with
      dir := data, toRead := [0, 1], closed := [(slotBase e 0, e.size), (slotBase e 1, e.size)] }
    actNext h (f a) (onAct h.id f b)

/-- A flash operation of an activation has ended: `data` are the bytes of a read, `ok` false is a flash error. -/
def actStep (job : Nat) (data : Bytes) (ok : Bool) (b : Block) : Block :=
  match actOf b job with
  | none => b
  | some (h, a) =>
    match a.step, ok with
    | .room, _ => b
    | .program, false | .readback, false => actMarkerFails h b
    | _, false => actFails h 0xE b
    | .dir, true => actDir h a data b
    | .manifest i, true =>
      let f (x : Activation) : Activation := { x with manifests := tset x.manifests i data }
      actRead h (f a) (.marker i) (markerAddr (actEntry a) i) 64 (onAct job f b)
    | .marker i, true =>
      let seq := markerSeq a.cls i (tgetD [] a.manifests i) data
      let f (x : Activation) : Activation := { x with
        toRead := x.toRead.tail
        seqs := match seq with
          | some n => tset x.seqs i n
          | none => x.seqs }
      actNext h (f a) (onAct job f b)
    | .image, true =>
      let a := { a with image := a.image ++ data }
      let m := tgetD [] a.manifests a.slot
      let b := onAct job (fun x => { x with image := a.image }) b
      if a.image.length < mLen m then actImagePart h a m b else actImage h a m b
    | .program, true => actRead h a .readback (markerAddr (actEntry a) a.slot) 64 b
    | .readback, true => if data = a.mark then actDone h a b else actMarkerFails h b

/-- An activation that waits for staging begins once there is room for its copies (R470). -/
def actBegins (job : Nat) (b : Block) : Block :=
  match actOf b job with
  | none => b
  | some (h, a) =>
    if a.step ≠ .room ∨ imageRoom b (stagingHeld b) < actNeed a.cls then b
    else if a.dir.isEmpty then actRead h a .dir 0 4096 b
    else actNext h a b

/-- BOOT_ACTIVATE: PORT, CLASS, six zero bytes. The slot is read, judged and marked by the flash operations that follow. -/
def bootActivate (h : HsmJob) (b : Block) : Block :=
  let p := bkParam h.block
  let port := leAt p 0 1
  let cls := leAt p 1 1
  let start (dir : Bytes) (toRead : List Nat) (closed : List (Nat × Nat)) : Block :=
    let a : Activation :=
      { job := h.id, port := port, cls := cls, step := .room, dir := dir, toRead := toRead, closed := closed, manifests := [], seqs := [], slot := 0,
        image := [], mark := [] }
    actBegins h.id (onHsm h.id (fun x => { x with stage := .activating }) (b.onFlt (fun f => { f with acts := f.acts ++ [a] })))
  if p.length ≠ 8 ∨ 1 < port ∨ 7 < cls ∨ allZero p 2 6 = false then hsmFail h 0x0501 0 b
  else if b.run.state ≠ .service ∨ b.flt.acts.any (fun a => liveAct b a && a.port == port && a.cls == cls) = true then hsmFail h 0x0107 0 b
  else if b.boot.port = some port then
    match entryFor b.boot.directory cls with
    | none => hsmFail h 0x0105 0 b
    | some e =>
      let slots := match (tget b.boot.classes cls).filter (·.accepted) with
        | some c => [1 - c.slot]
        | none => [0, 1]
      start b.boot.directory slots (slots.map (fun i => (slotBase e i, e.size)))
  else start [] [] []

/-- BOOT_ACTIVATE (R119). What it reads of the ports comes with FLASH_OP_COMPLETE: nothing of them is asked here. -/
def execBootActivate (job : Nat) (_flash : FlashView) (s : State) : Host.Outcome State Fault Refusal :=
  .next { s with blk := hsmRun 0x21 job (fun h _ => rulePlain h.req h.block) (fun _ => .none) (fun h _ b => bootActivate h b) s.blk }

/-- A flash operation of a port ends, and what waits for it goes on: `data` are the bytes of a read, `ok` false stands for a flash error. -/
def flashDone (p : Nat) (data : Bytes) (ok : Bool) (b : Block) : Block :=
  match (portOf b p).running with
  | none => b
  | some o =>
    o.waiters.foldl (fun b w => match w with
      | .keeper job => actStep job (slice data 0 o.len) ok b
      | _ => b) (flashOpComplete p data ok b)

/-- FLASH_OP_COMPLETE (R128, R140). -/
def execFlashOpComplete (port : Nat) (data : Bytes) (ok : Bool) (s : State) : Host.Outcome State Fault Refusal :=
  .next { s with blk := flashDone port data ok s.blk }

/-- What waits for the time alone: the next request to the regulator (R464), a public-key job held back by the pace of the power cap (R461). -/
def timePasses (b : Block) : Block :=
  if unitsRun b = false then b
  else
    let b := if b.pwr.capLimited then pkNext .pkLat (pkNext .pkMod b) else b
    if b.pwr.settling then settleAll (governorStep b) else b

/-- What an empty queue lets pass: a microsecond, in which a BOOT_ACTIVATE that waits for staging may begin. -/
def idleStep (b : Block) : Block := timePasses ((b.flt.acts.map (·.job)).foldl (fun b j => actBegins j b) (tick b))

/-! ### UPDATE_KEEPER (R466 to R468) -/

/-- The parameters of UPDATE_KEEPER. -/
def updateParamsOk (p : Bytes) : Bool := p.length == 8 && decide (leAt p 0 1 ≤ 1) && allZero p 1 7

/-- The class 0 slot on which the running keeper stands, and its SEC_VERSION; a live update changes both (R468). -/
def runningKeeper (b : Block) : Nat × Nat :=
  match b.boot.measures.find? (fun m => m.cls == 0) with
  | some m => (m.slot, leAt m.header 0x0C 2)
  | none => (b.boot.slot, 0)

/-- The class 0 slot that R107 would try first at the next chip reset. No rule covers the slot accepted at this boot: its SEQ is the one it had. -/
def nextKeeper (b : Block) (v : PortView) (e : DirEntry) : Option Nat :=
  let seen (i : Nat) : Option Nat := match (tget b.boot.classes 0).filter (fun c => c.accepted && c.slot == i) with
    | some c => some c.seq
    | none => (slotCopy v e i).seq
  (slotOrder (seen 0) (seen 1)).head?

/-- UPDATE_KEEPER after its session checks: steps 1 to 3, with what R467 refuses. -/
def updateKeeper (f : FlashView) (h : HsmJob) (b : Block) : Block :=
  let port := leAt (bkParam h.block) 0 1
  if b.run.state ≠ .service ∨ b.otp.resetDue = true ∨
      b.kpr.hsm.any (fun x => x.id != h.id && (x.stage == .lcsDrain || x.stage == .keeperSwitch || x.stage == .activating)) = true then
    hsmFail h 0x0703 0 b
  else
    let v := f.port port
    match entryFor b.boot.directory 0 with
    | none => hsmFail h 0x0704 0 b
    | some e =>
      let first := nextKeeper b v e
      let b := if b.boot.source = port + 1 then whileRead port id b else b
      if b.boot.source ≠ port + 1 ∨ first = some (runningKeeper b).1 then hsmFail h 0x0704 0 b
      else match first, hybridDead b with
        | none, _ => hsmFail h 0x0705 0x4 b
        | some _, some u => hsmFinish h stEngineAlarm (unitDetail u) 0 [] b
        | some i, none =>
          let copy := slotCopy v e i
          let m := copy.manifest
          let code := judgeSlot (otpWord b) b.run.lcs keeperFits v e i
          if code ≠ 1 then hsmFail h 0x0705 code b
          else if mVersion m < (runningKeeper b).2 ∨ keysMfg (keysUsed (otpWord b) b.run.lcs 0 m) ≠ b.boot.mfgKey then hsmFail h 0x0706 0 b
          else
            let b := onHsm h.id (fun x => { x with stage := .keeperSwitch, note := [BitVec.ofNat 8 i] }) b
            sendBack (fun x => x.id != h.id) (b.onKpr (fun k => { k with stopped := true, update := some m }))

/-- The port can serve the copy of the slot, and staging has room for it (R470). -/
def updateRoom (b : Block) (id : Nat) : Bool :=
  match b.kpr.hsm.find? (fun h => h.id == id) with
  | some h => readableNow b (leAt (bkParam h.block) 0 1) && decide (actNeed 0 ≤ imageRoom b (stagingHeld b))
  | none => true

/-- UPDATE_KEEPER with a malformed parameter is refused before the session checks (R467, in table order). -/
def updateRun (f : FlashView) (id : Nat) (b : Block) : Block :=
  let run := hsmRun 0x22 id (fun h _ => ruleQuorum h.req h.block 0 0x0702 0x0702) (fun _ => .none) (fun h _ b => updateKeeper f h b)
  match hsmReady b 0x22 id with
  | none => b
  | some h =>
    if hsmOrphan b h = false ∧ isPf0 h.req = true ∧ bkAuth h.block = 0 ∧ updateParamsOk (bkParam h.block) = false then
      settleAll (hsmFail h 0x0701 0 b)
    else if updateRoom b id then run b else b

/-- UPDATE_KEEPER (R466). -/
def execUpdateKeeper (job : Nat) (flash : FlashView) (s : State) : Host.Outcome State Fault Refusal :=
  .next { s with blk := updateRun flash job s.blk }

/-- Steps 4 to 7: the new keeper runs. Its image stands in the slot that its note names. BOOT_STATUS and BOOT_CLASS_STATUS0 state this boot, as key 9 of
the mid-boot record does (R174): they stand. -/
def keeperSwitch (f : FlashView) (b : Block) : Block :=
  match b.kpr.hsm.find? (fun h => h.stage == .keeperSwitch), b.kpr.update with
  | some h, some m =>
    if keeperRuns b = false ∨ writableNow b 0 = false ∨ writableNow b 1 = false then b
    else
      let slot := leAt h.note 0 1
      let keys := keysUsed (otpWord b) b.run.lcs 0 m
      let mfg := keysMfg keys
      let e := entryFor b.boot.directory 0
      let required := e.any (·.required)
      let base := (e.map (fun e => slotBase e slot)).getD 0
      let b := sendBack (fun x => x.id != h.id) b
      let b := keeperMemories (hsmOk h 0 [] b)
      let b := b.onKey (fun k => { k with aliasCdi := k.deviceIdCdi.map (fun d => aliasCdiOf d (mHead m) mfg) })
      let b := addMeasure (measureOf b 0 (classAccepted m keys slot base 0 false required) (mHead m) keys) b
      let b := b.onRcd (fun r => { r with aliasOf := some (aliasFacts b m mfg false) })
      let b := event 0x442 (mVersion m) b
      let b := if b.wdg.d.armed then wdgBegin false b else b
      let b := b.onWdg (fun w => { w with runStart := some b.time.secs, d := { w.d with seen := 0 }, p := { w.p with seen := 0 } })
      let b := (makeRecord f true b).2
      settleAll (b.onRcd (fun r => { r with mctp := { r.mctp with resynch := true }, doe := { r.doe with resynch := true } }))
  | _, _ => b

/-- UPDATE_KEEPER_SWITCH (R468). -/
def execUpdateKeeperSwitch (flash : FlashView) (s : State) : Host.Outcome State Fault Refusal :=
  .next { s with blk := keeperSwitch flash s.blk }

end Sys2Proof.Machine
end

