-- ==== Sys2Proof/Machine/Registers.lean ====
section
/-! DEFINITION. Writes of registers: reserved bits and access types, every register the host may write, VF pages, MSI-X tables, configuration
space; reads that latch (R5, R11 to R15, R188 to R196, R418, R450, R486, R501 to R509). -/

namespace Sys2Proof.Machine

/-! ### Reserved bits (R13) of the registers a host write does not change -/

/-- `some m` for offsets `lo` to `hi`, in words. -/
def span (off lo hi m : Nat) : Option Nat := if lo ≤ off ∧ off ≤ hi then some m else none

/-- The reserved bits of a listed register of a block window that has no writable field; nothing for an offset that no register has (R503). Bits
of lanes and cores that the variant lacks are reserved (R321, R349). -/
def resvOf (v : Variant) (blk off : Nat) : Option Nat :=
  match blk with
  | 0 => match off with
    | 0x004 => some 0xFF000000
    | 0x008 => some 0x000FFEE0
    | 0x010 => some 0xF
    | 0x014 => some 0xFFFE0000
    | 0x108 => some 0x3FFF8000
    | 0x000 | 0x00C | 0x018 | 0x01C | 0x10C | 0x408 | 0x40C | 0x410 | 0x414 => some 0
    | _ => span off 0x440 0x47C 0
  | 1 => match off with
    | 0x00 => some 0x00FF0FFF
    | 0x04 => some 0x7FFF0000
    | 0x0C => some 0xFF000000
    | 0x18 => some 0xFF0000F8
    | 0x80 => some 0x000FF03F
    | 0x08 | 0x1C | 0x20 => some 0
    | _ => none
  | 2 => match off with
    | 0x00 => some 0xFFFFFFF0
    | 0x04 => some 0xFFFFFC00
    | 0x40 => some 0xFF801000
    | 0x44 => some 0x0F000000
    | _ =>
      let word := off % 16 / 4
      if 0x10 ≤ off ∧ off < 0x40 ∧ word < 3 then some (identityResv word) else span off 0x50 0x6C 0xFFFFFE00
  | 3 => match off with
    | 0x00 => some 0xFFF0C008
    | 0x04 => some 0xFFFFFFFC
    | 0x08 => some 0xFFFF8000
    | _ => (span off 0x10 0x1C 0xFFFF0000).orElse (fun _ => span off 0x20 0x3C 0xF8000000)
  | 4 => match off with
    | 0x00 => some 0xFFFFFF00
    | 0x10 | 0x14 => some 0xFFFFC007
    | 0x20 | 0x24 | 0x30 | 0x34 | 0x38 | 0x40 | 0x44 => some 0
    | _ => span off 0x2000 0x2BFC 0
  | 5 => match off with
    | 0x00 => some 0xFFFFFF80
    | 0x20 => some 0xC000
    | 0x24 | 0x28 | 0x2C => some 0
    | _ => span off 0x10 0x1C 0
  | 6 => if off = 0 then some 0xFF00FFE0 else span off 0x08 0x28 0
  | 7 => span off 0x40 0x7C 0
  | 8 => if off = 0 then some 0xFF00F080 else (span off 0x14 0x34 0).orElse (fun _ =>
      span off 0x100 0x1FC (if (off - 0x100) / 4 < coresOf v then 0x0F003FFF else 0xFFFFFFFF))
  | 9 =>
    let absent := 0xFF - (2 ^ lanesOf v - 1)
    if off = 0 then some (fields [(0xF, 4), (absent, 8), (absent, 16), (absent, 24)])
    else (span off 0x10 0x2C (if (off - 0x10) / 4 < lanesOf v then 0x0F003FFF else 0xFFFFFFFF)).orElse (fun _ => span off 0x40 0x50 0)
  | 10 => if off = 0 then some 0xFF00 else span off 0x04 0x0C 0
  | 11 => if off = 0 then some 0xFFFFFF80 else if off = 0x100 then some 0 else span off 0x04 0x10 0
  | 12 =>
    let o := off % 0x100
    if off < 0x200 ∧ o = 0x10 then some 0x000F0000 else if off < 0x200 then span o 0x0C 0x1C 0 else span off 0x200 0x208 0
  | 13 => match off with
    | 0x30 | 0x34 => some 0
    | _ => span off 0x1000 0x10BC 0
  | 14 => match off with
    | 0x00 => some 0xFF0000F8
    | 0x04 => some 0x00000FC0
    | 0x10 | 0x14 => some 0xFFF0F000
    | 0x18 | 0x1C | 0x20 => some 0
    | _ => none
  | 15 => if off = 0 then some 0xFF0F01FF else span off 0x04 0x14 0
  | _ => none

/-- A write to a register that the host does not change. -/
def readOnly (blk off : Nat) (v : Word) (b : Block) : Block :=
  match resvOf b.run.variant blk off with
  | some m => pf0Write m v id b
  | none => pf0Write 0 v rsvdWrite b

/-! ### Interrupt causes (R12, R509) -/

/-- A W1C write with the bits whose events recur during it: what the field holds afterwards. -/
def w1c (old v recur : Nat) : Nat := old - (old &&& (v - (v &&& recur)))

/-- A write of DEV_IRQ_CAUSE, also in FROZEN (R504): a message is owed when an event whose cause it clears recurs. -/
def irqCauseWrite (v recur : Word) (b : Block) : Block :=
  barWrite 0 (fun b =>
    let b := if v.toNat / 4096 ≠ 0 then rsvdWrite b else b
    let again := b.dev.irqCause &&& v.toNat &&& recur.toNat &&& b.dev.irqEnable
    let b := b.onDev (fun d => { d with irqCause := w1c d.irqCause v.toNat recur.toNat })
    if again = 0 then b else msixOwe 0 0 b) b

/-- A write of DEV_IRQ_ENABLE: a message is owed when a bit whose cause is set rises. -/
def irqEnableWrite (v : Word) (b : Block) : Block :=
  pf0Write 0xFFFFF000 v (fun b =>
    let new := v.toNat % 4096
    let rise := b.dev.irqCause &&& (new - (new &&& b.dev.irqEnable))
    let b := b.onDev (fun d => { d with irqEnable := new })
    if rise = 0 then b else msixOwe 0 0 b) b

/-! ### Writable registers without a row of their own -/

/-- DEV_LINK_STATUS: HS_NO_ACK. -/
def linkStatusWrite (v recur : Word) : Block → Block :=
  pf0Write 0xFFF00308 v (fun b => if bit v.toNat 4 && !bit recur.toNat 4 then b.onLink (fun l => { l with hsNoAck := false }) else b)

/-- DEV_LINK_CTRL. -/
def linkCtrlWrite (v : Word) : Block → Block := pf0Write 0xFFFFFFFE v (fun b => b.onLink (fun l => { l with writeCheck := bit v.toNat 0 }))

/-- PWR_UNIT_STATUS: DONE. -/
def unitStatusWrite (v recur : Word) : Block → Block :=
  pf0Write 0xFFFFFFE0 v (fun b => if bit v.toNat 4 && !bit recur.toNat 4 then b.onPwr (fun p => { p with done := false }) else b)

/-- The mailbox buffer with a word written into it; it lists the bytes that are not 0. -/
def bufferPut (off : Nat) (v : Word) (buf : List (Nat × Byte)) : List (Nat × Byte) :=
  let bytes := (List.range 4096).map (fun i => tgetD 0 buf i)
  bufferOf (patch bytes off (lePut 4 v.toNat))

/-- The mailbox registers and buffer of the FLT window. Bit 30 of FLT_MBX_ADDR, which R154 describes as 0 inside the field, is held as a reserved
bit: a 1 written to it is ignored and counted (DESIGN CHOICE, assumption 19). -/
def fltWrite (off : Nat) (v recur : Word) (b : Block) : Block :=
  if off = 0x100 then pf0Write 0x40000000 v (fun b => b.onFlt (fun f => { f with mbxAddr := v.toNat - (v.toNat &&& 0x40000000) })) b
  else if off = 0x104 then mbxCtrl v b
  else if off = 0x108 then pf0Write 0xFFFFFFF0 v (fun b => b.onFlt (fun f => { f with mbxCmd := v.toNat % 16 })) b
  else if off = 0x10C then
    pf0Write 0xFFFFFFC0 v (fun b => if bit v.toNat 5 && !bit recur.toNat 5 then b.onFlt (fun f => { f with mbxOverrun := false }) else b) b
  else if 0x1000 ≤ off ∧ off < 0x2000 then
    pf0Write 0 v (fun b => b.onFlt (fun f => { f with buffer := bufferPut (off - 0x1000) v f.buffer })) b
  else readOnly 4 off v b

/-- VLT_CFG: a value above 512 is taken as 512. -/
def vltCfgWrite (v : Word) : Block → Block :=
  pf0Write 0xFFFFFC00 v (fun b => settleAll (b.onVlt (fun x => { x with reserve := min 512 (v.toNat % 1024) })))

/-- DGE_STATUS: ERROR and EARLY_READ, with the register-mode lock. -/
def dgeStatusWrite (leg : Bool) (v recur : Word) : Block → Block :=
  pf0Write 0xFFF0FFE1 v (rmAccess leg (onRm (fun r => { r with
    error := r.error && !(bit v.toNat 4 && !bit recur.toNat 4), early := r.early && !(bit v.toNat 3 && !bit recur.toNat 3) })))

/-- The register mode through the DGE window or its alias in LEG (R478). -/
def dgeWrite (leg : Bool) (off : Nat) (v recur : Word) (b : Block) : Block :=
  match off with
  | 0x0 => dgeStatusWrite leg v recur b
  | 0x4 => pf0Write 0x1FF80000 v (rmAccess leg (rmCtrl v.toNat)) b
  | 0x8 => pf0Write 0 v (rmAccess leg (rmData v)) b
  | _ => readOnly 7 off v b

/-- SCE registers; the window is absent on JT-H48B. -/
def sceWrite (off : Nat) (v : Word) (b : Block) : Block :=
  if coresOf b.run.variant = 0 then pf0Write 0 v rsvdWrite b
  else match off with
    | 0x04 => coreFence 0 v b
    | 0x08 => coreFence 1 v b
    | 0x0C => parkTimeoutWrite v b
    | 0x10 => abandonTimeoutWrite v b
    | _ => readOnly 8 off v b

/-- STE registers; the window is absent on JT-H48B. -/
def steWrite (off : Nat) (v : Word) (b : Block) : Block :=
  if lanesOf b.run.variant = 0 then pf0Write 0 v rsvdWrite b
  else if off = 0x04 then laneFence v b
  else readOnly 9 off v b

/-- WDG registers: the keeper's are counted (R418). -/
def wdgWrite (off : Nat) (v : Word) (b : Block) : Block :=
  match off with
  | 0x000 | 0x004 | 0x008 | 0x100 => pf0Write 0 v rsvdWrite b
  | 0x104 => pf0Write 0 v (hostCfgWrite v.toNat) b
  | 0x108 => hostCheckin v .none false b
  | _ => readOnly 12 off v b

/-- EVR registers. -/
def evrWrite (off : Nat) (v recur : Word) (b : Block) : Block :=
  let n := v.toNat
  if off = 0x00 then pf0Write 0xFFE00000 v (fun b => b.onEvr (fun e => { e with notice := w1c e.notice (n % 256) recur.toNat })) b
  else if off = 0x04 then pf0Write 0xFFFFF8F8 v (fun b => b.onEvr (fun e => { e with alertSev := bits n 10 8, noticeSev := bits n 2 0 })) b
  else if 0x10 ≤ off ∧ off ≤ 0x2C then
    pf0Write 0xFFFF0000 v (fun b => b.onEvr (fun e => { e with rates := e.rates.set ((off - 0x10) / 4) (n % 65536) })) b
  else if off = 0x40 then pf0Write 0xFFFFFC00 v (fun b => b.onEvr (fun e => { e with sel := n % 1024 })) b
  else readOnly 13 off v b

/-- TMP registers: TMP_CFG_REQ is locked from PRODUCTION on (R400). -/
def tmpWrite (off : Nat) (v : Word) (b : Block) : Block :=
  if off = 0x08 then
    pf0Write 0x00000FC0 v (fun b =>
      if 3 ≤ b.run.lcs then b else b.onTmp (fun t => { t with cfgReq := word (v.toNat - (v.toNat &&& 0xFC0)) })) b
  else if off = 0x0C then cfgApply v b
  else readOnly 14 off v b

/-- A register of a block window. -/
def blockWrite (blk off : Nat) (v recur : Word) (b : Block) : Block :=
  match blk with
  | 0 => match off with
    | 0x100 => irqCauseWrite v recur b
    | 0x104 => irqEnableWrite v b
    | 0x400 => linkStatusWrite v recur b
    | 0x404 => linkCtrlWrite v b
    | _ => readOnly 0 off v b
  | 1 => match off with
    | 0x10 => unitCtrl v b
    | 0x14 => unitStatusWrite v recur b
    | _ => readOnly 1 off v b
  | 4 => fltWrite off v recur b
  | 6 => if off = 0x04 then vltCfgWrite v b else readOnly 6 off v b
  | 7 => dgeWrite false off v recur b
  | 8 => sceWrite off v b
  | 9 => steWrite off v b
  | 12 => wdgWrite off v b
  | 13 => evrWrite off v recur b
  | 14 => tmpWrite off v b
  | _ => readOnly blk off v b

/-! ### Queue pages (R209, R234, R235) -/

/-- The set-up registers of PF0's admin pair: locked while READY is 1. ENABLE is W1S and holds a state that a reset of PF0 clears: with bit 0 of
`recur` that reset falls into the access that sets the bit, and the set wins (R12). -/
def adminRegWrite (off : Nat) (v recur : Word) : Block → Block :=
  let n := v.toNat
  let put (f : AdminRegs → AdminRegs) (b : Block) : Block := b.onQ (fun q => if q.admin.ready then q else { q with admin := f q.admin })
  let lo (x : Nat) : Nat := x / 2 ^ 32 * 2 ^ 32 + n
  let hi (x : Nat) : Nat := n * 2 ^ 32 + x % 2 ^ 32
  match off with
  | 0x18 => pf0Write 0 v (put (fun a => { a with sqBase := lo a.sqBase }))
  | 0x1C => pf0Write 0 v (put (fun a => { a with sqBase := hi a.sqBase }))
  | 0x20 => pf0Write 0 v (put (fun a => { a with cqBase := lo a.cqBase }))
  | 0x24 => pf0Write 0 v (put (fun a => { a with cqBase := hi a.cqBase }))
  | 0x28 => pf0Write 0 v (put (fun a => { a with shadow := lo a.shadow }))
  | 0x2C => pf0Write 0 v (put (fun a => { a with shadow := hi a.shadow }))
  | 0x30 => pf0Write 0x7800E0E0 v (put (fun a => { a with cfg := word (n - (n &&& 0x7800E0E0)) }))
  | 0x34 => pf0Write 0xFFFFFFF8 v (fun b =>
      if bit n 0 then settleAll (adminEnable (if bit recur.toNat 0 then pf0Reset b else b)) else b)
  | _ => pf0Write 0 v rsvdWrite

/-- A register of a queue page as a function sees it; a page without a device queue number counts every write (R209, R505). -/
def pageWrite (fn page off : Nat) (v recur : Word) (b : Block) : Block :=
  let n := v.toNat
  let counted (m : Nat) (f : Nat → Block → Block) (b : Block) : Block :=
    barWrite fn (fun b =>
      if b.run.state = .frozen then rsvdWrite b
      else match pageDqn b fn page with
        | none => rsvdWrite b
        | some d => f d (if n &&& m ≠ 0 then rsvdWrite b else b)) b
  match off with
  | 0x00 => sqDoorbell fn page v b
  | 0x04 => cqHeadWrite fn page v b
  | 0x08 => counted 0xFFFFFF00 (fun d b => if bit n 5 && !bit recur.toNat 5 then onSq d (fun s => { s with dbIgnored := false }) b else b) b
  | 0x0C => counted 0x0000FFE0 (fun d b => if bit n 4 && !bit recur.toNat 4 then onCq d (fun c => { c with headInvalid := false }) b else b) b
  | 0x10 | 0x14 => counted 0 (fun _ b => b) b
  | _ => if fn = 0 ∧ page = 0 then adminRegWrite off v recur b else counted 0 (fun _ b => rsvdWrite b) b

/-! ### MSI-X structures (R193), also in FROZEN -/

/-- A word of an entry of the MSI-X table; clearing the mask bit sends what was pending. -/
def msixWrite (fn off : Nat) (v : Word) (b : Block) : Block :=
  let vec := off / 16
  let put (f : MsixEntry → MsixEntry) : Block → Block :=
    barWrite fn (fun b => onFn b fn (fun s => { s with msix := tset s.msix vec (f (msixEntry s vec)) }))
  match off % 16 / 4 with
  | 0 => put (fun e => { e with addr := e.addr / 2 ^ 32 * 2 ^ 32 + v.toNat }) b
  | 1 => put (fun e => { e with addr := v.toNat * 2 ^ 32 + e.addr % 2 ^ 32 }) b
  | 2 => put (fun e => { e with data := v }) b
  | _ => if bit v.toNat 0 then put (fun e => { e with mask := true }) b else msixUnmask fn vec b

/-! ### The basic level (R473 to R486) -/

/-- The lock registers of a sub-window; LSTATUS also renews a lease. -/
def legLockWrite (w off : Nat) (v recur : Word) (b : Block) : Block :=
  match off with
  | 0x0 => lockWrite w v b
  | 0x4 => unlockWrite w v b
  | _ =>
    let clears (i : Nat) : Bool := bit v.toNat i && !bit recur.toNat i
    pf0Write (if windowAbsent b w then 0 else 0x7F00FFF8) v (fun b =>
      if windowAbsent b w then rsvdWrite b
      else onLock w (fun l => { l with
        busy := l.busy && !clears 0, notHeld := l.notHeld && !clears 1, expired := l.expired && !clears 2 }) (renew w b)) b

/-- A set-up register of the session sub-window (RW); an open message goes on with the values that START took. -/
def legSetup (resv : Nat) (v : Word) (f : LegRegs → LegRegs) : Block → Block :=
  legWrite 1 resv v (fun b => b.onLeg (fun l => { l with regs := f l.regs }))

/-- The registers of the session sub-window. -/
def legScWrite (off : Nat) (v : Word) (b : Block) : Block :=
  let n := v.toNat
  if off = 0x10 then legWrite 1 0x5FFFFF00 v (legCtrl n) b
  else if off = 0x14 then legSetup 0 v (fun l => { l with handle := n }) b
  else if off = 0x18 then legSetup 0xFFFF0000 v (fun l => { l with param := n % 65536 }) b
  else if off = 0x1C then legSetup 0 v (fun l => { l with aadLen := n }) b
  else if off = 0x20 then legSetup 0 v (fun l => { l with len := n }) b
  else if 0x24 ≤ off ∧ off ≤ 0x30 then legSetup 0 v (fun l => { l with iv := patch l.iv (off - 0x24) (lePut 4 n) }) b
  else if 0x34 ≤ off ∧ off ≤ 0x40 then legSetup 0 v (fun l => { l with tag := patch l.tag (off - 0x34) (lePut 4 n) }) b
  else if off = 0x44 then legWrite 1 0 v (legDataIn v) b
  else if off = 0x48 ∨ off = 0x4C then pf0Write 0 v (fun b => if windowAbsent b 1 then rsvdWrite b else renew 1 b) b
  else pf0Write 0 v rsvdWrite b

/-- A register of LEG. -/
def legRegWrite (off : Nat) (v recur : Word) (b : Block) : Block :=
  let o := off % 0x1000
  match off / 0x1000 with
  | 0 => if o = 0 then pf0Write 0 v id b else pf0Write 0 v rsvdWrite b
  | 1 =>
    if o ≤ 0x08 then legLockWrite 0 o v recur b
    else if 0x10 ≤ o ∧ o ≤ 0x18 then dgeWrite true (o - 0x10) v recur b
    else if 0x40 ≤ o ∧ o ≤ 0x7C then pf0Write 0 v (renew 0) b
    else pf0Write 0 v rsvdWrite b
  | 2 => if o ≤ 0x08 then legLockWrite 1 o v recur b else legScWrite o v b
  | 3 =>
    if o ≤ 0x08 then legLockWrite 2 o v recur b
    else if o = 0x10 then pf0Write 0 v (renew 2) b
    else pf0Write 0 v rsvdWrite b
  | 4 => match o with
    | 0x0 => pf0Write 0 v id b
    | 0x4 => hostCheckin v .none false b
    | 0x8 => pf0Write 0xFFFF0000 v (hostCfgWrite (0x10000 + v.toNat % 65536)) b
    | _ => pf0Write 0 v rsvdWrite b
  | _ => pf0Write 0 v rsvdWrite b

/-! ### BAR0 -/

/-- A write of PF0's BAR0. -/
def pf0RegWrite (off : Nat) (v recur : Word) (b : Block) : Block :=
  if off < 0x1000000 then blockWrite (off / 65536) (off % 65536) v recur b
  else if off < 0x2000000 then pageWrite 0 ((off - 0x1000000) / 64) (off % 64) v recur b
  else if off < 0x2008000 then msixWrite 0 (off - 0x2000000) v b
  else if off < 0x3000000 then barWrite 0 id b
  else legRegWrite (off - 0x3000000) v recur b

/-- A write of a VF's BAR0 (R505). -/
def vfRegWrite (fn off : Nat) (v recur : Word) (b : Block) : Block :=
  if off < 0x80000 then pageWrite fn (off / 64) (off % 64) v recur b
  else if off < 0x88000 then msixWrite fn (off - 0x80000) v b
  else if off < 0x90000 then barWrite fn id b
  else barWrite fn rsvdWrite b

/-- A 32-bit write of BAR0. -/
def bar0Write (fn off : Nat) (v recur : Word) (b : Block) : Block :=
  if off % 4 ≠ 0 then badWidth fn true off 4 b
  else if fnEnabled b fn = false then unsupported 0 true b
  else if implemented fn off = false then unsupported fn true b
  else if fn = 0 then pf0RegWrite off v recur b
  else vfRegWrite fn off v recur b

/-! ### Configuration space (R188, R191 to R196; registers within a capability as PCI Express places them, PRESUMED, assumption 19) -/

/-- The header of an extended capability: ID, version, the next one. -/
def extCap (id version next : Nat) : Nat := fields [(id, 0), (version, 16), (next, 20)]

/-- AER uncorrectable status as it reads. -/
def aerStatus (a : Aer) : Nat :=
  fields [(b2n a.poisoned, aerPoisoned), (b2n a.timeout, aerTimeout), (b2n a.abort, aerAbort), (b2n a.unexpected, aerUnexpected),
    (b2n a.unsupported, aerUnsupported)]

/-- A device read of a function is outstanding (R203: Transactions Pending). -/
def pendingReads (b : Block) (fn : Nat) : Bool := b.work.reads.any (fun r => r.fn == fn)

/-- Device Control and Device Status: the sizes, Relaxed Ordering and error reporting of PF0 (R192); extended tags reported enabled; in the status,
correctable errors and unsupported requests latched in AER, and Transactions Pending. -/
def deviceWord (b : Block) (fn : Nat) : Nat :=
  let l := b.link
  let a := (fnOf b fn).aer
  let own := if fn = 0 then
      [(l.cfg.errEnable, 0), (b2n l.relaxedOrd, 4), (Nat.log2 (l.maxPayload / 128), 5), (1, 8), (Nat.log2 (l.maxReadReq / 128), 12)]
    else []
  fields (own ++ [(b2n (a.advisory || a.correctable != 0), 16), (b2n a.unsupported, 19), (b2n (pendingReads b fn), 21)])

/-- A word of the configuration header (R187 to R189). -/
def headerWord (b : Block) (fn off : Nat) : Nat :=
  let c := b.link.cfg
  match off with
  | 0x00 => if fn = 0 then devReg b 0 else 0x48101E5B
  | 0x04 => fields [(b2n (fnOf b fn).bme, 2), ((fnOf b fn).cmd, 0), (1, 20)]
  | 0x08 => 0x10800000 + Config.revisionId.toNat
  | 0x10 => if fn = 0 then c.bar0 % 2 ^ 32 + 4 else 0
  | 0x14 => if fn = 0 then c.bar0 / 2 ^ 32 else 0
  | 0x18 => if fn = 0 then c.bar2 % 2 ^ 32 + 0xC else 0
  | 0x1C => if fn = 0 then c.bar2 / 2 ^ 32 else 0
  | 0x2C => 0x00001E5B
  | 0x34 => 0x40
  | _ => 0

/-- A word of Power Management, PCI Express, MSI-X, AER, ARI, Device 3, which every function has (R191 to R193). -/
def commonWord (b : Block) (fn off : Nat) : Nat :=
  let c := b.link.cfg
  let f := fnOf b fn
  let pf := decide (fn = 0)
  match off with
  | 0x040 => 0x00035001
  | 0x044 => (if f.d3hot then 3 else 0) + 8
  | 0x050 => 0x80029010
  | 0x054 => fields [(2, 0), (1, 5), (1, 15), (1, 28)]
  | 0x058 => deviceWord b fn
  | 0x074 => fields [(3, 0), (1, 16), (1, 17)]
  | 0x078 => if pf then b.link.cplTimeout + 0x1000 else 0x1000
  | 0x080 => 0x04000000
  | 0x090 => fields [(0x11, 0), (2047, 16), (b2n f.funcMask, 30), (b2n f.msixEnable, 31)]
  | 0x094 => if pf then 0x02000000 else 0x80000
  | 0x098 => if pf then 0x02008000 else 0x88000
  | 0x100 => extCap 0x0001 2 0x148
  | 0x104 => aerStatus f.aer
  | 0x108 => if pf then c.aerMask else 0
  | 0x10C => if pf then c.aerSev else 0
  | 0x110 => fields [(f.aer.correctable, 0), (b2n f.aer.advisory, 13)]
  | 0x114 => if pf then c.aerCorMask else 0
  | 0x148 => extCap 0x000E 1 (if pf then 0x158 else 0x1C0)
  | 0x1C0 => extCap 0x002F 1 (if pf then 0x200 else 0)
  | 0x1C4 => 2
  | _ => (Config.configWord fn off).toNat

/-- A word of Access Control Services, SR-IOV, Data Object Exchange and the Krazenal capability, which PF0 alone has (R188, R189, R191, R195). -/
def pf0ConfigWord (b : Block) (off : Nat) : Nat :=
  let l := b.link
  let c := l.cfg
  match off with
  | 0x158 => extCap 0x000D 1 0x160
  | 0x15C => fields [(0x7F, 0), (c.acs, 16)]
  | 0x160 => extCap 0x0010 1 0x1A0
  | 0x168 => c.sriovCtl + b2n l.vfEnable
  | 0x16C => fields [(255, 0), (255, 16)]
  | 0x170 => l.numVfs
  | 0x174 => fields [(1, 0), (1, 16)]
  | 0x178 => 0x48100000
  | 0x17C => 0x553
  | 0x180 => c.pageSize
  | 0x184 => l.vfBar % 2 ^ 32 + 4
  | 0x188 => l.vfBar / 2 ^ 32
  | 0x18C | 0x190 | 0x194 | 0x198 | 0x19C => 0
  | 0x1A0 => extCap 0x002E 1 0x1C0
  | 0x1A8 => b2n c.doeIrq * 2
  | 0x1AC => fields [(b2n c.doeError, 2), (b2n (!c.doeOut.isEmpty), 31)]
  | 0x1B0 => 0
  | 0x1B4 => leAt c.doeOut 0 4
  | 0x200 => extCap 0x0023 1 0
  | 0x204 => fields [(0x1E5B, 0), (0x10, 20)]
  | 0x208 => 0
  | 0x20C => fields [(variantFuse b, 0), (devReg b 0x010 / 2 ^ 26 % 4, 4)]
  | _ => (Config.configWord 0 off).toNat

/-- A word of configuration space (R191); offsets outside the header and the capabilities that the function has read 0. -/
def configWord (b : Block) (fn off : Nat) : Nat :=
  let within (lo hi : Nat) : Bool := decide (lo ≤ off) && decide (off < hi)
  if off < 0x40 then headerWord b fn off
  else if within 0x40 0x48 || within 0x50 0x8C || within 0x90 0x9C || within 0x100 0x150 || within 0x1C0 0x1D0 then commonWord b fn off
  else if fn = 0 && (within 0x158 0x1B8 || within 0x200 0x210) then pf0ConfigWord b off
  else 0

/-- AER uncorrectable status, W1C. -/
def aerUncorrectable (v : Nat) (a : Aer) : Aer :=
  { a with
    poisoned := a.poisoned && !bit v 12, timeout := a.timeout && !bit v 14, abort := a.abort && !bit v 15,
    unexpected := a.unexpected && !bit v 16, unsupported := a.unsupported && !bit v 20 }

/-- AER correctable status, W1C. -/
def aerCorrectable (v : Nat) (a : Aer) : Aer :=
  { a with advisory := a.advisory && !bit v 13, correctable := a.correctable - (a.correctable &&& v) }

/-- Change PF0's configuration registers. -/
def onCfg (f : PciCfg → PciCfg) (b : Block) : Block := b.onLink (fun l => { l with cfg := f l.cfg })

/-- The SR-IOV controls of PF0: NumVFs is taken while VF Enable is clear; a write of either moves every locked TDI to ERROR (R196). -/
def sriovWrite (off v : Nat) (b : Block) : Block :=
  let b := configViolation 0 b
  match off with
  | 0x168 =>
    let b := onCfg (fun c => { c with sriovCtl := v &&& 0x18 }) b
    if bit v 0 then b.onLink (fun l => { l with vfEnable := true }) else vfEnableClear b
  | 0x170 => b.onLink (fun l => if l.vfEnable ∨ 255 < v % 65536 then l else { l with numVfs := v % 65536 })
  | 0x184 => b.onLink (fun l => { l with vfBar := l.vfBar / 2 ^ 32 * 2 ^ 32 + v / 2 ^ 20 * 2 ^ 20 })
  | 0x188 => b.onLink (fun l => { l with vfBar := v * 2 ^ 32 + l.vfBar % 2 ^ 32 })
  | _ => b

/-- Device Control: payload and read sizes and Relaxed Ordering of PF0 govern every function (R192); the top bit starts a function-level
reset. -/
def devCtrlWrite (fn v : Nat) (b : Block) : Block :=
  let b := if fn ≠ 0 then b
    else b.onLink (fun l => { l with
      maxPayload := 128 * 2 ^ min 2 (bits v 7 5), maxReadReq := 128 * 2 ^ min 5 (bits v 14 12), relaxedOrd := bit v 4
      cfg := { l.cfg with errEnable := v % 16 } })
  if bit v 15 then settleAll (if fn = 0 then pf0Reset b else vfReset fn b) else b

/-- A 64-bit address register with one half written, and the bits below its size 0. -/
def barHalf (size : Nat) (high : Bool) (v old : Nat) : Nat :=
  (if high then v * 2 ^ 32 + old % 2 ^ 32 else old / 2 ^ 32 * 2 ^ 32 + v) / size * size

/-- The DOE mailbox (R195): a word of an object, GO, Abort, the interrupt enable, the pop of a word read. -/
def doeWrite (off v : Nat) (b : Block) : Block :=
  match off with
  | 0x1A8 =>
    let b := onCfg (fun c => { c with doeIrq := bit v 1 }) b
    if bit v 0 then onCfg (fun c => { c with doeIn := [], doeOut := [], doeError := false }) b
    else if bit v 31 then doeGo b else b
  | 0x1B0 => onCfg (fun c => { c with doeIn := c.doeIn ++ lePut 4 v }) b
  | 0x1B4 => onCfg (fun c => { c with doeOut := c.doeOut.drop 4 }) b
  | _ => b

/-- Registers of PF0 alone: BARs (R189), AER masks and severity, ACS, System Page Size, the DOE mailbox. -/
def pf0ConfigWrite (off n : Nat) (b : Block) : Block :=
  match off with
  | 0x10 => onCfg (fun c => { c with bar0 := barHalf (2 ^ 26) false n c.bar0 }) b
  | 0x14 => onCfg (fun c => { c with bar0 := barHalf (2 ^ 26) true n c.bar0 }) b
  | 0x18 => onCfg (fun c => { c with bar2 := barHalf (2 ^ 31) false n c.bar2 }) b
  | 0x1C => onCfg (fun c => { c with bar2 := barHalf (2 ^ 31) true n c.bar2 }) b
  | 0x108 => onCfg (fun c => { c with aerMask := n &&& 0x11D000 }) b
  | 0x10C => onCfg (fun c => { c with aerSev := n &&& 0x057FF030 }) b
  | 0x114 => onCfg (fun c => { c with aerCorMask := n &&& 0x31C1 }) b
  | 0x15C => onCfg (fun c => { c with acs := n / 2 ^ 16 % 128 }) b
  | 0x180 => onCfg (fun c => { c with pageSize := n }) b
  | 0x1A8 | 0x1B0 | 0x1B4 => doeWrite off n b
  | _ => b

/-- A write of configuration space. -/
def configWrite (fn off : Nat) (v : Word) (b : Block) : Block :=
  let n := v.toNat
  if fnEnabled b fn = false then unsupported 0 false b
  else
    let b := if fn ≠ 0 ∧ (off = 0x04 ∨ (0x10 ≤ off ∧ off ≤ 0x24) ∨ off = 0x90) then configViolation fn b else b
    if off = 0x04 then busMaster fn (bit n 2) (if fn = 0 then onFn b 0 (fun f => { f with cmd := n &&& 0x542 }) else b)
    else if off = 0x44 then (if n % 4 = 3 then powerState fn true b else if n % 4 = 0 then powerState fn false b else b)
    else if off = 0x58 then devCtrlWrite fn n b
    else if off = 0x78 ∧ fn = 0 then b.onLink (fun l => { l with cplTimeout := if [0, 1, 2, 5, 6].contains (n % 16) then n % 16 else l.cplTimeout })
    else if off = 0x90 then
      let b := onFn b fn (fun f => { f with msixEnable := bit n 31, funcMask := bit n 30 })
      (fnOf b fn).pba.foldl (fun b vec => msixRelease fn vec b) b
    else if off = 0x104 then noteAer fn (aerUncorrectable n) b
    else if off = 0x110 then noteAer fn (aerCorrectable n) b
    else if fn = 0 ∧ (off = 0x168 ∨ off = 0x170 ∨ (0x184 ≤ off ∧ off ≤ 0x198)) then sriovWrite off n b
    else if fn = 0 then pf0ConfigWrite off n b
    else b

/-! ### Reads of BAR0 (R14, R204, R450, R473, R501 to R505) -/

/-- Milliseconds of a lease that remain, a part counted whole. -/
def leaseLeft (b : Block) (l : LegLock) : Nat :=
  if l.holder.isSome then min 100 (ceilDiv (100000 - (b.time.usec - l.renewed)) 1000) else 0

/-- LSTATUS of a sub-window, at the moment of the read, before the read itself restarts the lease (DESIGN CHOICE, assumption 19). -/
def lstatus (b : Block) (w : Nat) : Nat :=
  let l := lockOf b w
  fields [(b2n l.busy, 0), (b2n l.notHeld, 1), (b2n l.expired, 2), (leaseLeft b l, 16), (b2n l.holder.isSome, 31)]

/-- LEG_SC_STATUS. -/
def legScStatus (b : Block) : Nat :=
  let l := b.leg
  fields [(b2n (l.busy || l.startDue), 0), (b2n l.done, 1), (b2n (l.session.holder.isSome && l.core.isNone), 2), (b2n l.zeroed, 3),
    (if l.busy then min 63 (legSpace l) else 0, 4), (min 63 (legAvail l), 10), (l.result, 16)]

/-- A set-up register of the session sub-window as it reads; command bits read 0. -/
def legSetupReg (r : LegRegs) (off : Nat) : Nat :=
  if off = 0x10 then r.opcode
  else if off = 0x14 then r.handle
  else if off = 0x18 then r.param
  else if off = 0x1C then r.aadLen
  else if off = 0x20 then r.len
  else if 0x24 ≤ off ∧ off ≤ 0x30 then leAt r.iv (off - 0x24) 4
  else if 0x34 ≤ off ∧ off ≤ 0x40 then leAt r.tag (off - 0x34) 4
  else 0

/-- A register of a locked sub-window beside its data registers: the lock registers, read whether the lock is held or not; a read renews the lease
(R475). The sub-window of an absent unit reads 0 (R8, R473). -/
def legLockRead (w off : Nat) (b : Block) : Nat × Block :=
  if windowAbsent b w then (0, b)
  else
    let v := match off with
      | 0x0 => ((lockOf b w).holder.getD 0).toNat
      | 0x8 => lstatus b w
      | _ => 0
    (v, renew w b)

/-- A read of a register of LEG. -/
def legRegRead (off : Nat) (b : Block) : Nat × Block :=
  let o := off % 0x1000
  match off / 0x1000 with
  | 0 => (if o = 0 then 0x00400048 else 0, b)
  | 1 =>
    if o = 0x10 ∨ o = 0x14 then legData 0 (fun b => (dgeReg b (o - 0x10), b)) b
    else if 0x40 ≤ o ∧ o ≤ 0x7C then rmResult true ((o - 0x40) / 4) b
    else legLockRead 0 o b
  | 2 =>
    if o = 0x48 then legData 1 legDataOut b
    else if o = 0x4C then (if windowAbsent b 1 then 0 else legScStatus b, if windowAbsent b 1 then b else renew 1 b)
    else if 0x10 ≤ o ∧ o ≤ 0x40 then legData 1 (fun b => (legSetupReg b.leg.regs o, b)) b
    else legLockRead 1 o b
  | 3 => if o = 0x10 then legData 2 legRng b else legLockRead 2 o b
  | 4 => (if o = 0 then wdgKey b true 0 else 0, b)
  | 5 => (if o = 0 then bootStatus b else if o = 4 then bootOrder b else 0, b)
  | _ => (0, b)

/-- A register of a block window as PF0 reads it: in FROZEN only DEV, LCS and TMP answer, the others read 0 (R204, R504); reads that latch, draw or
mark (R359, R374, R450) do so. -/
def pf0Reg (off : Nat) (b : Block) : Nat × Block :=
  let blk := off / 0x10000
  if b.run.state = .frozen ∧ blk ≠ 0 ∧ blk ≠ 2 ∧ blk ≠ 14 then (0, b)
  else if 0x70040 ≤ off ∧ off ≤ 0x7007C then rmResult false ((off - 0x70040) / 4) b
  else if off = 0xB0100 then rngRaw b
  else (blockReg b off, latchHi off b)

/-- A word of the MSI-X table (R193). -/
def msixWord (b : Block) (fn off : Nat) : Nat :=
  let e := msixEntry (fnOf b fn) (off / 16)
  match off % 16 / 4 with
  | 0 => e.addr % 2 ^ 32
  | 1 => e.addr / 2 ^ 32
  | 2 => e.data.toNat
  | _ => b2n e.mask

/-- A word of the MSI-X pending bit array (R193). -/
def pbaWord (b : Block) (fn off : Nat) : Nat :=
  maskOf ((List.range 32).map (fun i => (fnOf b fn).pba.contains (off / 4 * 32 + i)))

/-- A word of PF0's BAR0. -/
def pf0Word (off : Nat) (b : Block) : Nat × Block :=
  if off < 0x1000000 then pf0Reg off b
  else if off < 0x2000000 then (pageReg b 0 ((off - 0x1000000) / 64) (off % 64), b)
  else if off < 0x2008000 then (msixWord b 0 (off - 0x2000000), b)
  else if off < 0x3000000 then (pbaWord b 0 (off - 0x2008000), b)
  else if b.run.state = .frozen then (0, b)
  else legRegRead (off - 0x3000000) b

/-- A word of a VF's BAR0 (R505). -/
def vfWord (fn off : Nat) (b : Block) : Nat × Block :=
  if off < 0x80000 then (pageReg b fn (off / 64) (off % 64), b)
  else if off < 0x88000 then (msixWord b fn (off - 0x80000), b)
  else if off < 0x90000 then (pbaWord b fn (off - 0x88000), b)
  else (vfStatus b fn (off - 0x90000), b)

/-- A word of a function's BAR0. -/
def barWord (fn off : Nat) (b : Block) : Nat × Block := if fn = 0 then pf0Word off b else vfWord fn off b

/-- A host read of BAR0: 32 bits, or 64 bits taken as two reads of 32, the lower address first (R14). -/
def barRead (fn off : Nat) (wide : Bool) (b : Block) : Block :=
  if off % (if wide then 8 else 4) ≠ 0 then badWidth fn false off (if wide then 8 else 4) b
  else if fnEnabled b fn = false ∨ (fnOf b fn).d3hot = true ∨ implemented fn off = false then
    unsupported (if fnEnabled b fn then fn else 0) false b
  else
    let p := barWord fn off b
    if wide then
      let q := barWord fn (off + 4) p.2
      reply fn .success (lePut 4 p.1 ++ lePut 4 q.1) q.2
    else reply fn .success (lePut 4 p.1) p.2

/-- A read of configuration space. -/
def configRead (fn off : Nat) (b : Block) : Block :=
  if fnEnabled b fn = false then unsupported 0 false b else reply fn .success (lePut 4 (configWord b fn (off / 4 * 4))) b

/-! ### The commands -/

/-- DEV_IRQ_CAUSE_WRITE (R509). -/
def execDevIrqCauseWrite (value recur : Word) (s : State) : Host.Outcome State Fault Refusal :=
  .next { s with blk := irqCauseWrite value recur s.blk }

/-- DEV_IRQ_ENABLE_WRITE (R509). -/
def execDevIrqEnableWrite (value : Word) (s : State) : Host.Outcome State Fault Refusal :=
  .next { s with blk := irqEnableWrite value s.blk }

/-- A register write in its space. A 64-bit write of BAR0 brings its upper word in `high`, and is taken as two writes of 32 bits, the lower address
first (R14). -/
def registerWrite (fn : Nat) (space : RegSpace) (off : Nat) (value : Word) (rest : WriteRest) (b : Block) : Block :=
  match space, rest.high with
  | .bar0, none => bar0Write fn off value rest.recur b
  | .bar0, some h =>
    if off % 8 ≠ 0 then badWidth fn true off 8 b else bar0Write fn (off + 4) h.1 h.2 (bar0Write fn off value rest.recur b)
  | .config, _ => configWrite fn off value b

/-- REGISTER_WRITE (R11). -/
def execRegisterWrite (fn : Nat) (space : RegSpace) (off : Nat) (value : Word) (rest : WriteRest) (s : State) :
    Host.Outcome State Fault Refusal :=
  .next { s with blk := registerWrite fn space off value rest s.blk }

/-- A host read in its space. -/
def registerRead (r : RegRead) (b : Block) : Block :=
  match r.space with
  | .bar0 => barRead r.fn r.off r.wide b
  | .config => configRead r.fn r.off b

/-- LATCHING_LO_READ (R450): a read of a _LO register of a 64-bit counter, which latches its _HI. The table of commands has no row for the other
reads of registers without an effect of their own; this command carries them too (DESIGN CHOICE, assumption 19). -/
def execLatchingLoRead (read : RegRead) (s : State) : Host.Outcome State Fault Refusal :=
  .next { s with blk := registerRead read s.blk }

end Sys2Proof.Machine
end

