-- ==== Sys2Proof/Machine/Monitor.lean ====
section
/-! DEFINITION. The Scasyn monitor and the sideband port: autobaud, breaks, line mode, the monitor commands, SMBus and I3C (R488 to R500,
R521). -/

namespace Sys2Proof.Machine

/-! ### The UART (R488, R489, R491) -/

/-- The supported rates in the order of BAUD. -/
def uartRates : List Nat := [115200, 230400, 460800, 921600, 1000000, 1500000, 2000000, 3000000]

/-- A measured rate is within 3% of a supported one. -/
def nearRate (rate r : Nat) : Bool := decide (97 * r ≤ 100 * rate) && decide (100 * rate ≤ 103 * r)

/-- The BAUD code of a measured rate. -/
def baudOf (rate : Nat) : Option Nat := ((List.range 8).find? (fun i => nearRate rate (uartRates.getD i 0))).map (· + 1)

/-- An autobaud character with its measured rate, while no rate is locked. Under SERIAL Thaw the mode is framed at once (R498). -/
def autobaud (rate : Nat) (b : Block) : Block :=
  if b.run.state = .reset ∨ b.mon.baud ≠ 0 then b
  else match baudOf rate with
    | none => badFrame b
    | some n => b.onMon (fun m =>
        if m.owner = 1 then { m with baud := n, mode := .framed, fresh := false } else { m with baud := n, mode := .autobaud, fresh := true })

/-- AUTOBAUD (R488). -/
def execAutobaud (rate : Nat) (s : State) : Host.Outcome State Fault Refusal := .next { s with blk := autobaud rate s.blk }

/-- A break unlocks the rate and drops the reply of a running command, which still runs to its end. -/
def breakLine (b : Block) : Block :=
  b.onMon (fun m => { m with baud := 0, mode := .autobaud, fresh := false, reply := m.running.isNone })

/-- BREAK (R489). -/
def execBreakChar (s : State) : Host.Outcome State Fault Refusal := .next { s with blk := breakLine s.blk }

/-- A frame whose bytes are more than 10 ms apart is discarded and counted. -/
def frameGap (b : Block) : Block := if takesFrame b then badFrame (intoFramed b) else b

/-- FRAME_GAP_TIMEOUT (R491). -/
def execFrameGapTimeout (s : State) : Host.Outcome State Fault Refusal := .next { s with blk := frameGap s.blk }

/-! ### The commands that lines and frames share (R493) -/

/-- What a monitor command gives: its data; a payload out of range; no service by the present server; a reply that follows later. -/
inductive MonAnswer where
  | data (bs : Bytes) | malformed | notServed | later
  deriving DecidableEq, Repr

/-- Every request code of R493. -/
def monCodes : List Nat :=
  [0x30, 0x31, 0x32, 0x33, 0x34, 0x10, 0x11, 0x12, 0x13, 0x40, 0x3F, 0x01, 0x02, 0x03, 0x04, 0x20, 0x21, 0x22, 0x50, 0x51, 0x52]

/-- HELP: the codes that the current state answers. -/
def monHelp (b : Block) : Bytes := (monCodes.filter (fun c => refusal b c == 0)).flatMap (lePut 1)

/-- STATUS: eight words. -/
def monStatusWords (b : Block) : List Nat :=
  [stateCode b.run.state, b2n b.run.keysLocked, lcsStateReg b, bootStatus b, tmpStatus b, pwrStatus b, resetCause b, monStatus b]

/-- IDENT: die identities, the vault die's as read, VARIANT, UEID. In BLANK, before the DeviceID exists, the UEID is left open. -/
def monIdent (b : Block) : Bytes × Block :=
  let words := [0x20010, 0x20014, 0x20018, 0x20030, 0x20034, 0x20038].map (blockReg b) ++ [variantFuse b]
  let r := if b.run.lcs = 0 ∧ b.key.deviceIdCdi = none then freeBytes 33 b else (ueid b, b)
  (words.flatMap (lePut 4) ++ r.1, r.2)

/-- One 32-bit read of READ. DGE_RM_RESULTn return 0 without effect; other reads act as R374 and R450 say. -/
def monRead (off : Nat) (b : Block) : Nat × Block :=
  if 0x70040 ≤ off ∧ off ≤ 0x7007C then (0, b)
  else if off = 0xB0100 then rngRaw b
  else (blockReg b off, latchHi off b)

/-- The windows that ROM serves READ in (R494). -/
def romWindow (off : Nat) : Bool := decide (off < 0x40000) || (decide (0xE0000 ≤ off) && decide (off < 0xF0000))

/-- READ: an offset and, when given, a count of 1 to 64. -/
def monReads (p : Bytes) (b : Block) : MonAnswer × Block :=
  let off := leAt p 0 4
  let n := if p.length = 4 then 1 else leAt p 4 4
  if (p.length ≠ 4 ∧ p.length ≠ 8) ∨ n < 1 ∨ 64 < n ∨ off % 4 ≠ 0 ∨ 0x1000000 < off + 4 * n then (.malformed, b)
  else if (romServes b || b.boot.katFail) = true ∧ ¬ ((List.range n).all (fun i => romWindow (off + 4 * i)) = true) then (.notServed, b)
  else
    let r := (List.range n).foldl (fun (r : Bytes × Block) i => let q := monRead (off + 4 * i) r.2; (r.1 ++ lePut 4 q.1, q.2)) ([], b)
    (.data r.1, r.2)

/-- CELL: the bytes of an event cell. -/
def monCell (p : Bytes) (b : Block) : MonAnswer :=
  if p.length ≠ 2 ∨ 1023 < leAt p 0 2 then .malformed else .data (cellBytes (leAt p 0 2) (evCell b (leAt p 0 2)))

/-- One register write as PF0, whatever PF0's power state. -/
def monWrite (p : Bytes) (b : Block) : MonAnswer × Block :=
  let off := leAt p 0 4
  if p.length ≠ 8 ∨ 0x100000 ≤ off then (.malformed, b)
  else
    let d3 := (fnOf b 0).d3hot
    let b := bar0Write 0 off (word (leAt p 4 4)) 0 (onFn b 0 (fun f => { f with d3hot := false }))
    (.data [], onFn b 0 (fun f => { f with d3hot := d3 }))

/-- UNITRST: as PWR_UNIT_CTRL; the reply waits for DONE. TAG 256 is a line's. -/
def monUnit (tag : Nat) (p : Bytes) (b : Block) : MonAnswer × Block :=
  if p.length ≠ 2 then (.malformed, b)
  else (.later, unitGo (leAt p 0 1) (leAt p 1 1) (b.onMon (fun m => { m with running := some (0x51, tag, 0), reply := true })))

/-- KLOG: the 16 KiB of the diagnostic ring, whose contents the spec does not give. -/
def klogBytes : Bytes := (List.range 16384).map Config.klogByte

/-- A command by its code and payload. -/
def monCommand (code tag : Nat) (p : Bytes) (b : Block) : MonAnswer × Block :=
  match code with
  | 0x30 => if p = [] then (.data (monHelp b), b) else (.malformed, b)
  | 0x31 => if p = [] then (.data ((monStatusWords b).flatMap (lePut 4)), b) else (.malformed, b)
  | 0x32 => if p = [] then (let r := monIdent b; (.data r.1, r.2)) else (.malformed, b)
  | 0x33 => monReads p b
  | 0x34 => (monCell p b, b)
  | 0x3F => if p = [] then (.data [], b) else (.malformed, b)
  | 0x50 => monWrite p b
  | 0x51 => monUnit tag p b
  | 0x52 => if p = [] then (.data klogBytes, b) else (.malformed, b)
  | _ => (.malformed, b)

/-- FRAMED and its code 0x3F switch the mode once they have been answered (R489). -/
def switchMode (code : Nat) (mode : MonMode) (a : MonAnswer) (b : Block) : Block :=
  if code = 0x3F ∧ a = .data [] then b.onMon (fun m => { m with mode := mode, fresh := false }) else b

/-! ### Frames -/

/-- A command of R493 in a frame. -/
def monFrame (code : Nat) (body : Bytes) (b : Block) : Block :=
  frameRun code body (fun tag p b =>
    let r := monCommand code tag p b
    switchMode code .line r.1 (match r.1 with
      | .data bs => countFrame (uartReply code tag 0 bs r.2)
      | .malformed => uartReply code tag 3 [] r.2
      | .notServed => refuseFrame code tag 4 r.2
      | .later => r.2)) b

/-- Commands that the monitor accepts in an HSM block; LCS_ADVANCE in BLANK and TEST. -/
def monAccepts (b : Block) (command : Nat) : Bool :=
  [0x0010, 0x0001, 0x0002, 0x0003, 0x0050, 0x0051, 0x0052, 0x0053, 0x0071].contains command || (command == 0x0011 && decide (b.run.lcs ≤ 1))

/-- An HSM block: the keeper takes it as a command of the monitor, in world 0; one that the monitor may not send gives 0x0503. -/
def monHsm (tag : Nat) (p : Bytes) (b : Block) : Block :=
  let id := b.work.nextJob
  let b := b.onWork (fun w => { w with nextJob := w.nextJob + 1 })
  let b := countFrame (b.onMon (fun m => { m with running := some (0x40, tag, id), reply := true }))
  if blockBad p = none ∧ monAccepts b (bkCommand p) = false then monitorHsmDone id stHsmError 0x0503 0 [] b
  else takeBlock id .monitor false p b

/-! ### Lines (R490) -/

/-- The line as edited: 0x08 and 0x7F delete. -/
def editLine (text : Bytes) : Bytes := text.foldl (fun l c => if c = 0x08 ∨ c = 0x7F then l.dropLast else l ++ [c]) []

/-- A character in upper case. -/
def upperByte (c : Byte) : Byte := if 0x61 ≤ c.toNat ∧ c.toNat ≤ 0x7A then c - 0x20 else c

/-- The words of a line. -/
def lineWords (l : Bytes) : List Bytes :=
  let r := l.foldl (fun (r : List Bytes × Bytes) c => if c = 0x20 then (if r.2.isEmpty then r else (r.1 ++ [r.2], [])) else (r.1, r.2 ++ [upperByte c]))
    ([], [])
  if r.2.isEmpty then r.1 else r.1 ++ [r.2]

/-- The value of a hexadecimal digit. -/
def digitOfHex (c : Byte) : Option Nat :=
  if 0x30 ≤ c.toNat ∧ c.toNat ≤ 0x39 then some (c.toNat - 0x30) else if 0x41 ≤ c.toNat ∧ c.toNat ≤ 0x46 then some (c.toNat - 0x37) else none

/-- A hexadecimal number of at most 8 digits. -/
def hexNumber (w : Bytes) : Option Nat :=
  if w.isEmpty ∨ 8 < w.length then none
  else w.foldl (fun n c => match n, digitOfHex c with
    | some n, some d => some (16 * n + d)
    | _, _ => none) (some 0)

/-- The line commands. -/
def lineNames : List (Bytes × Nat) :=
  [(ascii "HELP", 0x30), (ascii "STATUS", 0x31), (ascii "IDENT", 0x32), (ascii "READ", 0x33), (ascii "CELL", 0x34), (ascii "FRAMED", 0x3F),
   (ascii "WRITE", 0x50), (ascii "UNITRST", 0x51), (ascii "KLOG", 0x52)]

/-- The payload that the arguments of a line command stand for. -/
def linePayload (code : Nat) (args : List (Option Nat)) : Option Bytes :=
  match code, args with
  | 0x33, [some off] => some (lePut 4 off)
  | 0x33, [some off, some n] => some (lePut 4 off ++ lePut 4 n)
  | 0x34, [some n] => if n ≤ 0xFFFF then some (lePut 2 n) else none
  | 0x50, [some off, some v] => some (lePut 4 off ++ lePut 4 v)
  | 0x51, [some u, some i] => if u ≤ 0xFF ∧ i ≤ 0xFF then some (lePut 1 u ++ lePut 1 i) else none
  | 0x30, [] | 0x31, [] | 0x32, [] | 0x3F, [] | 0x52, [] => some []
  | _, _ => none

/-- The names of R492. -/
def statusName (st : Nat) : Bytes :=
  ascii (match st with
    | 1 => "LOCKED"
    | 2 => "UNKNOWN"
    | 3 => "MALFORMED"
    | 4 => "NOT_SERVED"
    | 5 => "BUSY"
    | 6 => "THAW_OWNED"
    | _ => "OK")

/-- An error line. -/
def lineError (name : Bytes) : List Bytes := [ascii "E " ++ name]

/-- Lines of data: HELP names its commands, STATUS and READ print words, the others bytes. -/
def dataLines (code : Nat) (bs : Bytes) : List Bytes :=
  if code = 0x30 then ascii "OK" :: (lineNames.filter (fun n => bs.contains (BitVec.ofNat 8 n.2))).map (·.1)
  else if code = 0x31 ∨ code = 0x33 then ascii "OK" :: (chunks 4 bs).map (fun w => hexPut 8 (leNat w))
  else ascii "OK" :: (chunks 32 bs).map (fun l => l.flatMap (fun x => hexPut 2 x.toNat))

/-- Send the lines of an answer. -/
def sayLines (lines : List Bytes) (b : Block) : Block := send (.uart (lineAnswer lines)) b

/-- A refused line. -/
def refuseLine (st : Nat) (b : Block) : Block :=
  let b := if st = 1 ∨ st = 4 ∨ st = 6 then b.onMon (fun m => { m with refused := sat32 (m.refused + 1) }) else b
  sayLines (lineError (statusName st)) b

/-- Carry out a line. -/
def lineRun (line : Bytes) (b : Block) : Block :=
  match lineWords line with
  | [] => refuseLine 2 b
  | w :: args =>
    match (lineNames.find? (fun n => n.1 == w)).map (·.2) with
    | none => refuseLine (if b.mon.running.isSome then 5 else 2) b
    | some code =>
      match refusal b code with
      | 0 => match linePayload code (args.map hexNumber) with
        | none => refuseLine 3 b
        | some p =>
          let r := monCommand code 256 p b
          switchMode code .framed r.1 (match r.1 with
            | .data bs => countFrame (sayLines (dataLines code bs) r.2)
            | .malformed => refuseLine 3 r.2
            | .notServed => refuseLine 4 r.2
            | .later => r.2)
      | st => refuseLine st b

/-- A line ended by 0x0D: the UART is locked, and it is in line mode or chooses it now; each character is echoed. SERIAL Thaw discards it
(R498). -/
def takeLine (text : Bytes) (b : Block) : Block :=
  if b.run.state = .reset ∨ b.mon.baud = 0 ∨ b.mon.owner = 1 ∨ ¬ (b.mon.mode = .line ∨ (b.mon.fresh = true ∧ text.head? ≠ some 0x7E)) then b
  else
    let b := send (.uart (text ++ [0x0D])) (b.onMon (fun m => { m with mode := .line, fresh := false }))
    if 128 < (editLine text).length then sayLines (lineError (ascii "LONG")) b else lineRun (editLine text) b

/-- MONITOR_LINE (R490). -/
def execMonitorLine (text : Bytes) (s : State) : Host.Outcome State Fault Refusal := .next { s with blk := takeLine text s.blk }

/-! ### The commands -/

/-- HELP (R493). -/
def execHelp (body : Bytes) (s : State) : Host.Outcome State Fault Refusal := .next { s with blk := monFrame 0x30 body s.blk }
/-- STATUS (R493). -/
def execStatus (body : Bytes) (s : State) : Host.Outcome State Fault Refusal := .next { s with blk := monFrame 0x31 body s.blk }
/-- IDENT (R493). -/
def execIdent (body : Bytes) (s : State) : Host.Outcome State Fault Refusal := .next { s with blk := monFrame 0x32 body s.blk }
/-- READ (R493). -/
def execRead (body : Bytes) (s : State) : Host.Outcome State Fault Refusal := .next { s with blk := monFrame 0x33 body s.blk }
/-- CELL (R493). -/
def execCell (body : Bytes) (s : State) : Host.Outcome State Fault Refusal := .next { s with blk := monFrame 0x34 body s.blk }
/-- HSM_BLOCK (R493). -/
def execHsmBlock (body : Bytes) (s : State) : Host.Outcome State Fault Refusal :=
  .next { s with blk := frameRun 0x40 body monHsm s.blk }
/-- FRAMED (R489): code 0x3F. -/
def execFramed (body : Bytes) (s : State) : Host.Outcome State Fault Refusal := .next { s with blk := monFrame 0x3F body s.blk }
/-- WRITE (R493). -/
def execWrite (body : Bytes) (s : State) : Host.Outcome State Fault Refusal := .next { s with blk := monFrame 0x50 body s.blk }
/-- UNITRST (R493). -/
def execUnitrst (body : Bytes) (s : State) : Host.Outcome State Fault Refusal := .next { s with blk := monFrame 0x51 body s.blk }
/-- KLOG (R493). -/
def execKlog (body : Bytes) (s : State) : Host.Outcome State Fault Refusal := .next { s with blk := monFrame 0x52 body s.blk }

/-! ### The sideband port (R51, R521) -/

/-- SMBUS_CLOCK_LOW_TIMEOUT (R521): the device releases the bus; no transfer is kept. -/
def execSmbusClockLowTimeout (s : State) : Host.Outcome State Fault Refusal := .next s

/-- The I3C static address. -/
def staticAddress (b : Block) : Nat := 0x30 + bits b.pins.straps 7 5

/-- ENTDAA, or SETDASA to the static address, in I3C mode. -/
def takeAddress (setdasa : Bool) (target addr : Nat) (b : Block) : Block :=
  if mctpUp b = false ∨ bit b.pins.straps 2 = false ∨ (setdasa = true ∧ target ≠ staticAddress b) ∨ b.sb.dynAddr.isSome = true then b
  else b.onSb (fun x => { x with dynAddr := some (addr % 128) })

/-- DYNAMIC_ADDRESS_ASSIGNMENT (R521). -/
def execDynamicAddressAssignment (setdasa : Bool) (target addr : Nat) (s : State) : Host.Outcome State Fault Refusal :=
  .next { s with blk := takeAddress setdasa target addr s.blk }

end Sys2Proof.Machine
end

