-- ==== Sys2Proof/Machine/Dispatch.lean ====
section
/-! DEFINITION. Which meaning each command has: one arm per constructor. -/

namespace Sys2Proof.Machine

/-- The effect of a command on everything but the queue of waiting commands. -/
def exec (i : Instr) (s : State) : Host.Outcome State Fault Refusal :=
  match i with
  | .supplyThresholdCrossing supply crossing => Sys2Proof.Machine.execSupplyThresholdCrossing supply crossing s
  | .powerGoodFall => Sys2Proof.Machine.execPowerGoodFall s
  | .romEntry env => Sys2Proof.Machine.execRomEntry env s
  | .hostRelease => Sys2Proof.Machine.execHostRelease s
  | .sysRstNRecognised => Sys2Proof.Machine.execSysRstNRecognised s
  | .sysRstNRise => Sys2Proof.Machine.execSysRstNRise s
  | .vbatLow mv => Sys2Proof.Machine.execVbatLow mv s
  | .sfdpTimeout flash => Sys2Proof.Machine.execSfdpTimeout flash s
  | .flashOpComplete port data ok => Sys2Proof.Machine.execFlashOpComplete port data ok s
  | .listenWindowExpiry flash => Sys2Proof.Machine.execListenWindowExpiry flash s
  | .thawOffer via flash => Sys2Proof.Machine.execThawOffer via flash s
  | .thawChunk part => Sys2Proof.Machine.execThawChunk part s
  | .thawEnd via flash => Sys2Proof.Machine.execThawEnd via flash s
  | .thawStatus via => Sys2Proof.Machine.execThawStatus via s
  | .thawOfferTimeout => Sys2Proof.Machine.execThawOfferTimeout s
  | .rootRevoke job => Sys2Proof.Machine.execRootRevoke job s
  | .bootActivate job flash => Sys2Proof.Machine.execBootActivate job flash s
  | .lcsGetNonce job => Sys2Proof.Machine.execLcsGetNonce job s
  | .lcsAdvance job => Sys2Proof.Machine.execLcsAdvance job s
  | .lcsDrainComplete took => Sys2Proof.Machine.execLcsDrainComplete took s
  | .transitionReset => Sys2Proof.Machine.execTransitionReset s
  | .tokenRootRevoke job => Sys2Proof.Machine.execTokenRootRevoke job s
  | .otpProgram job => Sys2Proof.Machine.execOtpProgram job s
  | .nonceExpiry => Sys2Proof.Machine.execNonceExpiry s
  | .hostBootWindowRead off len => Sys2Proof.Machine.execHostBootWindowRead off len s
  | .bootWindowWrite off => Sys2Proof.Machine.execBootWindowWrite off s
  | .mbxRead value => Sys2Proof.Machine.execMbxRead value s
  | .mbxProgram value => Sys2Proof.Machine.execMbxProgram value s
  | .mbxErase4K value => Sys2Proof.Machine.execMbxErase4K value s
  | .mbxErase64K value => Sys2Proof.Machine.execMbxErase64K value s
  | .spitRead op octal addr n => Sys2Proof.Machine.execSpitRead op octal addr n s
  | .spitProgram op addr data => Sys2Proof.Machine.execSpitProgram op addr data s
  | .spitErase op addr => Sys2Proof.Machine.execSpitErase op addr s
  | .spitReadStatus op => Sys2Proof.Machine.execSpitReadStatus op s
  | .spitWriteEnable op => Sys2Proof.Machine.execSpitWriteEnable op s
  | .spitWriteDisable op => Sys2Proof.Machine.execSpitWriteDisable op s
  | .spitReadSfdp op addr n => Sys2Proof.Machine.execSpitReadSfdp op addr n s
  | .spitReadId op => Sys2Proof.Machine.execSpitReadId op s
  | .spitReset op => Sys2Proof.Machine.execSpitReset op s
  | .spitOpcodeRefused op => Sys2Proof.Machine.execSpitOpcodeRefused op s
  | .getRecord job flash => Sys2Proof.Machine.execGetRecord job flash s
  | .getCert job => Sys2Proof.Machine.execGetCert job s
  | .attest job => Sys2Proof.Machine.execAttest job s
  | .recordGet via flash => Sys2Proof.Machine.execRecordGet via flash s
  | .certGet via => Sys2Proof.Machine.execCertGet via s
  | .mctpAttest via => Sys2Proof.Machine.execMctpAttest via s
  | .harvestGet via => Sys2Proof.Machine.execHarvestGet via s
  | .getVersion via req => Sys2Proof.Machine.execGetVersion via req s
  | .getCapabilities via req => Sys2Proof.Machine.execGetCapabilities via req s
  | .negotiateAlgorithms via req => Sys2Proof.Machine.execNegotiateAlgorithms via req s
  | .getDigests via req => Sys2Proof.Machine.execGetDigests via req s
  | .getCertificate via req => Sys2Proof.Machine.execGetCertificate via req s
  | .challenge via req => Sys2Proof.Machine.execChallenge via req s
  | .getMeasurements via req => Sys2Proof.Machine.execGetMeasurements via req s
  | .spdmUnsupportedRequest via req => Sys2Proof.Machine.execSpdmUnsupportedRequest via req s
  | .keyExchange via req => Sys2Proof.Machine.execKeyExchange via req s
  | .finish via req => Sys2Proof.Machine.execFinish via req s
  | .endSession via req => Sys2Proof.Machine.execEndSession via req s
  | .getTdispVersion sid record => Sys2Proof.Machine.execGetTdispVersion sid record s
  | .getTdispCapabilities sid record => Sys2Proof.Machine.execGetTdispCapabilities sid record s
  | .lockInterfaceRequest sid record => Sys2Proof.Machine.execLockInterfaceRequest sid record s
  | .getDeviceInterfaceReport sid record => Sys2Proof.Machine.execGetDeviceInterfaceReport sid record s
  | .getDeviceInterfaceState sid record => Sys2Proof.Machine.execGetDeviceInterfaceState sid record s
  | .startInterfaceRequest sid record => Sys2Proof.Machine.execStartInterfaceRequest sid record s
  | .stopInterfaceRequest sid record => Sys2Proof.Machine.execStopInterfaceRequest sid record s
  | .tdiConfigViolation fn => Sys2Proof.Machine.execTdiConfigViolation fn s
  | .linkTrained rate w0 w1 repaired => Sys2Proof.Machine.execLinkTrained rate w0 w1 repaired s
  | .moduleTrainTimeout m => Sys2Proof.Machine.execModuleTrainTimeout m s
  | .retrain => Sys2Proof.Machine.execRetrain s
  | .dlDown => Sys2Proof.Machine.execDlDown s
  | .refclkLoss => Sys2Proof.Machine.execRefclkLoss s
  | .hotReset => Sys2Proof.Machine.execHotReset s
  | .vfFunctionLevelReset fn => Sys2Proof.Machine.execVfFunctionLevelReset fn s
  | .pf0FunctionLevelReset => Sys2Proof.Machine.execPf0FunctionLevelReset s
  | .vfEnableClear => Sys2Proof.Machine.execVfEnableClear s
  | .busMasterEnableClear fn => Sys2Proof.Machine.execBusMasterEnableClear fn s
  | .busMasterEnableSet fn => Sys2Proof.Machine.execBusMasterEnableSet fn s
  | .d3hotEntry fn => Sys2Proof.Machine.execD3hotEntry fn s
  | .d0Entry fn => Sys2Proof.Machine.execD0Entry fn s
  | .hostReadCompletion tag res progress => Sys2Proof.Machine.execHostReadCompletion tag res progress s
  | .completionTimeout tag got progress => Sys2Proof.Machine.execCompletionTimeout tag got progress s
  | .unsupportedRequest req posted => Sys2Proof.Machine.execUnsupportedRequest req posted s
  | .poisonedBarWrite fn => Sys2Proof.Machine.execPoisonedBarWrite fn s
  | .badWidthAccess fn isWrite off len => Sys2Proof.Machine.execBadWidthAccess fn isWrite off len s
  | .hostPwrgdMsg good => Sys2Proof.Machine.execHostPwrgdMsg good s
  | .hostPwrgdPinChange level => Sys2Proof.Machine.execHostPwrgdPinChange level s
  | .hostPwrgdFall => Sys2Proof.Machine.execHostPwrgdFall s
  | .hostPwrgdStable => Sys2Proof.Machine.execHostPwrgdStable s
  | .sidebandAck value => Sys2Proof.Machine.execSidebandAck value s
  | .hostResetResend => Sys2Proof.Machine.execHostResetResend s
  | .msixUnmask fn vec => Sys2Proof.Machine.execMsixUnmask fn vec s
  | .sqDoorbell fn page value => Sys2Proof.Machine.execSqDoorbell fn page value s
  | .cqHeadWrite fn page value => Sys2Proof.Machine.execCqHeadWrite fn page value s
  | .descriptorFetch => Sys2Proof.Machine.execDescriptorFetch s
  | .drainEntry dqn => Sys2Proof.Machine.execDrainEntry dqn s
  | .adminEnable => Sys2Proof.Machine.execAdminEnable s
  | .createSq job => Sys2Proof.Machine.execCreateSq job s
  | .createCq job => Sys2Proof.Machine.execCreateCq job s
  | .disableSq job => Sys2Proof.Machine.execDisableSq job s
  | .deleteSq job => Sys2Proof.Machine.execDeleteSq job s
  | .deleteCq job => Sys2Proof.Machine.execDeleteCq job s
  | .queryQueue job => Sys2Proof.Machine.execQueryQueue job s
  | .setWeight job => Sys2Proof.Machine.execSetWeight job s
  | .getHarvest job => Sys2Proof.Machine.execGetHarvest job s
  | .setPowerCap job => Sys2Proof.Machine.execSetPowerCap job s
  | .fenceAll job => Sys2Proof.Machine.execFenceAll job s
  | .xtsEnc job => Sys2Proof.Machine.execXtsEnc job s
  | .xtsDec job => Sys2Proof.Machine.execXtsDec job s
  | .gcmEnc job => Sys2Proof.Machine.execGcmEnc job s
  | .gcmDec job => Sys2Proof.Machine.execGcmDec job s
  | .ccmEnc job => Sys2Proof.Machine.execCcmEnc job s
  | .ccmDec job => Sys2Proof.Machine.execCcmDec job s
  | .chachaPolyEnc job => Sys2Proof.Machine.execChachaPolyEnc job s
  | .chachaPolyDec job => Sys2Proof.Machine.execChachaPolyDec job s
  | .ctr job => Sys2Proof.Machine.execCtr job s
  | .cbcEnc job => Sys2Proof.Machine.execCbcEnc job s
  | .cbcDec job => Sys2Proof.Machine.execCbcDec job s
  | .cmac job => Sys2Proof.Machine.execCmac job s
  | .digest job => Sys2Proof.Machine.execDigest job s
  | .hmac job => Sys2Proof.Machine.execHmac job s
  | .kmac job => Sys2Proof.Machine.execKmac job s
  | .digestCompare job => Sys2Proof.Machine.execDigestCompare job s
  | .ctxLoad job => Sys2Proof.Machine.execCtxLoad job s
  | .unwrapDone job => Sys2Proof.Machine.execUnwrapDone job s
  | .ctxEvict job => Sys2Proof.Machine.execCtxEvict job s
  | .contextUseEnd slot => Sys2Proof.Machine.execContextUseEnd slot s
  | .ctxPin job => Sys2Proof.Machine.execCtxPin job s
  | .ctxUnpin job => Sys2Proof.Machine.execCtxUnpin job s
  | .rngFill job => Sys2Proof.Machine.execRngFill job s
  | .fence job => Sys2Proof.Machine.execFence job s
  | .nop job => Sys2Proof.Machine.execNop job s
  | .laneAssign => Sys2Proof.Machine.execLaneAssign s
  | .keyBankIdleExpiry lane spare => Sys2Proof.Machine.execKeyBankIdleExpiry lane spare s
  | .steLaneFenceWrite value => Sys2Proof.Machine.execSteLaneFenceWrite value s
  | .sessionDispatch => Sys2Proof.Machine.execSessionDispatch s
  | .sessionPartDone core => Sys2Proof.Machine.execSessionPartDone core s
  | .parkTimeout core => Sys2Proof.Machine.execParkTimeout core s
  | .pendingPark => Sys2Proof.Machine.execPendingPark s
  | .messageAbandon dqn msgId => Sys2Proof.Machine.execMessageAbandon dqn msgId s
  | .holdWaitTimeout job => Sys2Proof.Machine.execHoldWaitTimeout job s
  | .coreKeyIdleExpiry core => Sys2Proof.Machine.execCoreKeyIdleExpiry core s
  | .sceCoreFenceWrite k value => Sys2Proof.Machine.execSceCoreFenceWrite k value s
  | .sceParkTimeoutWrite value => Sys2Proof.Machine.execSceParkTimeoutWrite value s
  | .sceAbandonTimeoutWrite value => Sys2Proof.Machine.execSceAbandonTimeoutWrite value s
  | .dgeRmStart leg value => Sys2Proof.Machine.execDgeRmStart leg value s
  | .dgeRmDataWrite leg value => Sys2Proof.Machine.execDgeRmDataWrite leg value s
  | .dgeRmFinal leg value => Sys2Proof.Machine.execDgeRmFinal leg value s
  | .dgeRmAbort leg value => Sys2Proof.Machine.execDgeRmAbort leg value s
  | .rmDigestDone => Sys2Proof.Machine.execRmDigestDone s
  | .dgeRmResultRead leg n => Sys2Proof.Machine.execDgeRmResultRead leg n s
  | .pkPublic job => Sys2Proof.Machine.execPkPublic job s
  | .pkSign job => Sys2Proof.Machine.execPkSign job s
  | .pkVerify job => Sys2Proof.Machine.execPkVerify job s
  | .pkAgree job => Sys2Proof.Machine.execPkAgree job s
  | .kemEncap job => Sys2Proof.Machine.execKemEncap job s
  | .kemDecap job => Sys2Proof.Machine.execKemDecap job s
  | .pkeJobDone unit => Sys2Proof.Machine.execPkeJobDone unit s
  | .rngStartupDone pass => Sys2Proof.Machine.execRngStartupDone pass s
  | .rngHealthFail proportion => Sys2Proof.Machine.execRngHealthFail proportion s
  | .rngReseedTimer inst1 => Sys2Proof.Machine.execRngReseedTimer inst1 s
  | .rngConsumerTimeout job => Sys2Proof.Machine.execRngConsumerTimeout job s
  | .rngRawRead => Sys2Proof.Machine.execRngRawRead s
  | .keyGenerate job => Sys2Proof.Machine.execKeyGenerate job s
  | .keyDerive job => Sys2Proof.Machine.execKeyDerive job s
  | .importSession job => Sys2Proof.Machine.execImportSession job s
  | .importSessionExpiry => Sys2Proof.Machine.execImportSessionExpiry s
  | .importBlobClear job => Sys2Proof.Machine.execImportBlobClear job s
  | .importSlotClear job => Sys2Proof.Machine.execImportSlotClear job s
  | .slotGenerate job => Sys2Proof.Machine.execSlotGenerate job s
  | .slotErase job => Sys2Proof.Machine.execSlotErase job s
  | .slotStatus job => Sys2Proof.Machine.execSlotStatus job s
  | .keyblockImport job => Sys2Proof.Machine.execKeyblockImport job s
  | .keyblockExport job => Sys2Proof.Machine.execKeyblockExport job s
  | .kwpExport job => Sys2Proof.Machine.execKwpExport job s
  | .blobRewrap job => Sys2Proof.Machine.execBlobRewrap job s
  | .eqxOpen job => Sys2Proof.Machine.execEqxOpen job s
  | .eqxApprove job => Sys2Proof.Machine.execEqxApprove job s
  | .eqxStatus job => Sys2Proof.Machine.execEqxStatus job s
  | .eqxClose job => Sys2Proof.Machine.execEqxClose job s
  | .sessionExpiry sid => Sys2Proof.Machine.execSessionExpiry sid s
  | .ownerCreate job => Sys2Proof.Machine.execOwnerCreate job s
  | .ownerUpdate job => Sys2Proof.Machine.execOwnerUpdate job s
  | .ownerDelete job => Sys2Proof.Machine.execOwnerDelete job s
  | .fnBind job => Sys2Proof.Machine.execFnBind job s
  | .fnUnbind job => Sys2Proof.Machine.execFnUnbind job s
  | .domainCreate job => Sys2Proof.Machine.execDomainCreate job s
  | .domainOffer job => Sys2Proof.Machine.execDomainOffer job s
  | .offerExpiry => Sys2Proof.Machine.execOfferExpiry s
  | .domainSponsor job => Sys2Proof.Machine.execDomainSponsor job s
  | .domainJoin job => Sys2Proof.Machine.execDomainJoin job s
  | .domainSend job => Sys2Proof.Machine.execDomainSend job s
  | .domainReceive job => Sys2Proof.Machine.execDomainReceive job s
  | .domainRotate job => Sys2Proof.Machine.execDomainRotate job s
  | .domainRetire job => Sys2Proof.Machine.execDomainRetire job s
  | .domainRevoke job => Sys2Proof.Machine.execDomainRevoke job s
  | .domainLeave job => Sys2Proof.Machine.execDomainLeave job s
  | .harvestClear job => Sys2Proof.Machine.execHarvestClear job s
  | .debugUnlock job => Sys2Proof.Machine.execDebugUnlock job s
  | .updateKeeper job flash => Sys2Proof.Machine.execUpdateKeeper job flash s
  | .updateKeeperSwitch flash => Sys2Proof.Machine.execUpdateKeeperSwitch flash s
  | .tamperTrigger trigger => Sys2Proof.Machine.execTamperTrigger trigger s
  | .tmpCfgApply value => Sys2Proof.Machine.execTmpCfgApply value s
  | .frostStatus via => Sys2Proof.Machine.execFrostStatus via s
  | .frostNonce via => Sys2Proof.Machine.execFrostNonce via s
  | .frostNonceExpiry => Sys2Proof.Machine.execFrostNonceExpiry s
  | .frostRelease via => Sys2Proof.Machine.execFrostRelease via s
  | .frostReleaseReset => Sys2Proof.Machine.execFrostReleaseReset s
  | .engineAlarm alarm => Sys2Proof.Machine.execEngineAlarm alarm s
  | .unitSelfTestDone unit pass => Sys2Proof.Machine.execUnitSelfTestDone unit pass s
  | .unitReset value => Sys2Proof.Machine.execUnitReset value s
  | .quiesceAck unit progress => Sys2Proof.Machine.execQuiesceAck unit progress s
  | .governorDecision sensors => Sys2Proof.Machine.execGovernorDecision sensors s
  | .avsAck measured => Sys2Proof.Machine.execAvsAck measured s
  | .avsFault sensors => Sys2Proof.Machine.execAvsFault sensors s
  | .wdgCfgWrite isP value => Sys2Proof.Machine.execWdgCfgWrite isP value s
  | .wdgPHostcfgWrite value => Sys2Proof.Machine.execWdgPHostcfgWrite value s
  | .wdgCheckin isP value edge more => Sys2Proof.Machine.execWdgCheckin isP value edge more s
  | .wdgWindowOpen isP => Sys2Proof.Machine.execWdgWindowOpen isP s
  | .wdgPeriodEnd isP more => Sys2Proof.Machine.execWdgPeriodEnd isP more s
  | .keeperRestartPeriodTimeout => Sys2Proof.Machine.execKeeperRestartPeriodTimeout s
  | .hostResetPulseEnd => Sys2Proof.Machine.execHostResetPulseEnd s
  | .powerCyclePulseEnd => Sys2Proof.Machine.execPowerCyclePulseEnd s
  | .wdgHardTimeout isP => Sys2Proof.Machine.execWdgHardTimeout isP s
  | .healthyRunComplete bad => Sys2Proof.Machine.execHealthyRunComplete bad s
  | .tokenRefill cell => Sys2Proof.Machine.execTokenRefill cell s
  | .countsCommitTimer => Sys2Proof.Machine.execCountsCommitTimer s
  | .smbusAlertResponse => Sys2Proof.Machine.execSmbusAlertResponse s
  | .devIrqCauseWrite value recur => Sys2Proof.Machine.execDevIrqCauseWrite value recur s
  | .devIrqEnableWrite value => Sys2Proof.Machine.execDevIrqEnableWrite value s
  | .registerWrite fn space off value rest => Sys2Proof.Machine.execRegisterWrite fn space off value rest s
  | .legLock window value => Sys2Proof.Machine.execLegLock window value s
  | .legUnlock window value => Sys2Proof.Machine.execLegUnlock window value s
  | .leaseExpiry window => Sys2Proof.Machine.execLeaseExpiry window s
  | .basicCoreReserved => Sys2Proof.Machine.execBasicCoreReserved s
  | .legScStart value => Sys2Proof.Machine.execLegScStart value s
  | .legScAbort value => Sys2Proof.Machine.execLegScAbort value s
  | .legScDataInWrite value => Sys2Proof.Machine.execLegScDataInWrite value s
  | .legScDataOutRead => Sys2Proof.Machine.execLegScDataOutRead s
  | .legRngDataRead => Sys2Proof.Machine.execLegRngDataRead s
  | .legWdgKick value edge more => Sys2Proof.Machine.execLegWdgKick value edge more s
  | .legWdgCfgWrite value => Sys2Proof.Machine.execLegWdgCfgWrite value s
  | .autobaud rate => Sys2Proof.Machine.execAutobaud rate s
  | .breakChar => Sys2Proof.Machine.execBreakChar s
  | .monitorLine text => Sys2Proof.Machine.execMonitorLine text s
  | .frameGapTimeout => Sys2Proof.Machine.execFrameGapTimeout s
  | .help body => Sys2Proof.Machine.execHelp body s
  | .status body => Sys2Proof.Machine.execStatus body s
  | .ident body => Sys2Proof.Machine.execIdent body s
  | .read body => Sys2Proof.Machine.execRead body s
  | .cell body => Sys2Proof.Machine.execCell body s
  | .hsmBlock body => Sys2Proof.Machine.execHsmBlock body s
  | .framed body => Sys2Proof.Machine.execFramed body s
  | .write body => Sys2Proof.Machine.execWrite body s
  | .unitrst body => Sys2Proof.Machine.execUnitrst body s
  | .klog body => Sys2Proof.Machine.execKlog body s
  | .batteryDomainPowerUp mv => Sys2Proof.Machine.execBatteryDomainPowerUp mv s
  | .vbatReturn mv => Sys2Proof.Machine.execVbatReturn mv s
  | .sidebandComesUp => Sys2Proof.Machine.execSidebandComesUp s
  | .smbusClockLowTimeout => Sys2Proof.Machine.execSmbusClockLowTimeout s
  | .dynamicAddressAssignment setdasa target addr => Sys2Proof.Machine.execDynamicAddressAssignment setdasa target addr s
  | .laneDescriptorEnd lane => Sys2Proof.Machine.execLaneDescriptorEnd lane s
  | .digestDescriptorEnd pipe => Sys2Proof.Machine.execDigestDescriptorEnd pipe s
  | .latchingLoRead read => Sys2Proof.Machine.execLatchingLoRead read s

end Sys2Proof.Machine
end

