-- ==== Sys2Proof/Machine/Step.lean ====
section
/-! DEFINITION. One step: the command at the front of the queue; with none waiting, a microsecond passes. -/

namespace Sys2Proof.Machine

/-- One step of the block: it takes the command at the front of its queue. DESIGN CHOICE, assumption 1: with an empty queue one microsecond of the 1 MHz
reference passes (R23), in which an activation that waits for staging may begin. -/
def step (s : State) : Host.Outcome State Fault Refusal :=
  match s.pending with
  | [] => .next { s with blk := idleStep s.blk }
  | c :: rest => exec c { s with pending := rest }

/-- The opcode table of this block gives no command bits, so no word spells one and nothing is placed. -/
def State.withFetchWord (s : State) (nbits w : Nat) : State :=
  match Sys2Proof.decodeTableWord nbits w with
  | some c => { s with pending := c :: s.pending }
  | none => s

end Sys2Proof.Machine
end

