-- ==== Sys2Proof/Safety.lean ====
section
/-! DEFINITION. What a safe run is: the device never stops. -/

namespace Sys2Proof

/-- The outcome is a next state. -/
def Answers (o : Host.Outcome Machine.State Machine.Fault Machine.Refusal) : Prop := ∃ t, o = .next t

/-- A state from which the device takes a step. -/
def Live (s : Machine.State) : Prop := Answers (Machine.step s)

end Sys2Proof
end

