-- ==== Sys2Proof/Certificates/Slice0/Obligations.lean ====
section
/-! DEFINITION. The statements about the device, one Obligations.<Name> each, from the rules of spec/; the few names they share stand first. -/

namespace Sys2Proof.Claims

open Sys2Proof.Machine

/-- The descriptor `j` is in flight, not yet begun, holds opcode `op`, and may start. -/
def Waiting (b : Block) (j : Job) (op : Nat) : Prop :=
  jobOf b j.id = some j ∧ j.stage = .arrived ∧ dOp j.desc = op ∧ canStart b j = true

/-- The block with the descriptor `j` marked as started. -/
def begun (b : Block) (j : Job) : Block := onJob b j.id (fun k => { k with started := true })

/-- An admin descriptor that waits, outside FROZEN, and that no row of the refusals of R231 meets. -/
def AdminReady (b : Block) (j : Job) (op : Nat) : Prop :=
  Waiting b j op ∧ j.dqn < 256 ∧ b.run.state ≠ .frozen ∧ adminRefusal (begun b j) j = none

/-- A write through a queue page of an enabled function in D0, outside FROZEN, that reaches queue number `n`. -/
def PageReach (b : Block) (fn page n : Nat) : Prop :=
  fnEnabled b fn = true ∧ (fnOf b fn).d3hot = false ∧ b.run.state ≠ .frozen ∧ pageDqn b fn page = some n

/-- A descriptor of opcode `op` that waits and that checks 1 to 4 of its variant accept. -/
def Accepted (b : Block) (j : Job) (op : Nat) : Prop :=
  Waiting b j op ∧ opcodeDefined (decide (j.dqn < 256)) op = true ∧ j.dqn ≠ ghostQueue ∧ ownChecks b.run.variant j.desc = none

/-- The descriptor, marked as started, finds its context RESIDENT in a slot whose CHECK verifies, and the checks of R299 pass there. -/
def FindsContext (b : Block) (j : Job) (slot : Nat) : Prop :=
  resolve (begun b j) j.desc = .hit slot ∧ slotSound (begun b j) slot = true ∧ useChecks (touch slot (begun b j)) j.fn j.world j.desc (slotAt b slot).header = none

/-- The descriptor takes its place in the list of its unit, with the context it names. -/
def queued (b : Block) (j : Job) (slot : Nat) : Block :=
  settleAll (enqueue j.id (onJob (touch slot (begun b j)) j.id (fun k =>
    { k with ctx := some (slot, (slotAt b slot).gen), hdr := (slotAt b slot).header })))

/-- A register write that reaches PF0's registers and sets no reserved bit. -/
def RegReach (b : Block) (resv : Nat) (v : Word) : Prop :=
  fnEnabled b 0 = true ∧ (fnOf b 0).d3hot = false ∧ b.run.state ≠ .frozen ∧ v.toNat &&& resv = 0

/-- The keeper runs the command `h` of a COMMAND code now: its turn has come, its descriptor stands, steps 3 to 5 of R376 pass (with the session
they consume), and the random source is READY. -/
def Passes (b : Block) (h : HsmJob) (code : Nat) (rule : HsmRule) (session : Option EqxSession) : Prop :=
  hsmReady b code h.id = some h ∧ hsmOrphan b h = false ∧ hsmGate b h rule = .passed session ∧ b.rng.state = .ready

/-- The block with the session a command consumes erased. -/
def consumed (session : Option EqxSession) (b : Block) : Block :=
  match session with
  | some x => dropSession x.sid b
  | none => b

end Sys2Proof.Claims

open Sys2Proof Sys2Proof.Machine Sys2Proof.Claims

/-- With a command at the front of the queue, a step is that command's exec on the state with the rest of the queue. -/
def Obligations.StepRunsFrontCommand : Prop :=
  ∀ (c : Instr) (rest : List Instr) (b : Block), step ⟨b, c :: rest⟩ = exec c ⟨b, rest⟩

/-- With an empty queue a step lets one microsecond pass (the model's choice, assumption 1), whose clocks are those of tick. A million of them, while
VDD_ANA is good, advance the crystal's seconds count (R23) by one, modulo its 48 bits, and leave its sub-seconds and its phase where they were; while VDD_ANA
is absent and VBAT is in range the crystal goes on and the 1 MHz reference does not count; with both out of range neither does. -/
def Obligations.IdleStepsKeepTime : Prop :=
  (∀ b : Block, step ⟨b, []⟩ = .next ⟨idleStep b, []⟩ ∧ (idleStep b).time = (tick b).time) ∧
    ∀ b : Block, b.time.phase < 1000000 → b.time.subsec < 32768 → b.time.secs < 2 ^ 48 →
      let t := ((tick^[1000000]) b).time
      let crystal := b.sup.ana.good = true ∨ 2400 ≤ b.sup.vbatMv
      t.mono = b.time.mono + 1000000 ∧
      t.usec = (if b.sup.ana.good then b.time.usec + 1000000 else b.time.usec) ∧
      (crystal → t.secs = (b.time.secs + 1) % 2 ^ 48 ∧ t.subsec = b.time.subsec ∧ t.phase = b.time.phase) ∧
      (¬ crystal → t.secs = b.time.secs ∧ t.subsec = b.time.subsec ∧ t.phase = b.time.phase)

/-- Whatever the command and the state, exec answers a next state, whose waiting commands are those of the state it was given; so the device
never stops. -/
def Obligations.EveryCommandAnswers : Prop :=
  (∀ (c : Instr) (s : State), ∃ b : Block, exec c s = .next ⟨b, s.pending⟩) ∧ ∀ s : State, Live s

/-- For every OTP word and every bit of it: from any state in which the bit is 1, a step answers a state in which it is 1 (R82: a fuse is never
programmed back). -/
def Obligations.FuseBitsStay : Prop :=
  ∀ (w k : Nat) (s t : State), bit (otpWord s.blk w) k = true → step s = .next t → bit (otpWord t.blk w) k = true

/-- The state after reset holds the OTP of a JT-H48F as shipped (the model's choice, assumption 3): the life-cycle field has groups 0 and 1
programmed, which is PROVISION, and CONFIG0 has VARIANT 1 and TEST_ACCESS_OFF. -/
def Obligations.ResetFuses : Prop :=
  stateOfFuses (lcsField64 State.reset.blk) = 2 ∧ otpWord State.reset.blk 8 = 0x04000001 ∧
    bit (otpWord State.reset.blk 0) 0 = true ∧ State.reset.pending = []

/-- Every step keeps the variant (R1), and every command but ROM_ENTRY keeps the life-cycle STATE in force (R78). -/
def Obligations.LifeCycleStateOnlyAtRomEntry : Prop :=
  (∀ (v : Variant) (s t : State), s.blk.run.variant = v → step s = .next t → t.blk.run.variant = v) ∧
    ∀ (c : Instr) (s t : State), (∀ env, c ≠ .romEntry env) → exec c s = .next t → t.blk.run.lcs = s.blk.run.lcs

/-! ### Work queues (chapter 9) -/

/-- SQ_DOORBELL (R212): on an SQ that is not ACTIVE the value is not taken and DB_IGNORED is set; on an ACTIVE one, a step above the room sets
ERROR and DRAINING without taking the value, and any other step makes v the accepted tail. All arithmetic is modulo 2^32, so a backward move is a
step near 2^32. The refusal is also event 0x400 and a queue error of kind 1 (R437, R510). -/
def Obligations.DoorbellJudged : Prop :=
  ∀ (s : State) (fn page n : Nat) (v : Word), PageReach s.blk fn page n →
    let q := sqOf s.blk n
    let room := q.size - (q.tail - q.head).toNat
    (q.state ≠ .active →
      exec (.sqDoorbell fn page v) s = .next { s with blk := settleAll (onSq n (fun q => { q with dbIgnored := true }) s.blk) }) ∧
    (q.state = .active → room < (v - q.tail).toNat →
      exec (.sqDoorbell fn page v) s = .next { s with
        blk := settleAll (queueError 1 n (event 0x400 n (onSq n (fun q => { q with error := true, state := .draining }) s.blk))) }) ∧
    (q.state = .active → (v - q.tail).toNat ≤ room →
      exec (.sqDoorbell fn page v) s = .next { s with blk := settleAll (onSq n (fun q => { q with tail := v }) s.blk) })

/-- CQ_HEAD_WRITE (R216): when (v − P) mod 2^32 is at most (W − P) mod 2^32, P becomes v, and each of the entries released gives its credit back to
the SQ that held it; otherwise P stays, HEAD_INVALID is set, and the queue error is raised. -/
def Obligations.CompletionHeadJudged : Prop :=
  ∀ (s : State) (fn page n : Nat) (v : Word), PageReach s.blk fn page n → (cqOf s.blk n).active = true →
    let c := cqOf s.blk n
    let k := (v - c.released).toNat
    (k ≤ (c.written - c.released).toNat →
      exec (.cqHeadWrite fn page v) s = .next { s with
        blk := settleAll (returnCredits (c.owners.take k) (onCq n (fun c => { c with released := v, owners := c.owners.drop k }) s.blk)) }) ∧
    ((c.written - c.released).toNat < k →
      exec (.cqHeadWrite fn page v) s = .next { s with
        blk := settleAll (queueError 2 n (event 0x401 n (onCq n (fun c => { c with headInvalid := true }) s.blk))) })

/-- DESCRIPTOR_FETCH (R213, R217, R220): when the arbiter, a turn that cannot go on given up, picks SQ n with `left` descriptors of its turn to go, the step issues one read of k
descriptors: k is 1 to 8, at most `left`, at most the unread count, and the slots read end within the ring; the SQ holds k credits more. -/
def Obligations.DescriptorReadBounds : Prop :=
  ∀ (s : State) (n left : Nat), arbitrate (yieldTurn s.blk) = some (n, left) → 0 < left →
    let q := sqOf s.blk n
    let slot := q.head.toNat % q.size
    ∃ (k : Nat) (t : State), exec .descriptorFetch s = .next t ∧ 1 ≤ k ∧ k ≤ 8 ∧ k ≤ left ∧ k ≤ unread q ∧ slot + k ≤ q.size ∧
      (sqOf t.blk n).held = q.held + k ∧ (sqOf t.blk n).reading = k ∧ (sqOf t.blk n).head = q.head ∧
      t.blk.work.reads = s.blk.work.reads ++
        [{ num := s.blk.work.nextRead, fn := q.fn, world := worldOf s.blk q.fn, kind := .descs n k, len := 64 * k, got := [] }]

/-- DRAIN_ENTRY (R223): for an unread descriptor of a DRAINING SQ with a credit to reserve, the device reserves it and reads the two bytes of the
slot's CMD_ID. ADMIN_ENABLE (R235): with READY clear and the set-up fields good, ENABLE and READY are set and PF0's admin CQ and SQ are ACTIVE; with
bad fields ENABLE and CFG_ERROR are set and no queue is made; with READY set a write has no effect. -/
def Claims.DrainAndAdminEnable : Prop :=
  (∀ (s : State) (n : Nat), let q := sqOf s.blk n
    q.state = .draining → 0 < unread q → q.reading = 0 → canReserve s.blk n = true → canRead s.blk q.fn = true →
    (n < 256 ∨ fenceBlocked s.blk q.fn = false) →
    ∃ t : State, exec (.drainEntry n) s = .next t ∧ (sqOf t.blk n).held = q.held + 1 ∧ (sqOf t.blk n).reading = 1 ∧
      t.blk.work.reads = s.blk.work.reads ++
        [{ num := s.blk.work.nextRead, fn := q.fn, world := worldOf s.blk q.fn, kind := .drain n, len := 2, got := [] }]) ∧
  (∀ s : State, s.blk.run.state ≠ .frozen → s.blk.q.admin.ready = true → exec .adminEnable s = .next s) ∧
  (∀ s : State, s.blk.run.state ≠ .frozen → s.blk.q.admin.ready = false → adminCfgOk s.blk.q.admin = true →
    ∃ t : State, exec .adminEnable s = .next t ∧ t.blk.q.admin.ready = true ∧ t.blk.q.admin.enable = true ∧
      (sqOf t.blk 0).state = .active ∧ (sqOf t.blk 0).head = 0 ∧ (sqOf t.blk 0).tail = 0 ∧
      (sqOf t.blk 0).base = s.blk.q.admin.sqBase ∧ (cqOf t.blk 0).active = true ∧ (cqOf t.blk 0).base = s.blk.q.admin.cqBase) ∧
  (∀ s : State, s.blk.run.state ≠ .frozen → s.blk.q.admin.ready = false → adminCfgOk s.blk.q.admin = false →
    exec .adminEnable s = .next { s with blk := s.blk.onQ (fun q => { q with admin := { q.admin with enable := true, cfgError := true } }) })

/-- CREATE_SQ, CREATE_CQ, DISABLE_SQ, DELETE_SQ, DELETE_CQ, QUERY_QUEUE, SET_WEIGHT and FENCE_ALL (R223, R225, R227, R230): a descriptor that waits
and that no refusal of R231 meets creates, drains or deletes its queue, reports it in 32 bytes at DST, sets its weight, or takes the list of the function's
descriptors to wait for. All but DISABLE_SQ and FENCE_ALL, which wait, complete with SUCCESS; SET_WEIGHT returns the old weight in RESULT, QUERY_QUEUE the two
counts of the queue. -/
def Claims.AdminCommandsAct : Prop :=
  ∀ (s : State) (j : Job),
    let b := begun s.blk j
    let d := j.desc
    let n := aDqn b j
    let fn := aFn j
    (AdminReady s.blk j 0x80 →
      exec (.createSq j.id) s = .next { s with blk := settleAll (concludeCore j.id (success 0 0)
        (let b' := createSq n fn (aQid d) ((dqnOf b fn (aCqid d)).getD 0) (aBase d) (aSize d) (aMinCred d) (aWeight d) (aShadow d) b
         if aTarget d ≠ 0 ∧ j.fn = 0 then b'.onQ (fun q => { q with quotas := tset q.quotas fn (aQuota d) }) else b')) }) ∧
    (AdminReady s.blk j 0x81 →
      exec (.createCq j.id) s = .next { s with blk := settleAll (concludeCore j.id (success 0 0)
        (createCq n fn (aQid d) (aBase d) (aSize d) (aVector d) (aQflags d % 2 == 1) b)) }) ∧
    (AdminReady s.blk j 0x82 →
      exec (.disableSq j.id) s = .next { s with blk := settleAll (setStage j.id (.disable n)
        (onSq n (fun q => { q with state := .draining }) b)) }) ∧
    (AdminReady s.blk j 0x83 →
      exec (.deleteSq j.id) s = .next { s with blk := settleAll (concludeCore j.id (success 0 0) (dropSq n b)) }) ∧
    (AdminReady s.blk j 0x84 →
      exec (.deleteCq j.id) s = .next { s with blk := settleAll (concludeCore j.id (success 0 0)
        (b.onQ (fun q => { q with cqs := tdel q.cqs n }))) }) ∧
    (AdminReady s.blk j 0x85 →
      exec (.queryQueue j.id) s = .next { s with blk := settleAll (concludeCore j.id (success 0
        (if aQflags d % 2 == 1 then (cqOf b n).released.toNat + 2 ^ 32 * (cqOf b n).written.toNat
         else (sqOf b n).head.toNat + 2 ^ 32 * (sqOf b n).tail.toNat))
        (adminWrite j [(0, queueReport b n (aQflags d % 2 == 1))] 32 b)) }) ∧
    (AdminReady s.blk j 0x86 →
      exec (.setWeight j.id) s = .next { s with blk := settleAll (concludeCore j.id (success 0 (sqOf b n).weight)
        (onSq n (fun q => { q with weight := aWeight d }) b)) }) ∧
    (AdminReady s.blk j 0x89 →
      let ids := (b.work.jobs.filter (fun k => k.fn == j.fn && decide (256 ≤ k.dqn) && k.dqn != ghostQueue)).map (·.id)
      exec (.fenceAll j.id) s = .next { s with blk := settleAll (setStage j.id (.fenceAll ids ids.length) b) })

/-- A draining SQ reads only CMD_IDs; the admin pair is enabled; admin commands act. -/
def Obligations.AdminQueueCommands : Prop := Claims.DrainAndAdminEnable ∧ Claims.AdminCommandsAct

/-! ### Descriptors, contexts (chapters 10 and 12) -/

/-- XTS_ENC, XTS_DEC (R306, R311), and the ten session opcodes as one-descriptor messages (R323, R327): a descriptor that checks 1 to 4 accept, that
finds its context RESIDENT and that R299 permits takes its place at the end of its unit's pending list, the use of the slot recorded. HMAC, KMAC and
DIGEST_COMPARE with a key do the same when they name a context; with a key of the caller's, and DIGEST and DIGEST_COMPARE without a key, they go straight to
the digest list (R288, R350, R353). -/
def Claims.DescriptorEntersItsUnit : Prop :=
  (∀ p ∈ [(Instr.xtsEnc, 0x01), (Instr.xtsDec, 0x02)], ∀ (s : State) (j : Job) (slot : Nat),
    Accepted s.blk j p.2 → FindsContext s.blk j slot → exec (p.1 j.id) s = .next { s with blk := queued s.blk j slot }) ∧
  (∀ p ∈ [(Instr.gcmEnc, 0x10), (Instr.gcmDec, 0x11), (Instr.ccmEnc, 0x12), (Instr.ccmDec, 0x13), (Instr.chachaPolyEnc, 0x14),
      (Instr.chachaPolyDec, 0x15), (Instr.ctr, 0x18), (Instr.cbcEnc, 0x19), (Instr.cbcDec, 0x1A), (Instr.cmac, 0x1B)],
    ∀ (s : State) (j : Job) (slot : Nat), Accepted s.blk j p.2 → dMsg j.desc = 0 → FindsContext s.blk j slot →
    exec (p.1 j.id) s = .next { s with blk := queued s.blk j slot }) ∧
  (∀ p ∈ [(Instr.digest, 0x20), (Instr.hmac, 0x21), (Instr.kmac, 0x22), (Instr.digestCompare, 0x23)],
    ∀ (s : State) (j : Job), Accepted s.blk j p.2 →
    (∀ slot : Nat, viaVault j.desc = true → FindsContext s.blk j slot →
      exec (p.1 j.id) s = .next { s with blk := queued s.blk j slot }) ∧
    (viaVault j.desc = false → exec (p.1 j.id) s = .next { s with blk := settleAll (enqueue j.id (begun s.blk j)) }))

/-- Check 5 for a session descriptor with a MSG_ID (R331): a first part opens the message when none is open under that SQ and MSG_ID and then
resolves its context, and ends with MESSAGE_SEQUENCE 2 when one is; a later part that agrees with the open message in opcode, handle and PARAM takes
its place in the list, and one that does not ends with MESSAGE_SEQUENCE 3. -/
def Claims.MessagePartsInSequence : Prop :=
  ∀ p ∈ [(Instr.gcmEnc, 0x10), (Instr.gcmDec, 0x11), (Instr.chachaPolyEnc, 0x14), (Instr.chachaPolyDec, 0x15), (Instr.ctr, 0x18),
      (Instr.cbcEnc, 0x19), (Instr.cbcDec, 0x1A), (Instr.cmac, 0x1B)],
    ∀ (s : State) (j : Job), Accepted s.blk j p.2 → dMsg j.desc ≠ 0 →
    let b := begun s.blk j
    let mid := dMsg j.desc
    (msgOf s.blk j.dqn mid = none → dFirst j.desc = true → exec (p.1 j.id) s = .next { s with
      blk := settleAll (startResolve j.id ((dropTomb j.dqn mid b).onSce (fun x => { x with
        msgs := x.msgs ++ [Msg.opened (dropTomb j.dqn mid b) { j with started := true }] }))) }) ∧
    (∀ m, msgOf s.blk j.dqn mid = some m → m.state ≠ .opening → dFirst j.desc = true →
      exec (p.1 j.id) s = .next { s with blk := settleAll (concludeCore j.id (verdict stMessageSequence 2 0 0) b) }) ∧
    (∀ m, msgOf s.blk j.dqn mid = some m → m.state ≠ .opening → dFirst j.desc = false →
      exec (p.1 j.id) s = .next { s with blk := (settleAll
        (if m.opcode = p.2 ∧ m.handle = dHandle j.desc ∧ m.param = dParam j.desc then enqueue j.id b
         else concludeCore j.id (verdict stMessageSequence 3 0 0) b)) })

/-- A permitted descriptor enters the list of its unit; parts of a message come in sequence. -/
def Obligations.DescriptorsEnterTheirUnits : Prop := Claims.DescriptorEntersItsUnit ∧ Claims.MessagePartsInSequence

/-- The management opcodes of R297 on a RESIDENT context that R299 permits: CTX_LOAD and CTX_PIN complete with the current handle in RESULT, CTX_PIN
with PINNED set; CTX_UNPIN completes with PINNED clear; CTX_EVICT erases the key, and completes at once when nothing uses the context, else when its last
use ends. Each records the use of the slot. -/
def Claims.ContextManagement : Prop :=
  ∀ (s : State) (j : Job) (slot : Nat), FindsContext s.blk j slot →
    let b := touch slot (begun s.blk j)
    let h := handleOf slot (slotAt s.blk slot).gen
    (Accepted s.blk j 0x30 → exec (.ctxLoad j.id) s = .next { s with blk := settleAll (concludeCore j.id (success 0 h) b) }) ∧
    (Accepted s.blk j 0x31 → exec (.ctxEvict j.id) s = .next { s with blk := (settleAll
      (if inUse b slot then setStage j.id (.evictWait slot) (eraseCtx slot b)
       else concludeCore j.id (success 0 0) (eraseCtx slot b))) }) ∧
    (Accepted s.blk j 0x32 → exec (.ctxPin j.id) s = .next { s with blk := (settleAll
      (concludeCore j.id (success 0 h) (pinSlot slot true b))) }) ∧
    (Accepted s.blk j 0x33 → exec (.ctxUnpin j.id) s = .next { s with blk := (settleAll
      (concludeCore j.id (success 0 0) (pinSlot slot false b))) })

/-- UNWRAP_DONE (R292, steps 7 and 8): a blob whose tag is bad fails its load with BLOB_INTEGRITY 2; a good one puts the key into the slot, which is
RESIDENT, counts the load, and lets the descriptor and those that waited for the slot go on. CONTEXT_USE_END (R289): when nothing uses an EVICTING
context any more, its slot is FREE and the CTX_EVICT that waited completes with SUCCESS. -/
def Claims.LoadsAndLastUses : Prop :=
  (∀ (s : State) (j : Job) (slot : Nat), jobOf s.blk j.id = some j → j.stage = .unwrap slot →
    s.blk.vlt.selfTest = false →
    exec (.unwrapDone j.id) s = .next { s with blk := settleAll (match openBlob s.blk j.blob with
      | none => loadFailed j.id slot stBlobIntegrity 2 s.blk
      | some key =>
        let h := j.blob.take 32
        let b := holdKek (hOwner h) (hEpoch h) s.blk
        let b := onSlot slot (fun v => { v with state := .resident, bytes := slotBytes b slot v.gen h key }) b
        let b := b.onVlt (fun v => { v with loads := sat32 (v.loads + 1) })
        nextLoads ((waitersOf b slot).foldl (fun b k => resolved k.id slot b)
          (resolved j.id slot (onJob b j.id (fun k => { k with loaded := true }))))) }) ∧
  (∀ (s : State) (slot : Nat), (slotAt s.blk slot).state = .evicting → inUse s.blk slot = false →
    exec (.contextUseEnd slot) s = .next { s with blk := settleAll ((s.blk.work.jobs.filter (fun j => decide (j.stage = Stage.evictWait slot))).foldl (fun b j => concludeCore j.id (success 0 0) b)
        (purgeBanks (freeSlot slot s.blk))) })

/-- Contexts are loaded, pinned, unpinned and evicted; loads and last uses end. -/
def Obligations.ContextsManaged : Prop := Claims.ContextManagement ∧ Claims.LoadsAndLastUses

/-- NOP and FENCE (R239) complete with SUCCESS, BYTES_DONE 0 and RESULT 0, as soon as they may start; FENCE, being fenced, may start only when every
earlier descriptor of its SQ has completed (R222). RNG_FILL (R371) then reads and judges its output list. -/
def Obligations.PlainOpcodes : Prop :=
  (∀ p ∈ [(Instr.fence, 0x7E), (Instr.nop, 0x7F)], ∀ (s : State) (j : Job), Accepted s.blk j p.2 →
    exec (p.1 j.id) s = .next { s with blk := settleAll (concludeCore j.id (success 0 0) (begun s.blk j)) }) ∧
  (∀ (b : Block) (j : Job), 256 ≤ j.dqn → dOp j.desc = 0x7E →
    (canStart b j = true ↔ ∀ k ∈ jobsOf b j.dqn, j.id ≤ k.id)) ∧
  (∀ (s : State) (j : Job), Accepted s.blk j 0x50 →
    exec (.rngFill j.id) s = .next { s with blk := settleAll (nextRead j.id (onJob (begun s.blk j) j.id (fun k =>
      { k with dst := if fragDst j.desc then Walk.start (dDst j.desc) else Walk.plain (dDst j.desc) (outLen j.desc), outLen := outLen j.desc }))) })

/-- With WRITE_CHECK off, ending a descriptor of an opcode that is no session opcode with a status that R252 does not mark as zeroing (R248 to R255): the
next entry of the CQ is a posted write of 32 bytes at BASE + 32 × (W mod size) with QID, CMD_ID, STATUS, CFLAGS, SQ_HEAD, DETAIL, BYTES_DONE and
RESULT, its PHASE 1 on the first pass round the ring and changing on each later pass; W rises by one, and the descriptor is no longer in flight. While its
function's requests are halted (R203) it stays in flight instead, its entry held. -/
def Obligations.CompletionEntryWritten : Prop :=
  ∀ (b : Block) (j : Job) (v : Verdict), jobOf b j.id = some j → j.dqn ≠ ghostQueue → isSession (dOp j.desc) = false →
    zeroing v.status = false → b.link.writeCheck = false → v.past = none → v.status ≠ stBlobIntegrity → ended j.stage = false →
    let q := sqOf b j.dqn
    let c := cqOf b q.cq
    let e := entryBytes q.qid (dCmd j.desc) v.status (flag v.prov 1 + flag j.loaded 3 + flag j.resumed 4 + phaseAt c.written c.sizeLog2)
      q.head.toNat v.detail v.bytes v.result
    let t := concludeCore j.id v b
    e.length = 32 ∧
    (fnHalted b j.fn = false → (cqOf t q.cq).written = c.written + 1 ∧ jobOf t j.id = none ∧
      (b.link.phase = .active → fnHalted b c.fn = false →
        ∃ rest, t.out = b.out ++ .entryWrite c.fn (worldOf b c.fn) (c.base + 32 * (c.written.toNat % c.size)) e :: rest)) ∧
    (fnHalted b j.fn = true → t = onJob b j.id (fun k => { k with stage := .ended v false }))

/-! ### Stream lanes, session engines, digest pipelines (chapters 13 to 15) -/

/-- The pending descriptor at the head of the lanes' list, its context still good, and the lane that takes it. -/
def Claims.LaneTakes (b : Block) (j : Job) (rest : List Nat) (c : Nat × Nat) (n : Nat) (key : Bytes) : Prop :=
  b.ste.pending = j.id :: rest ∧ jobOf b j.id = some j ∧ j.ctx = some c ∧ chooseLane b c = some n ∧ recheck b j = .good key ∧
    key.take 32 ≠ slice key 32 32

/-- LANE_ASSIGN (R311): the oldest pending descriptor leaves the list; a lane that runs nothing loads the key into its bank and begins it, a lane that
runs another takes it as its assigned descriptor with the key in its spare bank. LANE_DESCRIPTOR_END (R318, R321): the remaining output is written, the
bytes, descriptors and ciphertext-stealing counts rise, the descriptor completes with SUCCESS and BYTES_DONE of its LENGTH, and the lane goes on with what was
assigned to it. -/
def Claims.LanesRunXts : Prop :=
  (∀ (s : State) (j : Job) (rest : List Nat) (c : Nat × Nat) (n : Nat) (key : Bytes), Claims.LaneTakes s.blk j rest c n key →
    let b := s.blk.onSte (fun x => { x with pending := rest })
    let loaded := loadBank n { slot := c.1, gen := c.2, key := key } b
    ((laneAt s.blk n).running = none →
      exec .laneAssign s = .next { s with
        blk := settleAll (beginOnUnit j.id (onLane n (fun l => { l with running := some j.id, state := .busy }) loaded)) }) ∧
    ((laneAt s.blk n).running ≠ none →
      exec .laneAssign s = .next { s with blk := settleAll (onLane n (fun l => { l with assigned := some j.id }) loaded) })) ∧
  (∀ (s : State) (n : Nat) (j : Job), (laneAt s.blk n).running = some j.id → jobOf s.blk j.id = some j → j.stage = .running →
    let b := writeOut j (outputSoFar s.blk j) s.blk
    let b := b.onSte (fun x => { x with
      bytes := (x.bytes + dLen j.desc) % 2 ^ 64
      descs := sat32 (x.descs + 1)
      cts := sat32 (x.cts + b2n (dLen j.desc % 2 ^ bits (dParam j.desc) 4 0 % 16 != 0)) })
    exec (.laneDescriptorEnd n) s = .next { s with
      blk := settleAll (purgeBanks (lanePromote n (concludeCore j.id (success (dLen j.desc) 0) b))) })

/-- KEY_BANK_IDLE_EXPIRY (R312) and CORE_KEY_IDLE_EXPIRY (R322): an unused bank, and the key register of a core that runs nothing and holds no
message, hold no key afterwards; the context stays in the vault. STE_LANE_FENCE_WRITE (R317) and SCE_CORE_FENCE_WRITE (R324): a write that sets no reserved
bit puts the fence bits of the variant's lanes or cores as written; with every lane fenced the pending XTS descriptors, and with every core fenced the
pending session descriptors, end with UNIT_RESET. -/
def Claims.KeyExpiryAndFences : Prop :=
  (∀ (s : State) (n : Nat) (l : Lane), s.blk.ste.lanes[n]? = some l →
    (l.assigned = none → ∃ t, exec (.keyBankIdleExpiry n true) s = .next t ∧ laneAt t.blk n = { l with spare := none } ∧ t.blk.vlt = s.blk.vlt) ∧
    (l.running = none → ∃ t, exec (.keyBankIdleExpiry n false) s = .next t ∧ laneAt t.blk n = { l with bank := none } ∧ t.blk.vlt = s.blk.vlt)) ∧
  (∀ (s : State) (n : Nat) (c : CoreU), s.blk.sce.cores[n]? = some c → c.job = none → c.msg = none → c.state ≠ .basic →
    ∃ t, exec (.coreKeyIdleExpiry n) s = .next t ∧ t.blk.sce.cores[n]? = some { c with key := none } ∧ t.blk.vlt = s.blk.vlt) ∧
  (∀ (s : State) (v : Word), let n := lanesOf s.blk.run.variant
    n ≠ 0 → RegReach s.blk (0xFFFFFFFF - (2 ^ n - 1)) v →
    exec (.steLaneFenceWrite v) s = .next { s with blk := settleAll (flushStream
      ((List.range n).foldl (fun b i => if bit v.toNat i then laneGiveBack i b else b)
        (s.blk.onSte (fun x => { x with fence := v.toNat % 2 ^ n })))) }) ∧
  (∀ (s : State) (v : Word) (k : Nat), let n := min 32 (coresOf s.blk.run.variant - 32 * k)
    coresOf s.blk.run.variant ≠ 0 → k < 2 → RegReach s.blk (0xFFFFFFFF - (2 ^ n - 1)) v →
    exec (.sceCoreFenceWrite k v) s = .next { s with blk := settleAll (flushSession (s.blk.onSce (fun x => { x with
      fence := (if k = 0 then x.fence / 2 ^ 32 * 2 ^ 32 else x.fence % 2 ^ 32) + v.toNat % 2 ^ n * 2 ^ (32 * k) }))) })

/-- Lanes run XTS descriptors; idle keys are erased; fences take effect. -/
def Obligations.LanesAndKeyBanks : Prop := Claims.LanesRunXts ∧ Claims.KeyExpiryAndFences

/-- SESSION_DISPATCH (R323): the first of the 1,024 pending descriptors that can move on is the one that moves; a one-descriptor message whose context is good starts
on the core that already holds its key, else the lowest eligible one, when no gate of R332, R334 and R341 holds it. SESSION_PART_DONE (R327, R335): the
cipher runs over the part's associated data, payload and tag with the message's running state, and the part ends with what R339 to R342 give. -/
def Claims.SessionPartsRun : Prop :=
  (∀ (s : State) (b' : Block), firstDispatch s.blk (s.blk.sce.pending.take 1024) = some b' →
    exec .sessionDispatch s = .next { s with blk := settleAll b' }) ∧
  (∀ (b : Block) (j : Job) (c : Nat × Nat) (n : Nat) (key : Bytes), jobOf b j.id = some j → j.due = none → dMsg j.desc = 0 → j.ctx = some c →
    chooseCore b c = some n → recheck b j = .good key → partGate b j none (holdMode b j.desc c) = .go →
    tryDispatch b j.id = some (partRun n j c (holdMode b j.desc c) false b)) ∧
  (∀ (s : State) (n : Nat) (j : Job), (s.blk.sce.cores[n]?).bind (·.job) = some j.id → jobOf s.blk j.id = some j → j.stage = .running →
    let d := j.desc
    let m := if dFirst d then none else jobMsg s.blk j
    let key := unitKey s.blk j.id
    let aad := j.data.take (dAad d)
    let pay := (j.data.drop (dAad d)).take (payload d)
    let tag := (j.data.drop (dAad d + payload d)).take (dTagLen d)
    let r := cipherPart (dOp d) (dParam d) (dLast d) key aad pay (if isAeadDec (dOp d) && dLast d then tag else []) (partStart s.blk j key)
    exec (.sessionPartDone n) s = .next { s with blk := settleAll (purgeBanks (endWith j m (jobHolds s.blk j) r s.blk)) })

/-- PARK_TIMEOUT and PENDING_PARK (R336): the message bound to the core, or the BOUND message that has waited longest when a descriptor waits and no core
is eligible, is parked: its core is free and keeps no key. MESSAGE_ABANDON (R337): an open message that no part runs of is abandoned:
it is open no more, and a tombstone names the bytes zeroed. HOLD_WAIT_TIMEOUT
(R341): a pending part that still waits for staging ends with HOLD_LIMIT, zeroing the whole output area of its message; its own output list, where it has
one, is read first. -/
def Claims.ParkingAndAbandonment : Prop :=
  (∀ (s : State) (n : Nat) (c : CoreU) (d i : Nat), s.blk.sce.cores[n]? = some c → c.msg = some (d, i) → c.job = none →
    exec (.parkTimeout n) s = .next { s with blk := settleAll (parkMsg d i s.blk) }) ∧
  (∀ (s : State) (j : Job) (m : Msg), j.id ∈ s.blk.sce.pending → jobOf s.blk j.id = some j → dMsg j.desc = 0 →
    (List.range s.blk.sce.cores.length).any (coreEligible s.blk) = false → longestBound s.blk = some m →
    exec .pendingPark s = .next { s with blk := settleAll (parkMsg m.dqn m.msgId s.blk) }) ∧
  (∀ (b : Block) (m : Msg) (c : Nat), msgOf b m.dqn m.msgId = some m → m.state = .bound c → parkedCount b < parkedOf b.run.variant →
    let t := parkMsg m.dqn m.msgId b
    msgOf t m.dqn m.msgId = some { m with
      state := .parked, wantPark := false, cipher := CipherSt.none
      park := some (parkSeal b (freeParkSlot b) ((b.sce.parks + 1) % 65536) m) } ∧ t.sce.parks = sat32 (b.sce.parks + 1) ∧
      ∀ u, t.sce.cores[c]? = some u → u.key = none ∧ u.msg = none ∧ u.job = none) ∧
  (∀ (s : State) (d i : Nat), exec (.messageAbandon d i) s = .next { s with
    blk := settleAll (abandonWhere (fun m => m.dqn == d && m.msgId == i && !waitsAtCore s.blk m) s.blk) }) ∧
  (∀ (b : Block) (m : Msg), msgOf b m.dqn m.msgId = some m → let t := abandonMsg m.dqn m.msgId b
    let n := rangesLen (partsWritten m.parts)
    msgOf t m.dqn m.msgId = none ∧ t.sce.abandoned = sat32 (b.sce.abandoned + 1) ∧
      { dqn := m.dqn, msgId := m.msgId, zeroed := n, ok := decide (0 < n) && !b.link.writeCheck } ∈ t.sce.tombs) ∧
  (∀ (s : State) (j : Job), j.id ∈ s.blk.sce.pending → jobOf s.blk j.id = some j →
    j.due = none →
    let m := if dFirst j.desc then none else (jobMsg s.blk j).map (·.resumed s.blk)
    let ctx := (m.map (·.ctx)).getD (j.ctx.getD (0, 0))
    let area := (m.map (fun m => partsArea m.parts)).getD []
    partGate s.blk j m ((m.map (·.hold)).getD (holdMode s.blk j.desc ctx)) = .stageWait →
    (fragDst j.desc = false → exec (.holdWaitTimeout j.id) s = .next { s with blk := settleAll (concludeCore j.id
      { verdict stHoldLimit 0 0 0 with extent := area ++ takeRanges [(dDst j.desc, outLen j.desc)] (outLen j.desc) }
      (s.blk.onSce (fun x => { x with pending := x.pending.filter (· != j.id) }))) }) ∧
    (fragDst j.desc = true → exec (.holdWaitTimeout j.id) s = .next { s with blk := settleAll (nextRead j.id (onJob s.blk j.id (fun j =>
      { j with due := some { verdict stHoldLimit 0 0 0 with extent := area }, dst := Walk.start (dDst j.desc), outLen := outLen j.desc }))) }))

/-- SCE_PARK_TIMEOUT_WRITE and SCE_ABANDON_TIMEOUT_WRITE (R349), on a variant with session cores and with no reserved bit written: the field becomes the
value, 0 taken as 1, the abandon timeout at most 60,000; every other register, every other unit and what the device has sent stay. -/
def Claims.SessionTimeoutWrites : Prop :=
  ∀ (s : State) (v : Word), coresOf s.blk.run.variant ≠ 0 → RegReach s.blk 0xFFFF0000 v →
    exec (.sceParkTimeoutWrite v) s = .next { s with blk := { s.blk with sce := { s.blk.sce with parkUs := max 1 v.toNat } } } ∧
    exec (.sceAbandonTimeoutWrite v) s = .next { s with
      blk := { s.blk with sce := { s.blk.sce with abandonMs := min 60000 (max 1 v.toNat) } } }

/-- Session descriptors start and end; messages are parked and abandoned; timeouts are written. -/
def Obligations.SessionEnginesRun : Prop := Claims.SessionPartsRun ∧ Claims.ParkingAndAbandonment ∧ Claims.SessionTimeoutWrites

/-- DIGEST_DESCRIPTOR_END (R354, R356): a pipeline whose descriptor has all its source bytes is free again; DIGEST, HMAC and KMAC write the value and
complete with its length in BYTES_DONE; DIGEST_COMPARE completes with SUCCESS when the value equals the expected one byte for byte, and with AUTH_FAIL when
not. -/
def Claims.DigestDescriptorEnds : Prop :=
  ∀ (s : State) (n : Nat) (j : Job), (s.blk.dge.pipes[n]?).bind (·.job) = some j.id → jobOf s.blk j.id = some j → j.stage = .running →
    let d := j.desc
    let v := digestValue (dAlg d) (digestLen d) (digestKey s.blk j) (dSLen d) j.data
    let b := onPipe n (fun p => { p with job := none }) s.blk
    (dOp d ≠ 0x23 → exec (.digestDescriptorEnd n) s = .next { s with
      blk := settleAll (concludeCore j.id (success v.length 0) (writeOut j v b)) }) ∧
    (dOp d = 0x23 → exec (.digestDescriptorEnd n) s = .next { s with
      blk := settleAll (concludeCore j.id
        (if v = j.iv.take v.length ∧ v.length ≤ j.iv.length then success 0 0 else verdict stAuthFail 0 0 0) b) })

/-- The digest interface is held, through whichever window, and the write reaches it with no reserved bit. -/
def Claims.RmReach (b : Block) (resv : Nat) (v : Word) : Prop :=
  RegReach b resv v ∧ ∃ t, b.leg.digest.holder = some t

/-- The block with the lease of the digest lock renewed. -/
def Claims.renewed (b : Block) : Block := b.onLeg (fun l => { l with digest := { l.digest with renewed := b.time.usec } })

/-- With the digest lock held (R475 to R478), through either window: START with a good unkeyed ALG and OUT_LEN opens a message and clears DONE, data and
results, and sets ERROR otherwise; a word of DGE_RM_DATA is appended to an open message, and sets ERROR without one; FINAL closes an open message; ABORT
discards all. Each renews the lease and touches nothing else (R358, R374). -/
def Claims.DigestRegisterMode : Prop :=
  ∀ (s : State) (leg : Bool) (v : Word), let b := Claims.renewed s.blk
    let n := v.toNat
    (Claims.RmReach s.blk 0x1FF80000 v →
      (∀ r : RegDigest, r = { s.blk.dge.rm with alg := bits n 7 0, outLen := bits n 15 8, tail := bits n 18 16 } →
        (bit n 29 = false → bit n 30 = false → !algKeyed r.alg && (algLen r.alg).isSome && outLenOk r.alg r.outLen →
          exec (.dgeRmStart leg v) s = .next { s with
            blk := onRm (fun _ => { r with
              open_ := true, busy := true, done := false, data := [], result := [], runAlg := r.alg, runLen := r.outLen }) b }) ∧
        (bit n 29 = false → bit n 31 = false → r.open_ = true →
          exec (.dgeRmFinal leg v) s = .next { s with blk := onRm (fun _ => { r with open_ := false, runTail := r.tail }) b }) ∧
        (bit n 30 = false → bit n 31 = false →
          exec (.dgeRmAbort leg v) s = .next { s with
            blk := onRm (fun _ => { r with open_ := false, busy := false, done := false, data := [], result := [] }) b }))) ∧
    (Claims.RmReach s.blk 0 v →
      exec (.dgeRmDataWrite leg v) s = .next { s with
        blk := onRm (fun r => if r.open_ then { r with data := r.data ++ lePut 4 n } else { r with error := true }) b })

/-- RM_DIGEST_DONE (R358): with the message closed and whole words only (TAIL 0 at FINAL), and pipeline 1 in service, the result is the digest of the words written, cut to 64 bytes, DONE
is set and BUSY clear. DGE_RM_RESULT_READ (R359): while DONE is 1 a read returns the word of the result; while it is 0 the read returns 0 and EARLY_READ is
set. -/
def Claims.DigestResultRead : Prop :=
  (∀ s : State, let r := s.blk.dge.rm
    r.busy = true → r.open_ = false → r.runTail = 0 → (∀ p, s.blk.dge.pipes[1]? = some p → p.selfTest = false ∧ p.failed = false) →
    let out := if r.runLen = 0 then (algLen r.runAlg).getD 0 else r.runLen
    exec .rmDigestDone s = .next { s with blk := onRm (fun x => { x with
      busy := false, done := true, result := (digestValue r.runAlg out [] 0 r.data).take 64, data := [] }) s.blk }) ∧
  (∀ (s : State) (leg : Bool) (n : Nat), (fnOf s.blk 0).d3hot = false → s.blk.run.state ≠ .frozen → s.blk.leg.digest.holder.isSome = true →
    let b := Claims.renewed s.blk
    exec (.dgeRmResultRead leg n) s = .next { s with
      blk := (if s.blk.dge.rm.done then reply 0 .success (slice s.blk.dge.rm.result (4 * n) 4) b
        else reply 0 .success (zeros 4) (onRm (fun r => { r with early := true }) b)) })

/-- Digest descriptors end; the register mode digests words. -/
def Obligations.DigestsComputed : Prop := Claims.DigestDescriptorEnds ∧ Claims.DigestRegisterMode ∧ Claims.DigestResultRead

/-! ### Commands of the keeper: how any of them runs, and public keys (chapters 15 and 16) -/

/-- HSM commands with their COMMAND codes (R377): all but LCS_ADVANCE, UPDATE_KEEPER and DEBUG_UNLOCK, which have statements of their own. -/
def Claims.hsmCommands : List ((Nat → Instr) × Nat) :=
  [(Instr.lcsGetNonce, 0x10), (Instr.tokenRootRevoke, 0x12), (Instr.otpProgram, 0x13), (Instr.rootRevoke, 0x20),
   (Instr.getCert, 0x02), (Instr.attest, 0x03), (Instr.keyGenerate, 0x30), (Instr.keyDerive, 0x31), (Instr.importSession, 0x32),
   (Instr.importBlobClear, 0x33), (Instr.importSlotClear, 0x34), (Instr.slotGenerate, 0x35), (Instr.slotErase, 0x36), (Instr.slotStatus, 0x37),
   (Instr.keyblockImport, 0x38), (Instr.keyblockExport, 0x39), (Instr.kwpExport, 0x3A), (Instr.blobRewrap, 0x3B), (Instr.pkPublic, 0x40),
   (Instr.pkSign, 0x41), (Instr.pkVerify, 0x42), (Instr.pkAgree, 0x43), (Instr.kemEncap, 0x44), (Instr.kemDecap, 0x45), (Instr.eqxOpen, 0x50),
   (Instr.eqxApprove, 0x51), (Instr.eqxStatus, 0x52), (Instr.eqxClose, 0x53), (Instr.ownerCreate, 0x58), (Instr.ownerUpdate, 0x59),
   (Instr.ownerDelete, 0x5A), (Instr.fnBind, 0x5B), (Instr.fnUnbind, 0x5C), (Instr.domainCreate, 0x60), (Instr.domainOffer, 0x61),
   (Instr.domainSponsor, 0x62), (Instr.domainJoin, 0x63), (Instr.domainSend, 0x64), (Instr.domainReceive, 0x65), (Instr.domainRotate, 0x66),
   (Instr.domainRetire, 0x67), (Instr.domainRevoke, 0x68), (Instr.domainLeave, 0x69), (Instr.harvestClear, 0x70)]

/-- The HSM commands (R376): a command whose turn has not come, or that the keeper does not hold under that code, changes nothing. A command that must
run alone has its turn only when no other such command that came before it is still held, but for an LCS_ADVANCE that drains (R85). -/
def Obligations.KeeperCommandsTakeTurns : Prop :=
  (∀ p ∈ Claims.hsmCommands, ∀ (s : State) (id : Nat), hsmReady s.blk p.2 id = none → exec (p.1 id) s = .next s) ∧
  (∀ (b : Block) (code id : Nat) (h : HsmJob), hsmReady b code id = some h → runsAlone h.block = true →
    ∀ x ∈ b.kpr.hsm.takeWhile (fun x => x.id != id), runsAlone x.block = true → x.stage = .lcsDrain)

/-- A command of the monitor that ends is out of the keeper's hands and its reply is sent. One sent by descriptor, with WRITE_CHECK off and the
function's requests not halted, ends as that descriptor: SUCCESS, or HSM_ERROR with the reason in DETAIL (R252, R376), RESULT as the command gives it, and its output written to DST; it is held by
the keeper no more. -/
def Obligations.KeeperCommandEnds : Prop :=
  ∀ (h : HsmJob) (j : Job) (n result reason : Nat) (b : Block), h.req = .fn n → jobOf b h.id = some j → j.id = h.id →
    (∀ x ∈ (hsmOk h result [] b).kpr.hsm, x.id ≠ h.id) ∧ (∀ x ∈ (hsmFail h reason result b).kpr.hsm, x.id ≠ h.id) ∧
    (b.link.writeCheck = false → j.dqn ≠ ghostQueue → isSession (dOp j.desc) = false → fnHalted b j.fn = false → ended j.stage = false →
      jobOf (hsmOk h result [] b) h.id = none ∧ jobOf (hsmFail h reason result b) h.id = none ∧
      (cqOf (hsmOk h result [] b) (sqOf b j.dqn).cq).written = (cqOf b (sqOf b j.dqn).cq).written + 1)

/-- The class of keeper jobs of a unit is not full. -/
def Claims.PkRoom (b : Block) (u : UnitId) : Prop := (pkAt b u).queue.countP (fun q => q.2 != 0) < 32

/-- PK_PUBLIC, PK_SIGN, PK_VERIFY, PK_AGREE, KEM_ENCAP and KEM_DECAP (R360, R364 to R367), in their turn and with room on the unit of their parameter
set: a refusal of R366 and R367 ends the command with HSM_ERROR; otherwise it is queued on the modular or the lattice unit, with the private key its blob
holds and, for a signature that is not deterministic and for an encapsulation, fresh random bytes. The owner KEKs that the command opened and will wrap
with are held from then on (R263). -/
def Claims.PublicKeyCommandsQueue : Prop :=
  ∀ p ∈ [(Instr.pkPublic, 0x40), (Instr.pkSign, 0x41), (Instr.pkVerify, 0x42), (Instr.pkAgree, 0x43), (Instr.kemEncap, 0x44), (Instr.kemDecap, 0x45)],
    ∀ (s : State) (h : HsmJob), let hd := pkHead (bkParam h.block)
    Passes s.blk h p.2 (if p.2 = 0x42 then { ruleAny h.block with sender := isFn h.req } else ruleBound s.blk h.req h.block) none →
    Claims.PkRoom s.blk (pkUnitOf hd.aset) →
    exec (p.1 h.id) s = .next { s with blk := (settleAll (match pkJudge s.blk p.2 h with
      | .error e => hsmNoKey h e (pkOpened p.2 h s.blk)
      | .ok (it, key) =>
        let b := pkKek p.2 it (pkOpened p.2 h s.blk)
        let r := if p.2 = 0x44 then drawSeed 32 b else draw1 (pkRndLen b p.2 hd) b
        pkSubmit (pkUnitOf hd.aset) h (key ++ r.1) (if pkRndLen b p.2 hd = 0 then b else r.2))) }

/-- PKE_JOB_DONE (R360, R364): the busy unit's command ends with its result and the unit takes its next job: PK_PUBLIC returns the public key,
PK_SIGN the signature (counted), PK_VERIFY 1 or 0 in RESULT (counted), and PK_AGREE, KEM_ENCAP and KEM_DECAP a blob of the shared secret under the template,
KEM_ENCAP with the ciphertext before it, unless the BBRAM commit that a new blob counter may need fails (0x030D). -/
def Claims.PublicKeyJobEnds : Prop :=
  (∀ (s : State) (u : UnitId) (h : HsmJob), (u = .pkMod ∨ u = .pkLat) → (pkAt s.blk u).state = .busy →
    s.blk.kpr.hsm.find? (fun x => some x.id == (pkAt s.blk u).running) = some h → hsmOrphan s.blk h = false →
    s.blk.rng.state = .ready →
    exec (.pkeJobDone u) s = .next { s with
      blk := settleAll (pkNext u (onPk u (fun p => { p with state := .idle, running := none }) (pkResult h s.blk))) }) ∧
  (∀ (h : HsmJob) (b : Block) (it : PkItems), let hd := pkHead (bkParam h.block)
    let code := bkCommand h.block
    let key := h.note.take (privLen hd.aset)
    let blob (secret front : Bytes) :=
      hsmCommit h 0x030D (front.length + 144) (front ++ (makeBlob it.tmpl secret b).1) (makeBlob it.tmpl secret b).2 b
    pkItems code (bkParam h.block) = some it →
    (code = 0x40 → pkResult h b = hsmOk h (pubLen hd.aset) (pkPublic hd.aset key) b) ∧
    (code = 0x41 → pkResult h b = hsmOk h (sigLen hd.aset)
      (pkSign hd.aset key hd.prehash hd.hash it.ctx it.msg (h.note.drop (privLen hd.aset))) (countSign b)) ∧
    (code = 0x42 → pkResult h b = hsmOk h (b2n (pkVerify hd.aset it.pub hd.prehash hd.hash it.ctx it.msg it.sig)) [] (countVerify b)) ∧
    (code = 0x43 → pkResult h b = blob (pkAgree hd.aset key it.pub) []) ∧
    (code = 0x44 → pkResult h b = blob (kemEncaps hd.aset it.pub h.note).1 (kemEncaps hd.aset it.pub h.note).2) ∧
    (code = 0x45 → pkResult h b = blob (kemDecaps hd.aset key it.sig) []))

/-- Public-key commands queue for their unit and end. -/
def Obligations.PublicKeyCommands : Prop := Claims.PublicKeyCommandsQueue ∧ Claims.PublicKeyJobEnds

/-! ### Keys (chapter 11) -/

/-- A key command without a quorum in its turn, with owner keys there. -/
def Claims.KeyTurn (b : Block) (h : HsmJob) (code : Nat) (lcs : List Nat) : Prop :=
  Passes b h code (ruleBound b h.req h.block) none ∧ keyGate b lcs = none

/-- A key command under its owner's quorum in its turn, with owner keys there once its session is consumed. -/
def Claims.QuorumTurn (b : Block) (h : HsmJob) (code : Nat) (required : Bool) (x : EqxSession) (lcs : List Nat) : Prop :=
  Passes b h code (ruleOwner b h.req h.block required) (some x) ∧ keyGate (dropSession x.sid b) lcs = none

/-- KEY_GENERATE (R279), KEY_DERIVE (R530) and BLOB_REWRAP (R394) of a bound function, in their turn, with well-formed parameters: a fresh key of the
template's type is returned as a blob with its public key; a key of type 0x08 with DERIVE, from the slot or blob named, gives the key that the KDF under
"JKH owner derive" makes of the template's bytes and the context, as a blob; a blob that opens is sealed again under the current epoch. What does not open,
belong or fit ends with HSM_ERROR, with the reason the chapter gives. -/
def Claims.BlobsMadeFromKeys : Prop :=
  ∀ (s : State) (h : HsmJob), let p := bkParam h.block
    (∀ t e, Claims.KeyTurn s.blk h 0x30 lcsAny → fixedItem p 0 32 = some (t, e) → itemsEnd p e = true → tmplBad h t = none →
      asymDead s.blk (hType t) = none →
      let k := freshKey (hType t) (hKeyLen t) s.blk
      exec (.keyGenerate h.id) s = .next { s with blk := settleAll (giveBlob h t k.1 (publicOf (hType t) k.1) k.2) }) ∧
    (∀ blob t c e1 e2 e3, let i := leAt p 0 1
      Claims.KeyTurn s.blk h 0x31 lcsAny → kekItem p i = some (blob, e1) → fixedItem p e1 32 = some (t, e2) → varItem p e2 = some (c, e3) →
      itemsEnd p e3 = true → c.length ≤ 64 → allZero p 1 3 = true → 8 ≤ p.length → (i = 0 ∨ ownerSlot i = true) → tmplBad h t = none →
      144 ≤ leAt p 4 4 →
      exec (.keyDerive h.id) s = .next { s with blk := (settleAll (match eitherNamed s.blk h i blob with
        | .error e => hsmNoKey h e (eitherOpened h i blob s.blk)
        | .ok k =>
          let b := eitherOpened h i blob s.blk
          if hOwner k.head ≠ hOwner t then hsmFail h 0x0303 0 b
          else if namedFits b h k 0x08 useDerive = false then hsmFail h 0x0309 0 b
          else giveBlob h t (kdf k.key "JKH owner derive" (slice t 4 16 ++ c) (hKeyLen t)) [] b)) }) ∧
    (∀ blob e, Claims.KeyTurn s.blk h 0x3B lcsAny → fixedItem p 8 144 = some (blob, e) → itemsEnd p e = true → allZero p 4 4 = true →
      144 ≤ leAt p 0 4 →
      exec (.blobRewrap h.id) s = .next { s with blk := (settleAll (match blobNamed s.blk h blob with
        | .error e => hsmNoKey h e (blobOpened h blob s.blk)
        | .ok k => giveBlob h k.head k.key [] (blobOpened h blob s.blk))) })

/-- Once an import has ended the session that its parameters name is over. -/
def Claims.importEnds (h : HsmJob) (r : Block) : Block :=
  if r.kpr.hsm.any (fun x => x.id == h.id) = true then r else importUsed (leAt (bkParam h.block) 0 4) r

/-- IMPORT_SESSION (R280): in PROVISION, with no parameters and both public-key units in service, a session with fresh ephemeral keys replaces any earlier one and
its public keys are returned in a signed statement. IMPORT_BLOB_CLEAR and IMPORT_SLOT_CLEAR under the owner's quorum: the session's keys are erased whatever
comes; an envelope that does not open gives 0x030B; one that opens gives the key as a blob, or commits it to the slot. IMPORT_SESSION_EXPIRY erases the
session. -/
def Claims.ImportSessions : Prop :=
  (∀ (s : State) (h : HsmJob), Claims.KeyTurn s.blk h 0x32 [2] → bkParam h.block = [] → hybridDead s.blk = none →
    let r := drawSeed 120 s.blk
    let n := s.blk.key.nextImport
    let x : ImportSession := { sid := n, seed := r.1, opened := s.blk.time.secs }
    let keys := importKeys x
    let out := aliasCose (cborPut (cborMap [(1, .bytes (pkPublic 0x19 keys.1)), (2, .bytes (pkPublic 0x05 keys.2)), (3, .uint n)]))
      (r.2.onKey (fun k => { k with imp := some x, nextImport := k.nextImport % (2 ^ 32 - 1) + 1 }))
    exec (.importSession h.id) s = .next { s with blk := settleAll (hsmOk h n out.1 out.2) }) ∧
  (∀ (s : State) (h : HsmJob) (x : EqxSession) (t env : Bytes) (e1 e2 : Nat), let p := bkParam h.block
    let b := dropSession x.sid s.blk
    Claims.QuorumTurn s.blk h 0x33 true x [2] → fixedItem p 8 32 = some (t, e1) → fixedItem p e1 (0x690 + hKeyLen t + 16) = some (env, e2) →
    itemsEnd p e2 = true → allZero p 4 4 = true → allZero env 0x681 3 = true → tmplBad h t = none →
    exec (.importBlobClear h.id) s = .next { s with blk := Claims.importEnds h (settleAll (match openEnvelope b (leAt p 0 4) (hKeyLen t) t env with
      | none => hsmFail h 0x030B 0 b
      | some key => giveBlob h t key [] b)) }) ∧
  (∀ (s : State) (h : HsmJob) (x : EqxSession) (a env : Bytes) (e1 e2 : Nat), let p := bkParam h.block
    let b := dropSession x.sid s.blk
    let i := leAt p 4 1
    Claims.QuorumTurn s.blk h 0x34 true x [2] → fixedItem p 8 16 = some (a, e1) → fixedItem p e1 (0x690 + leAt a 3 1 + 16) = some (env, e2) →
    itemsEnd p e2 = true → allZero p 5 3 = true → allZero env 0x681 3 = true → slotBad b h i a = none →
    exec (.importSlotClear h.id) s = .next { s with blk := Claims.importEnds h (settleAll (match openEnvelope b (leAt p 0 4) (leAt a 3 1) a env with
      | none => hsmFail h 0x030B 0 b
      | some key => giveSlot h i key a [] b)) }) ∧
  (∀ s : State, exec .importSessionExpiry s = .next { s with blk := { s.blk with key := { s.blk.key with imp := none } } })

/-- Blobs are made from keys; keys come in through import sessions. -/
def Obligations.KeyBlobsAndImports : Prop := Claims.BlobsMadeFromKeys ∧ Claims.ImportSessions

/-- SLOT_GENERATE (R279) under the owner's quorum commits a fresh key of the ATTR's type to the slot and returns its public key; SLOT_ERASE under the
quorum of the slot's owner erases it; SLOT_STATUS (R530) of a bound function returns the state in RESULT (0 EMPTY, 1 VALID, 2 CORRUPT, which is also
reported) and 24 bytes with state, GEN and ATTR. A commit whose readback fails gives 0x030D, and its pair is judged again (R275). -/
def Claims.KeySlotsManaged : Prop :=
  (∀ (s : State) (h : HsmJob) (x : EqxSession) (a : Bytes) (e : Nat), let p := bkParam h.block
    let b := dropSession x.sid s.blk
    let i := leAt p 0 1
    let t := hType (attrHeader a)
    Claims.QuorumTurn s.blk h 0x35 true x lcsField → fixedItem p 8 16 = some (a, e) → itemsEnd p e = true → allZero p 1 7 = true →
    slotBad b h i a = none → asymDead b t = none →
    let k := freshKey t (hKeyLen (attrHeader a)) b
    exec (.slotGenerate h.id) s = .next { s with blk := settleAll (giveSlot h i k.1 a (publicOf t k.1) k.2) }) ∧
  (∀ (h : HsmJob) (i : Nat) (key a out : Bytes) (b : Block), xtsTwin (hType (attrHeader a)) key = false →
    let c := commitSlot i key a b
    (c.key.badPair = none → giveSlot h i key a out b = hsmOk h i out c) ∧
    (∀ n, c.key.badPair = some n → giveSlot h i key a out b = hsmFail h 0x030D 0 (judgeAgain n { b with
      bbram := c.bbram, key := { b.key with commitNo := c.key.commitNo, commits := c.key.commits } }))) ∧
  (∀ (s : State) (h : HsmJob) (x : EqxSession), let p := bkParam h.block
    slotState s.blk (leAt p 0 1) ≠ .corrupt → Claims.QuorumTurn s.blk h 0x36 (eraseAllowed h s.blk) x lcsAny → p.length = 8 → allZero p 1 7 = true → ownerSlot (leAt p 0 1) = true →
    exec (.slotErase h.id) s = .next { s with
      blk := settleAll (hsmOk h (leAt p 0 1) [] (eraseSlot (leAt p 0 1) (dropSession x.sid s.blk))) }) ∧
  (∀ (s : State) (h : HsmJob), let p := bkParam h.block
    let i := leAt p 0 1
    let out (st g : Nat) (a : Bytes) : Bytes := lePut 1 st ++ lePut 1 g ++ zeros 6 ++ slice a 0 16
    Claims.KeyTurn s.blk h 0x37 lcsAny → p.length = 8 → allZero p 1 3 = true → ownerSlot i = true → 24 ≤ leAt p 4 4 →
    exec (.slotStatus h.id) s = .next { s with blk := (settleAll (match slotState s.blk i with
      | .empty => hsmOk h 0 (out 0 0 []) s.blk
      | .valid g c => hsmOk h 1 (out 1 g (c.drop 0x40)) s.blk
      | .corrupt => hsmOk h 2 (out 2 0 []) (noteCorrupt i s.blk))) })

/-- The parameters of an export: the KEK slot or blob, the blob. -/
def Claims.ExportItems (p kek blob : Bytes) : Prop :=
  ∃ e1 e2, kekItem p (leAt p 0 1) = some (kek, e1) ∧ fixedItem p e1 144 = some (blob, e2) ∧ itemsEnd p e2 = true ∧ allZero p 1 3 = true ∧
    (leAt p 0 1 = 0 ∨ ownerSlot (leAt p 0 1) = true)

/-- KEYBLOCK_IMPORT, KEYBLOCK_EXPORT and KWP_EXPORT (R279, R281) of a bound function, in their turn and with well-formed parameters, once the KEK and the
blob open (what does not open ends with its reason): owner and usage are judged first; an import then parses and opens the X9.143 block and gives its key
as a blob under the template; an export needs EXPORTABLE and an output area large enough, and gives the key block or the RFC 5649 wrapping. -/
def Claims.KeyBlocksAndExports : Prop :=
  (∀ (s : State) (h : HsmJob) (blob t kb : Bytes) (e1 e2 e3 : Nat), let p := bkParam h.block
    let i := leAt p 0 1
    Claims.KeyTurn s.blk h 0x38 lcsField → kekItem p i = some (blob, e1) → fixedItem p e1 32 = some (t, e2) → varItem p e2 = some (kb, e3) →
    itemsEnd p e3 = true → allZero p 1 3 = true → (i = 0 ∨ ownerSlot i = true) → tmplBad h t = none →
    exec (.keyblockImport h.id) s = .next { s with blk := (settleAll (match eitherNamed s.blk h i blob with
      | .error e => hsmNoKey h e (eitherOpened h i blob s.blk)
      | .ok kek =>
        let b := eitherOpened h i blob s.blk
        if hOwner kek.head ≠ hOwner t then hsmFail h 0x0303 0 b
        else if namedFits b h kek 0x07 useUnwrap = false then hsmFail h 0x0309 0 b
        else match kbParse kb with
          | none => hsmFail h 0x030A 0 b
          | some (kh, off) => match kbOpen kek.key kb off with
            | none => hsmFail h 0x030B 0 b
            | some key =>
              let want := hUsage t &&& (0xFFFF - (2 ^ useHoldOnly + 2 ^ useRetro + 2 ^ useStream))
              if kbType kh key.length ≠ some (hType t) ∨ key.length ≠ hKeyLen t ∨ kbUsage kh = none ∨ want &&& (kbUsage kh).getD 0 ≠ want then
                hsmFail h 0x030C 0 b
              else if leAt p 4 4 < 144 then hsmFail h 0x030F 144 b
              else giveBlob h t key [] b)) }) ∧
  (∀ q ∈ [(Instr.keyblockExport, 0x39, true), (Instr.kwpExport, 0x3A, false)], ∀ (s : State) (h : HsmJob) (kek blob : Bytes),
    let p := bkParam h.block
    Claims.KeyTurn s.blk h q.2.1 lcsField → Claims.ExportItems p kek blob →
    exec (q.1 h.id) s = .next { s with blk := (settleAll (match eitherNamed s.blk h (leAt p 0 1) kek, blobNamed s.blk h blob with
      | .error e, _ => hsmNoKey h e (eitherOpened h (leAt p 0 1) kek s.blk)
      | .ok _, .error e => hsmNoKey h e (blobOpened h blob (eitherOpened h (leAt p 0 1) kek s.blk))
      | .ok kk, .ok k =>
        let b := blobOpened h blob (eitherOpened h (leAt p 0 1) kek s.blk)
        let n := if q.2.2 then kbLen k.key.length else 8 * ceilDiv k.key.length 8 + 8
        let pad := draw1 (kbPadLen k.key.length) b
        if hOwner kk.head ≠ hOwner k.head then hsmFail h 0x0303 0 b
        else if namedFits b h kk 0x07 useWrap = false ∨ bit (hUsage k.head) useExportable = false then hsmFail h 0x0309 0 b
        else if q.2.2 = true ∧ kbAttrs (hType k.head) (hUsage k.head) = none then hsmFail h 0x030C 0 b
        else if leAt p 4 4 < n then hsmFail h 0x030F n b
        else if q.2.2 then
          hsmOk h n (kbSeal kk.key k.key pad.1 ((kbAttrs (hType k.head) (hUsage k.head)).getD ([], 0, 0))) pad.2
        else hsmOk h n (kwpWrap kk.key k.key) b)) })

/-- Key slots are filled and erased; key blocks come in and keys go out. -/
def Obligations.KeySlotsAndBlocks : Prop := Claims.KeySlotsManaged ∧ Claims.KeyBlocksAndExports

/-! ### Equinox sessions, owners, bindings (chapter 16) -/

/-- The session commands of one authority in their turn. -/
def Claims.SessionTurn (b : Block) (h : HsmJob) (code : Nat) : Prop := Passes b h code (ruleSession b h) none

/-- EQX_OPEN (R383, R384), with well-formed parameters, a lifetime of 10 to 3,600 s, no open session of the authority, fewer than 16 sessions and room for
the TBS: a record or charter that is not live gives 0x0505; otherwise a session with a random number and nonce is open until its EXPIRY, and the TBS is
returned. EQX_APPROVE (R385): the key pair must be the officer's of the record and both signatures over the TBS must verify; the officer then counts once,
and RESULT gives the mask, the count and the QUORUM. A failing approval is counted, the eighth erasing the session, and gives 0x0508. -/
def Claims.SessionsOpenAndCollectApprovals : Prop :=
  (∀ (s : State) (h : HsmJob) (w cmd rec path : Bytes) (e1 e2 e3 e4 : Nat), let p := bkParam h.block
    let a := bkAuth h.block
    let b := purgeSessions s.blk
    Claims.SessionTurn s.blk h 0x50 → fixedItem p 0 8 = some (w, e1) → fixedItem p e1 48 = some (cmd, e2) → fixedItem p e2 816 = some (rec, e3) →
    (if a = 0x1000 then some ([], e3) else fixedItem p e3 576) = some (path, e4) → itemsEnd p e4 = true →
    10 ≤ leAt p 0 2 → leAt p 0 2 ≤ 3600 → leAt p 2 2 = 0 → b.kpr.sessions.any (fun x => x.authority == a) = false →
    b.kpr.sessions.length < 16 → 184 ≤ leAt p 4 4 →
    let i := draw1 4 b
    let n := draw1 32 i.2
    let sid := max 1 (leNat i.1)
    let tbs := tbsOf b sid a (b.time.secs + leAt p 0 2) n.1 (if a = 0x1000 then sha384 rec else treeLeaf rec) cmd
    let x : EqxSession :=
      { sid := sid, authority := a, opener := h.req, nonce := n.1, expiry := b.time.secs + leAt p 0 2, record := rec, path := path,
        member := domMember (domRec b), cmdDigest := cmd, tbs := tbs, approved := [], failures := 0 }
    exec (.eqxOpen h.id) s = .next { s with blk := settleAll (if presented b a rec path = false then hsmFail h 0x0505 0 b
      else hsmOk h sid tbs (n.2.onKpr (fun k => { k with sessions := k.sessions ++ [x] }))) }) ∧
  (∀ (s : State) (h : HsmJob) (w pk s1 s2 : Bytes) (e1 e2 e3 e4 : Nat) (x : EqxSession), let p := bkParam h.block
    let i := leAt p 4 1
    let b := countVerify (countVerify s.blk)
    let x' := if x.approved.contains i then x else { x with approved := x.approved ++ [i] }
    Claims.SessionTurn s.blk h 0x51 → fixedItem p 0 8 = some (w, e1) → pairItem p e1 = some (pk, e2) → fixedItem p e2 96 = some (s1, e3) →
    fixedItem p e3 3309 = some (s2, e4) → itemsEnd p e4 = true → i ≤ 15 → allZero p 5 3 = true → sessionOf s.blk (leAt p 0 4) = some x →
    hybridDead s.blk = none → s.blk.time.secs < x.expiry → x.authority = bkAuth h.block → i < leAt x.record 6 1 →
    exec (.eqxApprove h.id) s = .next { s with blk := (settleAll
      (if sha384 pk ≠ recOfficer x.record i then approvalFails h x s.blk
       else if hybridVerify (pk.take 97) (pk.drop 97) x.tbs (s1 ++ s2) = false then approvalFails h x b
       else hsmOk h (approvalMask x' + 2 ^ 16 * x'.approved.length + 2 ^ 24 * x'.quorum) []
         (b.onKpr (fun k => { k with sessions := k.sessions.map (fun y => if y.sid = x.sid then x' else y) })))) })

/-- EQX_STATUS (R378): of an open session of the authority RESULT gives OPEN or QUORUM, the approval mask and the seconds to expiry; of an unknown one 0.
EQX_CLOSE (R386) by the opener or PF0, and SESSION_EXPIRY, erase the session and no other. -/
def Claims.SessionStatusAndEnd : Prop :=
  (∀ (s : State) (h : HsmJob), let p := bkParam h.block
    Claims.SessionTurn s.blk h 0x52 → fixedOnly p 4 = true →
    (sessionOf s.blk (leAt p 0 4) = none → exec (.eqxStatus h.id) s = .next { s with blk := settleAll (hsmOk h 0 [] s.blk) }) ∧
    (∀ x, sessionOf s.blk (leAt p 0 4) = some x → x.authority = bkAuth h.block → s.blk.time.secs < x.expiry →
      exec (.eqxStatus h.id) s = .next { s with blk := settleAll (hsmOk h
        ((if x.quorum ≤ x.approved.length then 2 else 1) + 2 ^ 16 * approvalMask x + 2 ^ 32 * (x.expiry - s.blk.time.secs)) [] s.blk) })) ∧
  (∀ (s : State) (h : HsmJob) (x : EqxSession), let p := bkParam h.block
    Passes s.blk h 0x53 (ruleClose s.blk h) none → fixedOnly p 4 = true → sessionOf s.blk (leAt p 0 4) = some x →
    x.authority = bkAuth h.block → s.blk.time.secs < x.expiry →
    exec (.eqxClose h.id) s = .next { s with blk := settleAll (hsmOk h 0 [] (dropSession x.sid s.blk)) }) ∧
  (∀ (s : State) (sid : Nat), ∃ t, exec (.sessionExpiry sid) s = .next t ∧ sessionOf t.blk sid = none ∧
    t.blk = { s.blk with kpr := t.blk.kpr } ∧ ∀ i ≠ sid, sessionOf t.blk i = sessionOf s.blk i)

/-- Sessions open, collect approvals, report and end. -/
def Obligations.EquinoxSessions : Prop := Claims.SessionsOpenAndCollectApprovals ∧ Claims.SessionStatusAndEnd

/-- OWNER_CREATE, OWNER_UPDATE and OWNER_DELETE (R381): in TEST to RETURN, with well-formed parameters and a good record, a path that leads to REGISTRY_ROOT
(from an empty leaf, or from the tombstone that OWNER_CREATE replaces) and the sequence number that follows give one registry change (the new root, count and REGISTRY_SEQ committed, RESULT the sequence); what does not lead there or
follow is refused with 0x0505 or 0x050A. Owner 0 is never deleted. -/
def Claims.RegistryChanges : Prop :=
  (∀ (s : State) (h : HsmJob) (session : Option EqxSession) (rec path old : Bytes), let p := bkParam h.block
    let b := consumed session s.blk
    let d := domRec b
    let id := leAt rec 4 2
    let replaces := leAt p 0 1
    let leads := pathRoot id (if replaces = 0 then zeros 48 else treeLeaf old) path == domRoot d
    Passes s.blk h 0x58 (ruleCreate h s.blk) session → createItems p = some (rec, path, old) → replaces ≤ 1 → allZero p 1 7 = true →
    lcsAny.contains s.blk.run.lcs = true → recordOk rec = true →
    exec (.ownerCreate h.id) s = .next { s with blk := (settleAll
      (if replaces = 1 ∧ (tombOk old = false ∨ leAt old 4 2 ≠ id ∨ leads = false) then hsmFail h 0x0505 0 b
       else if leads = false ∨ (replaces = 1 ∧ domEpoch d < leAt old 0x0C 2 + 2) ∨
           leAt rec 8 4 ≠ (if replaces = 0 then 1 else leAt old 8 4 + 1) then hsmFail h 0x050A 0 b
       else changeRegistry h rec path (domOwners d + (if id = 0 then 0 else 1)) b)) }) ∧
  (∀ (s : State) (h : HsmJob) (x : EqxSession) (rec : Bytes) (e : Nat), let p := bkParam h.block
    let b := dropSession x.sid s.blk
    let id := leAt x.record 4 2
    Passes s.blk h 0x59 (ruleSelf h s.blk) (some x) → fixedItem p 0 816 = some (rec, e) → itemsEnd p e = true →
    lcsAny.contains s.blk.run.lcs = true → recordOk rec = true →
    exec (.ownerUpdate h.id) s = .next { s with blk := (settleAll
      (if pathRoot id (treeLeaf x.record) x.path ≠ domRoot (domRec b) then hsmFail h 0x0505 0 b
       else if leAt rec 4 2 ≠ id ∨ leAt rec 8 4 ≠ leAt x.record 8 4 + 1 then hsmFail h 0x050A 0 b
       else changeRegistry h rec x.path (domOwners (domRec b)) b)) }) ∧
  (∀ (s : State) (h : HsmJob) (x : EqxSession) (rec path : Bytes), let b := dropSession x.sid s.blk
    let p := bkParam h.block
    let id := leAt rec 4 2
    Passes s.blk h 0x5A (ruleSelf h s.blk) (some x) →
    ((bkAuth h.block ≠ 0 ∧ p = [] ∧ rec = x.record ∧ path = x.path) ∨
      (bkAuth h.block = 0 ∧ ∃ e1 e2, fixedItem p 0 816 = some (rec, e1) ∧ fixedItem p e1 576 = some (path, e2) ∧ itemsEnd p e2 = true)) →
    lcsAny.contains s.blk.run.lcs = true → recordOk rec = true →
    exec (.ownerDelete h.id) s = .next { s with blk := (settleAll
      (if pathRoot id (treeLeaf rec) path ≠ domRoot (domRec b) then hsmFail h 0x0505 0 b
       else if id = 0 then hsmFail h 0x050A 0 b
       else changeRegistry h (tombstoneOf rec (domEpoch (domRec b))) path (domOwners (domRec b) - 1) b)) })

/-- FN_BIND (R382): an enabled VF whose TDI is CONFIG_UNLOCKED and that the owner's record allows is bound to that owner when the record leads to
REGISTRY_ROOT and the VF has no other owner. FN_UNBIND removes the binding and returns the owner in RESULT. -/
def Claims.BindingsChange : Prop :=
  (∀ (s : State) (h : HsmJob) (w rec path : Bytes) (e1 e2 e3 : Nat), let p := bkParam h.block
    let fn := leAt p 0 2
    let id := leAt rec 4 2
    Passes s.blk h 0x5B (rulePlain h.req h.block) none → fixedItem p 0 8 = some (w, e1) → fixedItem p e1 816 = some (rec, e2) →
    fixedItem p e2 576 = some (path, e3) → itemsEnd p e3 = true → 1 ≤ fn → fn ≤ 255 → allZero p 2 6 = true →
    recordOk rec = true → recFn rec fn = true → bindable s.blk fn = true → tget s.blk.kpr.bindings fn = none →
    exec (.fnBind h.id) s = .next { s with blk := (settleAll
      (if pathRoot id (treeLeaf rec) path ≠ domRoot (domRec s.blk) then hsmFail h 0x0505 0 s.blk
       else hsmOk h 0 [] (s.blk.onKpr (fun k => { k with bindings := tset k.bindings fn id })))) }) ∧
  (∀ (s : State) (h : HsmJob) (o : Nat), let p := bkParam h.block
    let fn := leAt p 0 2
    Passes s.blk h 0x5C (rulePlain h.req h.block) none → fixedOnly p 2 = true → 1 ≤ fn → fn ≤ 255 →
    tget s.blk.kpr.bindings fn = some o → bindable s.blk fn = true →
    exec (.fnUnbind h.id) s = .next { s with
      blk := settleAll (hsmOk h o [] (s.blk.onKpr (fun k => { k with bindings := tdel k.bindings fn }))) })

/-- Owners are created, updated and deleted; VFs are bound and unbound. -/
def Obligations.OwnersAndBindings : Prop := Claims.RegistryChanges ∧ Claims.BindingsChange


/-! ### Key domains (chapter 16) -/

/-- A domain command runs now: its turn has come, KEYS_LOCKED is 0, the device is in PROVISION or PRODUCTION (R393). -/
def Claims.DomainTurn (b : Block) (h : HsmJob) (code : Nat) (rule : HsmRule) (session : Option EqxSession) : Prop :=
  Passes b h code rule session ∧ b.run.keysLocked = false ∧ lcsField.contains b.run.lcs = true

/-- The rule of the domain's quorum. -/
def Claims.quorumRule (h : HsmJob) : HsmRule := ruleQuorum h.req h.block 0x1000 0x0506 0x0509

/-- The domain command's block with the session consumed. -/
def Claims.spent (x : EqxSession) (b : Block) : Block := dropSession x.sid b

/-- A package or offer opens under the sender's pair, and carries public keys that are valid. -/
def Claims.opened (pk bs : Bytes) : Option (Cbor × Bytes × Bytes) :=
  (openMap pk bs).bind (fun m => (offerPublic m).map (fun k => (m, k.1, k.2)))

/-- DOMAIN_SPONSOR takes only an unlocked joiner's offer, of kind 0, from PROVISION or PRODUCTION. -/
def Claims.joinOffer (m : Cbor) : Bool := m.num 1 == some 0 && m.num 7 == some 0 && (m.num 6 == some 2 || m.num 6 == some 3)

/-- The items of DOMAIN_SPONSOR: 8 bytes, the offer, the joiner's pair. -/
def Claims.sponsorItems (p offer pk : Bytes) : Prop :=
  ∃ e1 e2, varItem p 8 = some (offer, e1) ∧ pairItem p e1 = some (pk, e2) ∧ itemsEnd p e2 = true

/-- The items of DOMAIN_SEND: OUT_CAP, the offer, the receiver's pair. -/
def Claims.sendItems (p offer pk : Bytes) : Prop :=
  ∃ w e0 e1 e2, fixedItem p 0 4 = some (w, e0) ∧ varItem p e0 = some (offer, e1) ∧ pairItem p e1 = some (pk, e2) ∧ itemsEnd p e2 = true

/-- A package that opens under the sender's pair, and the outstanding offer it answers. -/
def Claims.answered (b : Block) (pk pkg : Bytes) : Option (Cbor × DomainOffer) :=
  (openMap pk pkg).bind (fun m => (namedOffer b m).map (fun o => (m, o)))

/-- The epoch of the offer that DOMAIN_RECEIVE answers. -/
def Claims.offeredEpoch (o : DomainOffer) : Option Nat :=
  ((coseParse o.bytes).bind (fun x => cborParse x.2.1)).bind (fun x => x.num 10)

/-- CONFIRM of a sync package stands under the root of the offered epoch, and its sender is not revoked. -/
def Claims.confirmed (b : Block) (m : Cbor) (o : DomainOffer) : Bool :=
  (match (Claims.offeredEpoch o).bind (memberRoot b) with
  | some root => m.str 11 == some (kmac256 root (mapDigest m 11) 32 (ascii "JDC"))
  | none => false) &&
  (match m.num 8 with
  | some i => !b.bbram.bitmap.contains i
  | none => false)

/-- With its turn and KEYS_LOCKED 0 in PROVISION or PRODUCTION: DOMAIN_CREATE (R390) of a device outside any domain with no registered owner draws a root
and commits membership in epoch 1 at the index given; a failing readback gives 0x050D and commits nothing. DOMAIN_OFFER (R389) draws a number and seed,
signs the offer, holds its keys for 600 s and returns it. OFFER_EXPIRY erases the offer and nothing else. DOMAIN_SPONSOR answers an offer that opens,
from an unlocked device in PROVISION or PRODUCTION, with a package, else 0x050C. DOMAIN_JOIN adopts the roots and bitmap of a package that opens for this charter's DOMAIN_ID; once it has ended, the offer
that it names is erased, however it ended. -/
def Obligations.DomainsFormed : Prop :=
  (∀ (s : State) (h : HsmJob) (x : EqxSession), let i := leAt (bkParam h.block) 0 2
    let b := Claims.spent x s.blk
    let r := draw1 32 b
    Claims.DomainTurn s.blk h 0x60 (Claims.quorumRule h) (some x) → fixedOnly (bkParam h.block) 2 = true → i < 16384 → mayJoin s.blk = true →
    exec (.domainCreate h.id) s = .next { s with blk := settleAll (hsmCommit h 0x050D 1 []
      (releaseCharter (some x) (adopt (memberRec r.2 (domainIdOf x.record) 1 i none) r.1 none r.2)) b) }) ∧
  (∀ (s : State) (h : HsmJob), let p := bkParam h.block
    let kind := leAt p 0 1
    let m := domMember (domRec s.blk)
    let i := draw1 4 s.blk
    let r := draw1 120 i.2
    let o : DomainOffer := { oid := leNat i.1, kind := kind, seed := r.1, bytes := [], opened := s.blk.time.secs }
    let body := offerBody s.blk kind o.oid (pkPublic 0x19 (offerKeys o).1) (pkPublic 0x05 (offerKeys o).2)
    let c := aliasCose (cborPut (cborMap (body ++ [(12, orNull m (.bytes (rootMac (s.blk.key.root.getD []) "JDO" body)))]))) r.2
    Claims.DomainTurn s.blk h 0x61 (rulePlain h.req h.block) none → fixedOnly p 8 = true → allZero p 1 3 = true →
    (kind = 0 ∧ mayJoin s.blk = true) ∨ (kind = 1 ∧ m = true ∧ s.blk.key.root.isSome = true) → hybridDead s.blk = none →
    exec (.domainOffer h.id) s = .next { s with blk := (settleAll (if leAt p 4 4 < c.1.length then hsmFail h 0x050F c.1.length c.2
      else hsmOk h o.oid c.1 (c.2.onKpr (fun k => { k with offer := some { o with bytes := c.1 } })))) }) ∧
  (∀ s : State, exec .offerExpiry s = .next { s with blk := s.blk.onKpr (fun k => { k with offer := none }) }) ∧
  (∀ (s : State) (h : HsmJob) (x : EqxSession) (offer pk : Bytes), let p := bkParam h.block
    let i := leAt p 0 2
    let b := Claims.spent x s.blk
    Claims.DomainTurn s.blk h 0x62 (Claims.quorumRule h) (some x) → Claims.sponsorItems p offer pk → hybridDead b = none → i < 16384 → leAt p 2 2 = 0 →
    domMember (domRec b) = true → domStale (domRec b) = false → b.key.root ≠ none → b.bbram.bitmap.contains i = false → i ≠ domIndex (domRec b) →
    exec (.domainSponsor h.id) s = .next { s with blk := (settleAll (match Claims.opened pk offer with
      | some (m, ek, qj) => if Claims.joinOffer m then givePackage h (leAt p 4 4) (buildPackage 0 i offer ek qj none b) else hsmFail h 0x050C 0 b
      | none => hsmFail h 0x050C 0 b)) }) ∧
  (∀ (s : State) (h : HsmJob) (x : EqxSession) (pkg pk : Bytes), let id := domainIdOf x.record
    let b := Claims.spent x s.blk
    Claims.DomainTurn s.blk h 0x63 (Claims.quorumRule h) (some x) → packageItems (bkParam h.block) = some (pkg, pk) → hybridDead s.blk = none →
    mayJoin s.blk = true →
    exec (.domainJoin h.id) s = .next { s with blk := offerRun 0x63 h.id s.blk (settleAll (match Claims.answered s.blk pk pkg with
      | none => hsmFail h 0x050C 0 b
      | some (m, o) => match openPackage b o 0 m with
        | none => hsmFail h 0x050C 0 b
        | some c => if c.take 16 ≠ id then hsmFail h 0x050C 0 b else
            let t := mergeBitmap c (releaseCharter (some x) (adoptContent c id (leAt c 0x14 2) b))
            hsmCommit h 0x050D t.key.epoch [] t b)) }) ∧
  (∀ (before after : Block) (h : HsmJob) (code : Nat), hsmReady before code h.id = some h → hsmOrphan before h = false →
    after.kpr.hsm.any (fun x => x.id == h.id) = false →
    offerRun code h.id before after =
      if (offerNamed before h).isSome then after.onKpr (fun k => { k with offer := none }) else after)

/-- DOMAIN_SEND (R391) answers a member's sync offer that opens and stands with a package of its roots and CONFIRM, else 0x050C. DOMAIN_RECEIVE of
a package that opens and is confirmed by an unrevoked sender adopts the next epoch or, in the same epoch, its bitmap; another epoch gives 0x050B; the offer
that it names is erased as DOMAIN_JOIN's is. DOMAIN_ROTATE (R392) commits a fresh root in the next epoch, the old one as the previous; DOMAIN_RETIRE drops the previous root; DOMAIN_REVOKE sets
one bitmap bit; DOMAIN_LEAVE erases the roots and the bitmap. A readback that fails gives 0x050D and commits nothing. -/
def Obligations.DomainsKept : Prop :=
  (∀ (s : State) (h : HsmJob) (offer pk : Bytes), let p := bkParam h.block
    let b := s.blk
    Claims.DomainTurn b h 0x64 (rulePlain h.req h.block) none → Claims.sendItems p offer pk → hybridDead b = none →
    domMember (domRec b) = true → b.key.root ≠ none →
    exec (.domainSend h.id) s = .next { s with blk := (settleAll (match Claims.opened pk offer with
      | some (m, ek, qj) => if syncOfferBad b m then hsmFail h 0x050C 0 b
          else givePackage h (leAt p 0 4) (buildPackage 1 0xFFFF offer ek qj ((m.num 10).bind (memberRoot b)) b)
      | none => hsmFail h 0x050C 0 b)) }) ∧
  (∀ (s : State) (h : HsmJob) (pkg pk : Bytes), let b := s.blk
    let d := domRec b
    Claims.DomainTurn s.blk h 0x65 (rulePlain h.req h.block) none → packageItems (bkParam h.block) = some (pkg, pk) → hybridDead s.blk = none →
    domMember d = true → b.key.root.isSome = true →
    exec (.domainReceive h.id) s = .next { s with blk := offerRun 0x65 h.id s.blk (settleAll (match Claims.answered b pk pkg with
      | none => hsmFail h 0x050C 0 b
      | some (m, o) => match openPackage b o 1 m with
        | none => hsmFail h 0x050C 0 b
        | some c =>
          if Claims.confirmed b m o = false then hsmFail h 0x050C 0 b
          else if leAt c 0x10 2 = domEpoch d + 1 then
            (let t := mergeBitmap c (adoptContent c (domId d) (domIndex d) b)
             hsmCommit h 0x050D t.key.epoch [] t b)
          else if leAt c 0x10 2 = domEpoch d then
            (let t := mergeBitmap c (if leAt c 0x12 2 = 0 ∧ domPrevValid d then retirePrev b else b)
             hsmCommit h 0x050D t.key.epoch [] t b)
          else hsmFail h 0x050B 0 b)) }) ∧
  (∀ (s : State) (h : HsmJob) (x : EqxSession) (old : Bytes), let b := Claims.spent x s.blk
    let d := domRec b
    let r := draw1 32 b
    Claims.DomainTurn s.blk h 0x66 (Claims.quorumRule h) (some x) → bkParam h.block = [] → b.key.root = some old → domMember d = true → domEpoch d < 65535 →
    exec (.domainRotate h.id) s = .next { s with blk := settleAll (hsmCommit h 0x050D (domEpoch d + 1) []
      (adopt (memberRec r.2 (domId d) (domEpoch d + 1) (domIndex d) (some (domEpoch d))) r.1 (some old) r.2) b) }) ∧
  (∀ (s : State) (h : HsmJob) (x : EqxSession), let b := Claims.spent x s.blk
    let i := leAt (bkParam h.block) 0 2
    (Claims.DomainTurn s.blk h 0x67 (Claims.quorumRule h) (some x) → fixedOnly (bkParam h.block) 2 = true → domPrevValid (domRec b) = true →
      i = domPrev (domRec b) → exec (.domainRetire h.id) s = .next { s with blk := settleAll (hsmCommit h 0x050D 0 [] (retirePrev b) b) }) ∧
    (Claims.DomainTurn s.blk h 0x68 (Claims.quorumRule h) (some x) → fixedOnly (bkParam h.block) 2 = true → i < 16384 → domMember (domRec b) = true →
      i ≠ domIndex (domRec b) →
      exec (.domainRevoke h.id) s = .next { s with blk := settleAll (hsmCommit h 0x050D 0 [] (setRevoked i b) b) }) ∧
    (Claims.DomainTurn s.blk h 0x69 (ruleLeave h) (some x) → bkParam h.block = [] → (domMember (domRec b) = true ∨ b.key.domState = 2) →
      exec (.domainLeave h.id) s = .next { s with blk := settleAll (hsmCommit h 0x050D 0 [] (leaveDomain b) b) }))

/-! ### The life cycle (chapter 04) -/

/-- The token of LCS_ADVANCE and of TOKEN_ROOT_REVOKE: what stands behind 8 bytes of the parameters. -/
def Claims.tokenOf (h : HsmJob) : Bytes := (bkParam h.block).drop 8

/-- A command whose token is checked: the nonce is gone; a good token lets the command go on, a bad one gives its reason, a FAILED unit ENGINE_ALARM. -/
def Claims.tokenAnswer (h : HsmJob) (kind src dst : Nat) (f : Block → Block) (b : Block) : Block :=
  match tokenCheck b (Claims.tokenOf h) 0x4A4C5431 kind src dst with
  | .good => f (dropNonce b)
  | .bad .nonce => hsmFail h 0x0004 0 (dropNonce b)
  | .bad .root => hsmFail h 0x0002 0 (dropNonce b)
  | .bad _ => hsmFail h 0x0003 0 (dropNonce b)
  | .dead u => hsmFinish h stEngineAlarm (unitDetail u) 0 [] (dropNonce b)

/-- LCS_ADVANCE (R83 to R85), past its session checks and with parameters that R84 lets stand: the token the row names is checked (R91) and
its nonce discarded; KEYS_LOCKED gives 0x0007 (its place is the model's choice, log entry 8), an unmet precondition 0x0006; otherwise the transition
drains. LCS_DRAIN_COMPLETE, once drained, programs the bits that `took` let in: with the first group programmed the command answers SUCCESS with RESULT the
target and a reset follows; otherwise 0x0008; a move to PROVISION with the random source FAILED ends in ENGINE_ALARM 0x0601 (R372). TRANSITION_RESET
resets the device, cause 5, when a transition is due and STATE is not WINTER, and otherwise changes nothing. -/
def Obligations.LifeCycleAdvances : Prop :=
  (∀ (s : State) (h : HsmJob) (row : LcsRow) (session : Option EqxSession), let b := consumed session s.blk
    let target := leAt (bkParam h.block) 0 1
    let drain (t : Block) : Block := if t.run.keysLocked then hsmFail h 0x0007 0 t else if advanceReady t target = false then hsmFail h 0x0006 0 t
      else onHsm h.id (fun y => { y with stage := .lcsDrain, note := [BitVec.ofNat 8 target] }) t
    Passes s.blk h 0x11 (ruleAdvance h s.blk) session → advanceBad b h = none → lcsRow b target = some row →
    (row.token = none → exec (.lcsAdvance h.id) s = .next { s with blk := settleAll (drain b) }) ∧
    (∀ kind, row.token = some kind →
      exec (.lcsAdvance h.id) s = .next { s with blk := settleAll (Claims.tokenAnswer h kind b.run.lcs target drain b) })) ∧
  (∀ (s : State) (h : HsmJob) (row : LcsRow) (took : Nat), let target := leAt h.note 0 1
    let b := if target = 2 then programSecret s.blk else s.blk
    let t := programLcs ((row.groups.foldl (fun m g => m ||| groupBits g) 0) &&& took) b
    s.blk.kpr.hsm.find? (fun y => y.stage == .lcsDrain) = some h → lcsRow s.blk target = some row → drained s.blk h = true →
    keeperRuns s.blk = true → (target = 2 → s.blk.rng.state = .ready) →
    exec (.lcsDrainComplete took) s = .next { s with blk := (if groupTaken (lcsField64 t) (row.groups.head?.getD 0)
      then settleAll ((hsmOk h target [] t).onOtp (fun o => { o with resetDue := true })) else settleAll (hsmFail h 0x0008 0 t)) }) ∧
  (∀ (s : State) (h : HsmJob) (row : LcsRow) (took : Nat), s.blk.kpr.hsm.find? (fun y => y.stage == .lcsDrain) = some h → leAt h.note 0 1 = 2 →
    lcsRow s.blk 2 = some row → drained s.blk h = true → keeperRuns s.blk = true → s.blk.rng.state = .failed →
    exec (.lcsDrainComplete took) s = .next { s with blk := settleAll (hsmFinish h stEngineAlarm 0x0601 0 [] s.blk) }) ∧
  (∀ s : State, (s.blk.otp.resetDue = true → s.blk.run.state ≠ .winter → exec .transitionReset s = .next { s with blk := chipReset 5 s.blk }) ∧
    (s.blk.otp.resetDue = false ∨ s.blk.run.state = .winter → exec .transitionReset s = .next s))

/-- LCS_GET_NONCE (R89) returns 32 random bytes, outstanding for 600 s; NONCE_EXPIRY discards the nonce. TOKEN_ROOT_REVOKE (R92), its token signed under
the other entry of the pair, programs the entry's revocation bit; OTP_PROGRAM (R93) programs every word it names, all allowed together, else 0x0006;
ROOT_REVOKE (R112) of a programmed, unrevoked entry in SERVICE that strands no image programs its revocation bit. Without VDD_ANA (R82) no fuse is
programmed. The layouts of the first two, the order of their checks and the reasons that R92, R93 and R82 do not give are the model's choice (log entry 8). -/
def Obligations.FusesProgrammedByCommands : Prop :=
  (∀ (s : State) (h : HsmJob), let r := draw1 32 s.blk
    Passes s.blk h 0x10 { ruleAny h.block with sender := isPf0 h.req || !isFn h.req } none → bkParam h.block = [] →
    exec (.lcsGetNonce h.id) s = .next { s with
      blk := settleAll (hsmOk h 0 r.1 (r.2.onOtp (fun o => { o with nonce := some (r.1, s.blk.time.secs + 600) }))) }) ∧
  (∀ s : State, exec .nonceExpiry s = .next { s with blk := s.blk.onOtp (fun o => { o with nonce := none }) }) ∧
  (∀ (s : State) (h : HsmJob) (session : Option EqxSession), let b := consumed session s.blk
    let p := bkParam h.block
    let e := leAt p 0 1
    let other := if e < 2 then 1 - e else 5 - e
    let r := otpWord s.blk
    let alone := !(tokenProgrammed r e && !tokenRevoked r e && tokenProgrammed r other && !tokenRevoked r other)
    Passes s.blk h 0x12 (ruleTokenRevoke h s.blk) session → p.length = 8 + tokenLen → allZero p 1 7 = true → e ≤ 3 →
    exec (.tokenRootRevoke h.id) s = .next { s with blk := settleAll (Claims.tokenAnswer h tokenRetire b.run.lcs b.run.lcs (fun c =>
      if alone then hsmFail h 0x0006 0 c
      else if leAt (Claims.tokenOf h) (if e < 2 then 0x48 else 0x49) 1 ≠ other then hsmFail h 0x0002 0 c
      else if s.blk.sup.ana.good then hsmOk h 0 [] (otpProgram (tokenAt e + 12) 1 c) else hsmFail h 0x0006 0 c) b) }) ∧
  (∀ (s : State) (h : HsmJob) (x : EqxSession) (vs : Bytes) (e : Nat), let b := Claims.spent x s.blk
    let p := bkParam h.block
    let w := leAt p 0 2
    let n := leAt p 2 2
    let v (i : Nat) : Nat := leAt vs (4 * (i - w)) 4
    let new (i : Nat) : Nat := otpWord b i ||| (if w ≤ i ∧ i < w + n then v i else 0)
    Passes s.blk h 0x13 (ruleQuorum h.req h.block 0 0x0005 0x0005) (some x) → fixedItem p 8 (4 * n) = some (vs, e) → itemsEnd p e = true →
    1 ≤ n → allZero p 4 4 = true → w + n ≤ 512 →
    exec (.otpProgram h.id) s = .next { s with blk := (settleAll
      (if (List.range n).all (fun i => otpAllowed b new (w + i) (v (w + i))) = false then hsmFail h 0x0006 0 b
       else if s.blk.sup.ana.good then hsmOk h 0 [] ((List.range n).foldl (fun b i => otpProgram (w + i) (v (w + i)) b) b)
       else hsmFail h 0x0006 0 b)) }) ∧
  (∀ (s : State) (h : HsmJob) (x : EqxSession), let b := Claims.spent x s.blk
    let p := bkParam h.block
    let e := leAt p 0 1
    let r := otpWord b
    Passes s.blk h 0x20 (ruleQuorum h.req h.block 0 0x0103 0x0103) (some x) → p.length = 8 → allZero p 1 7 = true → b.run.state = .service → e ≤ 23 →
    rootProgrammed r e = true → rootRevoked r e = false →
    exec (.rootRevoke h.id) s = .next { s with blk := (settleAll
      (if stranded r e ≠ 0 then hsmFail h 0x0102 (stranded r e) b
       else if s.blk.sup.ana.good then hsmOk h 0 [] (otpProgram (rootAt e + 12) 0x100 b) else hsmFail h 0x0101 0 b)) })

/-! ### Boot records and evidence (chapter 07), Harvests (chapter 19) -/

/-- A monitor frame carries a request of a code that is served now (R491, R492). -/
def Claims.Served (b : Block) (body : Bytes) (code tag : Nat) (p : Bytes) : Prop :=
  takesFrame b = true ∧ parseFrame body = some (code, tag, p) ∧ refusal (intoFramed b) code = 0

/-- An MCTP request to the port's address is served now. -/
def Claims.ServedMctp (b : Block) (target : Nat) : Prop := mctpTo b target = true ∧ b.boot.katFail = false

/-- The reply to an MCTP request, after what the request did. -/
def Claims.byMctp (code : Nat) (r : Bytes × Block) : Block := mctpSend mctpType (lePut 1 (code ||| 0x80) ++ r.1) r.2

/-- The reply to a monitor request, counted as executed, after what the request did. -/
def Claims.byFrame (code tag : Nat) (r : Bytes × Block) : Block := countFrame (uartReply code tag 0 r.1 r.2)

/-- The bytes of an evidence command's own reply. -/
def Claims.evidenceBytes (reason result : Nat) (out : Bytes) : Bytes := lePut 2 reason ++ lePut 8 result ++ out

/-- The reply that an outcome of the evidence gives. -/
def Claims.evidenceOf (e : Evidence) : Bytes :=
  match e with
  | .ok _ result out => Claims.evidenceBytes 0 result out
  | .bad r res => Claims.evidenceBytes r res []

/-- An outcome of the evidence, ended at the host: OUT_CAP holds the output, or 0x0204 gives its length. -/
def Claims.ended (h : HsmJob) (cap : Nat) (e : Evidence) (b : Block) : Block :=
  match e with
  | .bad r res => hsmFail h r res b
  | .ok detail result out => if cap < out.length then hsmFail h 0x0204 out.length b else hsmFinish h stSuccess detail result out b

/-- The claims map that ATTEST signs for a requester and a world. -/
def Claims.attested (b : Block) (top : RetFrame) (who world : Nat) : Cbor :=
  cborMap [(1, .bytes (sha384 (frRecord top.frame))), (2, .uint who), (3, .uint world), (4, .uint (stateCode b.run.state)),
    (5, .bool b.run.keysLocked), (6, .uint b.time.secs)]

/-- The requester as claim 2 names it. -/
def Claims.whoOf (r : Requester) : Nat :=
  match r with
  | .fn k => k
  | .monitor => 0xFFFE

/-- The signed statement of a nonce. -/
def Claims.statement (b : Block) (nonce : Bytes) (top : RetFrame) (who world : Nat) : Bytes × Block :=
  aliasCose (claims b [.uint 10, .bytes nonce] 70001 (Claims.attested b top who world)) b

/-- GET_RECORD (R175) with SELECT 0, 1 or 2, once its port serves a read, gives the record found, its boot count in RESULT and FROM_RING and PERSISTED in DETAIL; a search without a result
gives its reason. GET_CERT gives the certificate or chain it names. ATTEST (R176), with a record made, signs the nonce, the newest record's hash, the requester, its
world, the state, KEYS_LOCKED and the seconds count. Output longer than OUT_CAP is not written: 0x0204, RESULT the length. -/
def Claims.EvidenceForTheHost : Prop :=
  (∀ (s : State) (h : HsmJob) (flash : FlashView), let p := bkParam h.block
    Passes s.blk h 1 (ruleAny h.block) none → p.length = 16 → leAt p 0 1 ≤ 2 → leAt p 1 1 = 0 → ringReadable s.blk = true →
    exec (.getRecord h.id flash) s = .next { s with blk := (settleAll (Claims.ended h (leAt p 4 4)
      (match findRecord flash s.blk (leAt p 0 1) (leAt p 2 2) (leAt p 8 8) with
      | .none r => .bad r 0
      | .frame x ring persisted => .ok (flag ring 0 + flag persisted 1) (frBoot x) (frRecord x))
      (ringTouch (leAt p 0 1) (leAt p 2 2) (leAt p 8 8) s.blk))) }) ∧
  (∀ (s : State) (h : HsmJob) (out : Bytes), let p := bkParam h.block
    let ec := leAt p 0 1 == 1
    let which := leAt p 1 1
    Passes s.blk h 2 (ruleAny h.block) none → p.length = 8 → leAt p 0 1 = 1 ∨ leAt p 0 1 = 2 → leAt p 2 2 = 0 → s.blk.key.aliasCdi.isSome = true →
    (which = 3 ∧ out = certChain s.blk ec ∨
      which < 3 ∧ certOf s.blk ec (if which = 0 then .mfg else if which = 1 then .deviceId else .aliasId) = some out) →
    exec (.getCert h.id) s = .next { s with blk := settleAll (Claims.ended h (leAt p 4 4) (.ok 0 out.length out) s.blk) }) ∧
  (∀ (s : State) (h : HsmJob) (top : RetFrame), let p := bkParam h.block
    let n := leAt p 0 1
    let r := Claims.statement s.blk (p.drop 8) top (Claims.whoOf h.req) (b2n h.world)
    Passes s.blk h 3 (ruleAny h.block) none → 8 ≤ n → n ≤ 64 → p.length = 8 + n → allZero p 1 3 = true → hybridDead s.blk = none →
    newestRecord s.blk = some top →
    exec (.attest h.id) s = .next { s with blk := settleAll (if leAt p 4 4 < r.1.length then hsmFail h 0x0204 r.1.length s.blk
      else hsmFinish h stSuccess 0 (frBoot top.frame) r.1 r.2) })

/-- What RECORD_GET answers, and the block after it. -/
def Claims.recordAnswer (f : FlashView) (p : Bytes) (b : Block) : Bytes × Block :=
  if b.run.state = .frozen then (Claims.evidenceBytes stFrozen 0 [], b)
  else (Claims.evidenceOf (recordEvidence f (leAt p 0 1) (leAt p 1 1) (leAt p 2 2) (leAt p 4 8) b), ringTouch (leAt p 0 1) (leAt p 2 2) (leAt p 4 8) b)

/-- What CERT_GET answers. -/
def Claims.certAnswer (p : Bytes) (b : Block) : Bytes × Block :=
  if b.run.state = .frozen then (Claims.evidenceBytes stFrozen 0 [], b)
  else (Claims.evidenceOf (certEvidence (leAt p 0 1) (leAt p 1 1) (leAt p 2 2) b), b)

/-- What HARVEST_GET answers, and the block after it: a new Harvest comes after the check of the pools. -/
def Claims.harvestAnswer (p : Bytes) (b : Block) : Bytes × Block :=
  if b.run.state = .frozen then (Claims.evidenceBytes stFrozen 0 [], b)
  else if leAt p 0 1 = 0 then (Claims.evidenceBytes 0 harvestBytes (harvestNow (checkPools b)).bytes, checkPools b)
  else match b.evr.solstice with
    | some h => (Claims.evidenceBytes 0 harvestBytes h.bytes, b)
    | none => (Claims.evidenceBytes 1 0 [], b)

/-- RECORD_GET, CERT_GET and MCTP_ATTEST (R178) outside FROZEN, and HARVEST_GET (R445), by frame or MCTP, with parameters of the right form, answer with a
reason, RESULT and the output; in FROZEN with the status FROZEN and no output. HARVEST_GET takes SELECT 0 for a new Harvest, before which the pools are
checked, and 1 for the copy made at Solstice. The layouts are the model's choice (log entry 22). -/
def Claims.EvidenceOverTheSideband : Prop :=
  (∀ (s : State) (f : FlashView) (body : Bytes) (tag : Nat) (p : Bytes), Claims.Served s.blk body 0x10 tag p → p.length = 12 → ringReadable s.blk = true →
    exec (.recordGet (.frame body) f) s = .next { s with blk := Claims.byFrame 0x10 tag (Claims.recordAnswer f p (intoFramed s.blk)) }) ∧
  (∀ (s : State) (f : FlashView) (target : Nat) (p : Bytes), Claims.ServedMctp s.blk target → p.length = 12 → ringReadable s.blk = true →
    exec (.recordGet (.mctp target p) f) s = .next { s with blk := Claims.byMctp 0x10 (Claims.recordAnswer f p s.blk) }) ∧
  (∀ (s : State) (body : Bytes) (tag : Nat) (p : Bytes), Claims.Served s.blk body 0x11 tag p → p.length = 4 →
    exec (.certGet (.frame body)) s = .next { s with blk := Claims.byFrame 0x11 tag (Claims.certAnswer p (intoFramed s.blk)) }) ∧
  (∀ (s : State) (target : Nat) (p : Bytes), Claims.ServedMctp s.blk target → p.length = 4 →
    exec (.certGet (.mctp target p)) s = .next { s with blk := Claims.byMctp 0x11 (Claims.certAnswer p s.blk) }) ∧
  (∀ (s : State) (body : Bytes) (tag : Nat) (p : Bytes), Claims.Served s.blk body 0x13 tag p → p.length = 1 → leAt p 0 1 ≤ 1 →
    exec (.harvestGet (.frame body)) s = .next { s with blk := Claims.byFrame 0x13 tag (Claims.harvestAnswer p (intoFramed s.blk)) }) ∧
  (∀ (s : State) (target : Nat) (p : Bytes), Claims.ServedMctp s.blk target → p.length = 1 → leAt p 0 1 ≤ 1 →
    exec (.harvestGet (.mctp target p)) s = .next { s with blk := Claims.byMctp 0x13 (Claims.harvestAnswer p s.blk) }) ∧
  (∀ (s : State) (p : Bytes) (top : RetFrame), let n := leAt p 0 1
    s.blk.run.state ≠ .frozen → 8 ≤ n → n ≤ 64 → p.length = 4 + n → allZero p 1 3 = true → newestRecord s.blk = some top →
    (∀ (body : Bytes) (tag : Nat), Claims.Served s.blk body 0x12 tag p →
      let r := Claims.statement (intoFramed s.blk) (p.drop 4) top 0xFFFE 0
      exec (.mctpAttest (.frame body)) s = .next { s with
        blk := Claims.byFrame 0x12 tag (Claims.evidenceBytes 0 (frBoot top.frame) r.1, r.2) }) ∧
    (∀ target : Nat, Claims.ServedMctp s.blk target → let r := Claims.statement s.blk (p.drop 4) top 0xFFFF 0
      exec (.mctpAttest (.mctp target p)) s = .next { s with blk := Claims.byMctp 0x12 (Claims.evidenceBytes 0 (frBoot top.frame) r.1, r.2) }))

/-- Records, certificates, attestations and Harvests are given to the host and over the sideband. -/
def Obligations.EvidenceGiven : Prop := Claims.EvidenceForTheHost ∧ Claims.EvidenceOverTheSideband

/-- GET_HARVEST (R444) checks the pools, then writes the cells and the header of a Harvest of 196,672 bytes. HARVEST_CLEAR (R448) with zero parameters gives
EVENT_SEQ before the clear in RESULT and clears every cell but cell 2. TOKEN_REFILL (R441) gives a used cell below its burst one token, and changes nothing else.
COUNTS_COMMIT_TIMER (R447) commits changed counts while the keeper runs. The read of the Alert Response Address, with STRAP_SBSEL 0 and SB_ALERT_N held,
releases the pin and gives the address 0x30 + STRAP_ADDR (R51); otherwise it changes nothing. -/
def Obligations.RecorderCommands : Prop :=
  (∀ (s : State) (j : Job), AdminReady s.blk j 0x87 → let b := checkPools (begun s.blk j)
    exec (.getHarvest j.id) s = .next { s with blk := settleAll (concludeCore j.id (success 0 harvestBytes)
      (adminWrite j [(64, harvestCells (harvestNow b)), (0, harvestHead (harvestNow b))] harvestBytes b)) }) ∧
  (∀ (s : State) (h : HsmJob) (x : EqxSession), let b := dropSession x.sid s.blk
    Passes s.blk h 0x70 (ruleQuorum h.req h.block 0 0x0506 0x0509) (some x) → (bkParam h.block).all (· == 0) = true →
    exec (.harvestClear h.id) s = .next { s with blk := settleAll (hsmOk h s.blk.evr.seq [] (clearCells b)) }) ∧
  (∀ (s : State) (i : Nat), let c := evCell s.blk i
    1 ≤ i → i < 1024 → c.used = true → c.tokens < burstOf s.blk (evSeverity c.code) →
    ∃ t, exec (.tokenRefill i) s = .next t ∧ evCell t.blk i = { c with tokens := c.tokens + 1 } ∧
      (∀ k ≠ i, evCell t.blk k = evCell s.blk k) ∧ t.blk = { s.blk with evr := { s.blk.evr with cells := t.blk.evr.cells } }) ∧
  (∀ s : State, keeperRuns s.blk = true → s.blk.evr.tally ≠ [] → exec .countsCommitTimer s = .next { s with blk := commitCounts s.blk }) ∧
  (∀ s : State, (bit s.blk.pins.straps 2 = false → s.blk.pins.sbDisabled = false → s.blk.pins.sbAlert = true →
      exec .smbusAlertResponse s = .next { s with
        blk := send (.smbus (BitVec.ofNat 8 (2 * (0x30 + bits s.blk.pins.straps 7 5)))) (s.blk.onPins (fun p => { p with sbAlert := false })) }) ∧
    (bit s.blk.pins.straps 2 = true ∨ s.blk.pins.sbDisabled = true ∨ s.blk.pins.sbAlert = false → exec .smbusAlertResponse s = .next s))

/-! ### Activation, the keeper's update, debug unlock (chapters 05, 20, 22) -/

/-- A new activation of the command `h`: the directory and the slots known at its start. -/
def Claims.activation (h : HsmJob) (dir : Bytes) (toRead : List Nat) (closed : List (Nat × Nat)) : Activation :=
  { job := h.id, port := leAt (bkParam h.block) 0 1, cls := leAt (bkParam h.block) 1 1, step := .room, dir := dir, toRead := toRead, closed := closed,
    manifests := [], seqs := [], slot := 0, image := [], mark := [] }

/-- The activation is under way; it begins when staging has room. -/
def Claims.activating (h : HsmJob) (a : Activation) (b : Block) : Block :=
  actBegins h.id (onHsm h.id (fun x => { x with stage := .activating }) (b.onFlt (fun f => { f with acts := f.acts ++ [a] })))

/-- The slots of a class that an activation on the booted port reads: the one not accepted at this boot, else both. -/
def Claims.inactive (b : Block) (cls : Nat) : List Nat :=
  match tget b.boot.classes cls with
  | some c => if c.accepted then [1 - c.slot] else [0, 1]
  | none => [0, 1]

/-- The activation `a` of `h` has ended: its slot is open again, then `f`. -/
def Claims.actOver (h : HsmJob) (f : Block → Block) (b : Block) : Block :=
  settleAll (f (b.onFlt (fun x => { x with acts := x.acts.filter (fun y => y.job != h.id) })))

/-- The keeper may take an update now (R467, R470): state and other commands let it, the port serves a read, and staging has room. -/
def Claims.mayUpdate (b : Block) (h : HsmJob) : Prop :=
  b.run.state = .service ∧ b.otp.resetDue = false ∧ updateRoom b h.id = true ∧
    b.kpr.hsm.any (fun y => y.id != h.id && (y.stage == .lcsDrain || y.stage == .keeperSwitch || y.stage == .activating)) = false

/-- The directory entry of the keeper, on the port it was booted from, and the slot that a chip reset would try first, which is not the one that runs. -/
def Claims.newSlot (b : Block) (f : FlashView) (port : Nat) (e : DirEntry) (i : Nat) : Prop :=
  entryFor b.boot.directory 0 = some e ∧ b.boot.source = port + 1 ∧ nextKeeper b (f.port port) e = some i ∧ i ≠ (runningKeeper b).1

/-- BOOT_ACTIVATE (R119) in SERVICE opens an activation of its port and class, whose reads and program are operations of the port; a flash error of a read
ends it with 0x0104 and RESULT 0xE, one of the marker's program or readback with 0x0106; the readback ends it with SUCCESS and RESULT the new sequence
number, or with 0x0106. UPDATE_KEEPER (R466, R467) judges the slot that a chip reset would try first: an outcome other than ACCEPTED gives 0x0705 with it,
a lower version or other manufacturer key 0x0706; otherwise the keeper stops for the switch. DEBUG_UNLOCK (R496, R497) of the monitor, from PROVISION to
RETURN, discards its nonce, checks its token, and locks the keys, sets the debug flag and opens debug; a refusal is counted. BOOT_ACTIVATE's parameter
layout is the model's choice (log entry 17). -/
def Claims.ActivationUpdateAndDebug : Prop :=
  (∀ (s : State) (h : HsmJob) (f : FlashView), let p := bkParam h.block
    let port := leAt p 0 1
    let cls := leAt p 1 1
    Passes s.blk h 0x21 (rulePlain h.req h.block) none → p.length = 8 → port ≤ 1 → cls ≤ 7 → allZero p 2 6 = true → s.blk.run.state = .service →
    s.blk.flt.acts.any (fun a => liveAct s.blk a && a.port == port && a.cls == cls) = false →
    (s.blk.boot.port ≠ some port → exec (.bootActivate h.id f) s = .next { s with blk := settleAll (Claims.activating h (Claims.activation h [] [] []) s.blk) }) ∧
    (∀ e, s.blk.boot.port = some port → entryFor s.blk.boot.directory cls = some e → let slots := Claims.inactive s.blk cls
      exec (.bootActivate h.id f) s = .next { s with blk := settleAll (Claims.activating h
        (Claims.activation h s.blk.boot.directory slots (slots.map (fun i => (slotBase e i, e.size)))) s.blk) })) ∧
  (∀ (s : State) (p : Nat) (data : Bytes) (ok : Bool) (o : FlashOp) (h : HsmJob) (a : Activation), let b := flashOpComplete p data ok s.blk
    (portOf s.blk p).running = some o → o.waiters = [.keeper h.id] → actOf b h.id = some (h, a) →
    (ok = false → a.step = .dir ∨ (∃ i, a.step = .manifest i ∨ a.step = .marker i) ∨ a.step = .image →
      exec (.flashOpComplete p data ok) s = .next { s with blk := Claims.actOver h (hsmFail h 0x0104 0xE) b }) ∧
    (ok = false → a.step = .program ∨ a.step = .readback →
      exec (.flashOpComplete p data ok) s = .next { s with blk := Claims.actOver h (hsmFail h 0x0106 0) b }) ∧
    (ok = true → a.step = .readback → exec (.flashOpComplete p data ok) s = .next { s with blk :=
      (if slice data 0 o.len = a.mark then Claims.actOver h (fun b => hsmOk h (leAt a.mark 8 4) [] (clearRecovery a.cls b)) b
      else Claims.actOver h (hsmFail h 0x0106 0) b) })) ∧
  (∀ (s : State) (h : HsmJob) (x : EqxSession) (f : FlashView) (e : DirEntry) (i : Nat), let p := bkParam h.block
    let b := whileRead (leAt p 0 1) id (dropSession x.sid s.blk)
    let v := f.port (leAt p 0 1)
    let m := (slotCopy v e i).manifest
    let code := judgeSlot (otpWord b) b.run.lcs keeperFits v e i
    Passes s.blk h 0x22 (ruleQuorum h.req h.block 0 0x0702 0x0702) (some x) → updateParamsOk p = true → Claims.mayUpdate s.blk h →
    Claims.newSlot s.blk f (leAt p 0 1) e i → hybridDead b = none →
    exec (.updateKeeper h.id f) s = .next { s with blk := (settleAll
      (if code ≠ 1 then hsmFail h 0x0705 code b
       else if mVersion m < (runningKeeper b).2 ∨ keysMfg (keysUsed (otpWord b) b.run.lcs 0 m) ≠ b.boot.mfgKey then hsmFail h 0x0706 0 b
       else sendBack (fun y => y.id != h.id) ((onHsm h.id (fun y => { y with stage := .keeperSwitch, note := [BitVec.ofNat 8 i] }) b).onKpr
          (fun k => { k with stopped := true, update := some m })))) }) ∧
  (∀ (s : State) (h : HsmJob) (x : EqxSession), let b := dropSession x.sid s.blk
    let l := lockKeys (dropNonce b)
    Passes s.blk h 0x71 (ruleDebug h) (some x) → 2 ≤ s.blk.run.lcs → s.blk.run.lcs ≤ 4 → hybridDead s.blk = none →
    exec (.debugUnlock h.id) s = .next { s with blk := (countRefusal h.id s.blk (settleAll
      (match tokenCheck b (bkParam h.block) 0x4A445431 0x0010 b.run.lcs b.run.lcs with
      | .bad e => hsmFail h (debugReason e) 0 (dropNonce b)
      | .dead u => hsmFinish h stEngineAlarm (unitDetail u) 0 [] (dropNonce b)
      | .good => hsmCommit h 0x0807 0 []
          (event 0x3C0 0 ((setDebugFlag true l).onMon (fun m => { m with debugOpen := true, unlocks := sat32 (m.unlocks + 1) }))) l))) })

/-- What a keeper that starts to run at the switch changes first: the command ended, its memories zero, the Alias of the new image. -/
def Claims.switched (h : HsmJob) (m : Bytes) (mfg : Bool) (b : Block) : Block :=
  (keeperMemories (hsmOk h 0 [] (sendBack (fun x => x.id != h.id) b))).onKey
    (fun k => { k with aliasCdi := k.deviceIdCdi.map (fun d => aliasCdiOf d (mHead m) mfg) })

/-- UPDATE_KEEPER_SWITCH (R468), with an update waiting, the keeper running and both ports free for the record, the command ends with SUCCESS, the keeper's memories are cleared, the new image's Alias is
derived and its measurement and event 0x442 recorded; an armed watchdog begins a new period; a mid-boot record is made, and the SPDM connections resynchronise. -/
def Claims.KeeperSwitches : Prop :=
  ∀ (s : State) (h : HsmJob) (m : Bytes) (f : FlashView), let slot := leAt h.note 0 1
    let keys := keysUsed (otpWord s.blk) s.blk.run.lcs 0 m
    let mfg := keysMfg keys
    let e := entryFor s.blk.boot.directory 0
    let t := Claims.switched h m mfg s.blk
    let x := classAccepted m keys slot ((e.map (fun e => slotBase e slot)).getD 0) 0 false (e.any (·.required))
    let t := addMeasure (measureOf t 0 x (mHead m) keys) t
    let t := event 0x442 (mVersion m) (t.onRcd (fun r => { r with aliasOf := some (aliasFacts t m mfg false) }))
    let t := if t.wdg.d.armed then wdgBegin false t else t
    let t := t.onWdg (fun w => { w with runStart := some t.time.secs, d := { w.d with seen := 0 }, p := { w.p with seen := 0 } })
    s.blk.kpr.hsm.find? (fun y => y.stage == .keeperSwitch) = some h → s.blk.kpr.update = some m → keeperRuns s.blk = true →
    writableNow s.blk 0 = true → writableNow s.blk 1 = true →
    exec (.updateKeeperSwitch f) s = .next { s with blk := settleAll ((makeRecord f true t).2.onRcd
      (fun r => { r with mctp := { r.mctp with resynch := true }, doe := { r.doe with resynch := true } })) }

/-- Classes are activated, the keeper is updated, debug is unlocked. -/
def Obligations.UpdatesAndDebug : Prop := Claims.ActivationUpdateAndDebug ∧ Claims.KeeperSwitches
/-! ### The host link (chapter 08) -/

/-- The width of a module, none unless it is usable. -/
def Claims.widthOf (b : Block) (m : Nat) (w : LinkWidth) : LinkWidth := if moduleUsable b m then w else .none

/-- The tag of a request free, and what waits for a tag sent. -/
def Claims.tagFree (tag : Nat) (b : Block) : Block := pumpReads (b.onWork (fun w => { w with pieces := tdel w.pieces tag }))

/-- What a request of a read that has not ended brings: its failed parts counted and reported; the last request of its read delivers the whole of it, and
the units are refilled. -/
def Claims.requestEnded (p : ReadPiece) (r : ReadReq) (res : HostData) (progress : Nat) (b : Block) : Block :=
  let part := pieceData p res
  let b := countReadErrors r part.errs.length b
  let r := { r with got := tset r.got p.off part }
  if b.work.pieces.any (fun q => q.2.num == p.num) || b.work.unsent.any (fun q => q.num == p.num) then
    b.onWork (fun w => { w with reads := w.reads.map (fun x => if x.num = r.num then r else x) })
  else settleAll (purgeBanks (reapUnits (deliver r (wholeRead r.got) progress (dropReads (fun x => x.num == r.num) b))))

/-- Poisoned completions set their AER bits. -/
def Claims.poisonNoted (fn : Nat) (res : HostData) (b : Block) : Block :=
  if res.errs.any (fun e => e.kind == .poisoned) then advise fn aerPoisoned b else b

/-- LINK_TRAINED (R184), where the link answers training and is not ACTIVE, with a usable width: ACTIVE at that rate with the widths of the usable modules, and what was held
leaves; a retrain raises its cause. MODULE_TRAIN_TIMEOUT leaves a module out. RETRAIN (R185) counts and reports event 0x004; the correctable errors of R201, a corrected flit and
replay exhausted, are latched in AER (that UNSUPPORTED_REQUEST carries them is the model's choice, log entry 19). DL_DOWN, HOT_RESET and REFCLK_LOSS
take the link down with its resets. -/
def Obligations.LinkTrainsAndFalls : Prop :=
  (∀ (s : State) (rate : LinkRate) (w0 w1 : LinkWidth) (n : Nat), let a := Claims.widthOf s.blk 0 w0
    let c := Claims.widthOf s.blk 1 w1
    let b := s.blk.onLink (fun l => { l with phase := .active, rate := some rate, w0 := a, w1 := c, repaired := min 15 n, refclk := true })
    s.blk.link.phase ≠ .active → linkAnswers s.blk = true → (a ≠ .none ∨ c ≠ .none) →
    exec (.linkTrained rate w0 w1 n) s = .next { s with
      blk := settleAll (flushHeld (if s.blk.link.phase = .retrain then raiseIrq irqLink b else b)) }) ∧
  (∀ (s : State) (m : Nat), linkAnswers s.blk = true → (s.blk.link.phase = .down ∨ s.blk.link.phase = .training) →
    exec (.moduleTrainTimeout m) s = .next { s with
      blk := s.blk.onLink (fun l => { l with phase := .training, left0 := l.left0 || m == 0, left1 := l.left1 || m == 1 }) }) ∧
  (∀ s : State, s.blk.link.phase = .active →
    exec .retrain s = .next { s with
      blk := event 0x004 0 (s.blk.onLink (fun l => { l with phase := .retrain, retrains := sat32 (l.retrains + 1) })) } ∧
    ∀ posted : Bool, exec (.unsupportedRequest .flitCorrected posted) s = .next { s with blk := correctable 0 0 s.blk } ∧
      exec (.unsupportedRequest .replayExhausted posted) s = .next { s with blk := correctable 0 8 s.blk }) ∧
  (∀ s : State, s.blk.link.phase ≠ .down →
    exec .dlDown s = .next { s with blk := settleAll (linkDown s.blk) } ∧
    exec .hotReset s = .next { s with blk := settleAll (linkDown s.blk) } ∧
    exec .refclkLoss s = .next { s with blk := (settleAll (linkDown s.blk)).onLink (fun l => { l with refclk := false }) })

/-- VF_FUNCTION_LEVEL_RESET and PF0_FUNCTION_LEVEL_RESET (R203) reset the function; VF_ENABLE_CLEAR (R188) resets every VF and disables them. A changed Bus Master
Enable (R203): clearing it moves a locked TDI to ERROR, setting it lets what was held leave. D3HOT_ENTRY and D0_ENTRY likewise. TDI_CONFIG_VIOLATION (R196) moves the
locked TDI of the function, or of every VF, to ERROR. -/
def Obligations.FunctionsResetAndHeld : Prop :=
  (∀ (s : State) (fn : Nat), fn ≠ 0 → fnEnabled s.blk fn = true →
    exec (.vfFunctionLevelReset fn) s = .next { s with blk := settleAll (vfReset fn s.blk) }) ∧
  (∀ s : State, exec .pf0FunctionLevelReset s = .next { s with blk := settleAll (pf0Reset s.blk) }) ∧
  (∀ s : State, s.blk.link.vfEnable = true → exec .vfEnableClear s = .next { s with
    blk := settleAll (((List.range s.blk.link.numVfs).foldl (fun b i => vfReset (i + 1) b) s.blk).onLink (fun l => { l with vfEnable := false })) }) ∧
  (∀ (s : State) (fn : Nat), fnEnabled s.blk fn = true →
    ((fnOf s.blk fn).bme = true →
      exec (.busMasterEnableClear fn) s = .next { s with blk := settleAll (tdiViolation fn (onFn s.blk fn (fun f => { f with bme := false }))) }) ∧
    ((fnOf s.blk fn).bme = false →
      exec (.busMasterEnableSet fn) s = .next { s with blk := settleAll (resumeHeld (onFn s.blk fn (fun f => { f with bme := true }))) }) ∧
    ((fnOf s.blk fn).d3hot = false →
      exec (.d3hotEntry fn) s = .next { s with blk := settleAll (tdiViolation fn (onFn s.blk fn (fun f => { f with d3hot := true }))) }) ∧
    ((fnOf s.blk fn).d3hot = true →
      exec (.d0Entry fn) s = .next { s with blk := settleAll (resumeHeld (onFn s.blk fn (fun f => { f with d3hot := false }))) })) ∧
  (∀ s : State, exec (.tdiConfigViolation 0) s = .next { s with
    blk := settleAll ((List.range s.blk.link.numVfs).foldl (fun b i => tdiViolation (i + 1) b) s.blk) }) ∧
  (∀ (s : State) (fn : Nat), fn ≠ 0 → exec (.tdiConfigViolation fn) s = .next { s with blk := settleAll (tdiViolation fn s.blk) })

/-- HOST_READ_COMPLETION (R201) of a request in flight frees its tag, lets waiting requests go, counts and reports each failed part, and with the last
request of its read delivers what came; poisoned data sets AER bits; what comes for a read that has ended is dropped. One that had timed out is an
unexpected completion, and changes only AER and the list of timed-out tags. COMPLETION_TIMEOUT of a request with bytes missing sets its AER bits and ends
it with the missing bytes failed. -/
def Claims.ReadsEnd : Prop :=
  (∀ (s : State) (p : ReadPiece) (tag progress : Nat) (res : HostData), let b := Claims.tagFree tag (Claims.poisonNoted p.fn res s.blk)
    tget s.blk.work.pieces tag = some p →
    (∀ r, b.work.reads.find? (fun x => x.num == p.num) = some r →
      exec (.hostReadCompletion tag res progress) s = .next { s with blk := Claims.requestEnded p r res progress b }) ∧
    (b.work.reads.find? (fun x => x.num == p.num) = none → exec (.hostReadCompletion tag res progress) s = .next { s with blk := b })) ∧
  (∀ (s : State) (fn tag progress : Nat) (res : HostData), tget s.blk.work.pieces tag = none → tget s.blk.work.timedOut tag = some fn →
    exec (.hostReadCompletion tag res progress) s = .next { s with
      blk := advise fn aerUnexpected (s.blk.onWork (fun w => { w with timedOut := tdel w.timedOut tag })) }) ∧
  (∀ (s : State) (p : ReadPiece) (r : ReadReq) (tag progress : Nat) (got : Bytes),
    let b := Claims.tagFree tag ((advise p.fn aerTimeout s.blk).onWork (fun w => { w with timedOut := tset w.timedOut tag p.fn }))
    tget s.blk.work.pieces tag = some p → got.length < p.len → b.work.reads.find? (fun x => x.num == p.num) = some r →
    exec (.completionTimeout tag got progress) s = .next { s with
      blk := Claims.requestEnded p r { data := got, errs := [{ off := got.length, len := p.len - got.length, kind := .ur }] } progress b })

/-- UNSUPPORTED_REQUEST (R201, R205) sets the AER bits of the function that answers and answers UR unless posted. POISONED_BAR_WRITE (R201) is dropped, with its AER bits. BAD_WIDTH_ACCESS (R14)
to an implemented offset of a function in D0 counts, keeps its address, raises its cause and reads all ones. -/
def Claims.BadRequestsNoted : Prop :=
  (∀ (s : State) (fn off : Nat) (posted : Bool), let ur (n : Nat) : Block := advise n aerUnsupported s.blk
    let ans (n : Nat) : Block := if posted then ur n else reply n .unsupported [] (ur n)
    (fnEnabled s.blk fn = true → implemented fn off = false →
      exec (.unsupportedRequest (.unimplementedRange fn off) posted) s = .next { s with blk := ans fn }) ∧
    (fnEnabled s.blk fn = false → exec (.unsupportedRequest (.disabledVf fn) posted) s = .next { s with blk := ans 0 }) ∧
    ((fnOf s.blk 0).d3hot = true → exec (.unsupportedRequest .pf0BarInD3hot posted) s = .next { s with blk := ans 0 }) ∧
    exec (.unsupportedRequest (.unsupportedFeature fn) posted) s = .next { s with blk := ans (if fnEnabled s.blk fn then fn else 0) }) ∧
  (∀ (s : State) (fn : Nat), fnEnabled s.blk fn = true →
    exec (.poisonedBarWrite fn) s = .next { s with blk := advise fn aerPoisoned s.blk }) ∧
  (∀ (s : State) (fn off len : Nat), let b : Block := (raiseIrq irqBadAccess
      ((advise fn aerUnsupported s.blk).onLink (fun l => { l with
        badAccess := sat32 (l.badAccess + 1), badAccAddr := fn * 2 ^ 24 + off % 2 ^ 24 })))
    (¬ ((len = 4 ∧ off % 4 = 0) ∨ (len = 8 ∧ off % 8 = 0))) → fnEnabled s.blk fn = true → (fnOf s.blk fn).d3hot = false → implemented fn off = true →
    exec (.badWidthAccess fn true off len) s = .next { s with blk := b } ∧
    exec (.badWidthAccess fn false off len) s = .next { s with blk := reply fn .success (List.replicate len 0xFF) b })

/-- Device reads end; requests that nothing serves are noted. -/
def Obligations.ReadsAndBadRequests : Prop := Claims.ReadsEnd ∧ Claims.BadRequestsNoted

/-- HOST_PWRGD_MSG (R198) takes the level and is acknowledged; HOST_PWRGD_PIN_CHANGE (R199) takes the pin's; a fall of the effective value reports event 0x001. HOST_PWRGD_FALL (R200) in SERVICE
holds the host in reset, and there HOST_PWRGD_STABLE lets go. SIDEBAND_ACK ends the pending message; HOST_RESET_RESEND sends it again, counts and reports event 0x002. SIDEBAND_COMES_UP sends READY 0 first. -/
def Obligations.HostPowerGoodHandshake : Prop :=
  (∀ (s : State) (v : Bool), let noted (t : Block) : Block := if hostPwrgdOk s.blk = true ∧ hostPwrgdOk t = false then event 0x001 0 t else t
    exec (.hostPwrgdMsg v) s = .next { s with blk := send (.sideband 3 v) (noted (s.blk.onLink (fun l => { l with pwrgdMsg := v }))) } ∧
    exec (.hostPwrgdPinChange v) s = .next { s with blk := noted (s.blk.onPins (fun p => { p with hostPwrgd := v })) }) ∧
  (∀ s : State, s.blk.run.state = .service → hostPwrgdOk s.blk = false → s.blk.pins.pwrgdHold = false →
    exec .hostPwrgdFall s = .next { s with blk := settleAll (holdHost (fun p => { p with pwrgdHold := true }) s.blk) }) ∧
  (∀ s : State, s.blk.run.state = .service → s.blk.pins.pwrgdHold = true → hostPwrgdOk s.blk = true →
    exec .hostPwrgdStable s = .next { s with blk := onHostReset (fun p => { p with pwrgdHold := false }) s.blk }) ∧
  (∀ (s : State) (v : Bool), s.blk.link.hsPending = some v →
    exec (.sidebandAck v) s = .next { s with blk := s.blk.onLink (fun l => { l with hsPending := none, hsResends := 0 }) } ∧
    exec .hostResetResend s = .next { s with blk := event 0x002 (sat32 (s.blk.link.hsResends + 1)) (send (.sideband 1 v)
      ((if s.blk.link.hsNoAck then s.blk else raiseIrq irqLink s.blk).onLink
        (fun l => { l with hsNoAck := true, hsResends := sat32 (s.blk.link.hsResends + 1) }))) }) ∧
  (∀ s : State, s.blk.sb.up = false →
    exec .sidebandComesUp s = .next { s with blk := send (.sideband 4 false) (s.blk.onSb (fun x => { x with up := true })) })

/-! ### The random source, engine alarms, unit resets (chapters 01, 15, 20) -/

/-- The random source has failed its tests at start-up, or a continuous test for the third time within 65,536 µs: an alarm (R372). -/
def Claims.sourceAlarm (b : Block) : Block :=
  stampAlarm (event 0x2C1 (b.rng.selfTests + 1) (b.onRng (fun r => { r with
    state := .selfTest, inst0 := false, inst1 := false, selfTests := r.selfTests + 1, alarms := r.alarms + 1, runFails := [] })))

/-- A continuous test's failure counted and reported. -/
def Claims.healthFailed (proportion : Bool) (b : Block) : Block :=
  event 0x2C0 (b2n proportion) (b.onRng (fun r => if proportion then { r with propFails := min 65535 (r.propFails + 1) }
    else { r with repFails := min 65535 (r.repFails + 1) }))

/-- The failures of the last 2^20 raw samples, this one with them. -/
def Claims.recentFails (b : Block) : List Nat := b.rng.runFails.filter (fun t => decide (b.time.usec - t < 65536)) ++ [b.time.usec]

/-- The self-test that an alarm starts, its event and its stamp. -/
def Claims.alarmed (code value : Nat) (u : UnitId) (b : Block) : Block := settleAll (stampAlarm (event code value (alarmTest u b)))

/-- A public-key unit that alarms: its job ended, counted, its self-test begun. -/
def Claims.pkAlarmed (u : UnitId) (b : Block) : Block :=
  settleAll (stampAlarm (event 0x280 (b2n (u == UnitId.pkLat)) (alarmTest u
    ((onPk u (fun p => { p with state := .idle }) (stopPk u stEngineAlarm b)).onPke (fun p => { p with alarms := sat32 (p.alarms + 1) })))))

/-- RNG_STARTUP_DONE (R369) ends the start-up tests: passed, the source starts; failed, it alarms. RNG_HEALTH_FAIL (R372) counts and reports each failure, and of a running source restarts the tests, or, the third
in 65,536 µs, alarms. RNG_RESEED_TIMER reseeds a READY instance. RNG_RAW_READ gives the next raw word in BLANK and TEST, else 0. RNG_CONSUMER_TIMEOUT ends an RNG_FILL or HSM command that still waits in
SELF_TEST with ENGINE_ALARM. -/
def Obligations.RandomSource : Prop :=
  (∀ s : State, rngRuns s.blk = true → s.blk.rng.state = .startup →
    exec (.rngStartupDone true) s = .next { s with blk := rngPassed s.blk } ∧
    exec (.rngStartupDone false) s = .next { s with blk := Claims.sourceAlarm s.blk }) ∧
  (∀ (s : State) (proportion : Bool), let b := Claims.healthFailed proportion s.blk
    rngRuns s.blk = true → (b.rng.state = .ready ∨ b.rng.state = .startup) →
    exec (.rngHealthFail proportion) s = .next { s with blk := (if 3 ≤ (Claims.recentFails b).length then Claims.sourceAlarm b
      else b.onRng (fun r => { r with state := .startup, runFails := Claims.recentFails b })) }) ∧
  (∀ (s : State) (one : Bool), rngRuns s.blk = true → s.blk.rng.state = .ready →
    exec (.rngReseedTimer one) s = .next { s with blk := reseed (b2n one) s.blk }) ∧
  (∀ s : State, fnEnabled s.blk 0 = true → (fnOf s.blk 0).d3hot = false → s.blk.run.state ≠ .frozen →
    (s.blk.run.lcs ≤ 1 → rngRuns s.blk = true → exec .rngRawRead s = .next { s with
      blk := reply 0 .success (lePut 4 (Config.rawBits s.blk.rng.raw).toNat) (s.blk.onRng (fun r => { r with raw := r.raw + 1 })) }) ∧
    (2 ≤ s.blk.run.lcs → exec .rngRawRead s = .next { s with blk := reply 0 .success (lePut 4 0) s.blk })) ∧
  (∀ s : State, s.blk.rng.state = .selfTest →
    (∀ h, s.blk.kpr.hsm.find? (fun x => x.id == h.id && x.stage == .waiting) = some h →
      exec (.rngConsumerTimeout h.id) s = .next { s with blk := settleAll (hsmFinish h stEngineAlarm 0x0601 0 [] s.blk) }) ∧
    (∀ j, s.blk.kpr.hsm.find? (fun x => x.id == j.id && x.stage == .waiting) = none → jobOf s.blk j.id = some j → j.stage = .running →
      dOp j.desc = 0x50 →
      exec (.rngConsumerTimeout j.id) s = .next { s with blk := settleAll (concludeCore j.id (failWritten s.blk j stEngineAlarm 0x0600 0) s.blk) }))

/-- ENGINE_ALARM (R21), where units run, of a unit that works: a lane, core, pipeline or public-key unit ends what it runs with ENGINE_ALARM, counts the alarm, tests itself unless it quiesces, and reports the
unit's event; a session core gives up its key and message, the basic core's window ending; a vault alarm erases every context or that of its slot; the unwrap engine's loads fail; the key derivation
engine's command ends, its DETAIL free (R252 gives it no number: log entry 11); the random source alarms. Every alarm is
stamped (R401). -/
def Obligations.EngineAlarms : Prop :=
  ∀ s : State, unitsRun s.blk = true →
    (∀ n w, (laneAt s.blk n).state = .idle ∨ (laneAt s.blk n).state = .busy →
      exec (.engineAlarm (.lane n w)) s = .next { s with blk := (Claims.alarmed 0x240 n (.lane n)
        (onLane n (fun l => { l with alarms := min 255 (l.alarms + 1), state := .idle }) (stopLane n w stEngineAlarm s.blk))) }) ∧
    (∀ n w c, s.blk.sce.cores[n]? = some c → c.state ≠ .off → c.state ≠ .failed → c.state ≠ .selfTest →
      let b := stopPart n w stEngineAlarm (if c.state = .basic then legAbort stEngineAlarm (0x0200 + n) s.blk else s.blk)
      let b := match (b.sce.cores[n]?).bind (·.msg), (b.sce.cores[n]?).bind (·.job) with
        | some (d, i), none => abandonMsg d i b
        | _, _ => b
      exec (.engineAlarm (.core n w)) s = .next { s with blk := (Claims.alarmed 0x200 n (.core n)
        (onCore n (fun c => { c with alarms := min 255 (c.alarms + 1), key := none, state := if c.state = .basic then .basic else .idle }) b)) }) ∧
    (∀ n w p, s.blk.dge.pipes[n]? = some p → p.failed = false → p.selfTest = false →
      exec (.engineAlarm (.pipe n w)) s = .next { s with blk := (Claims.alarmed 0x1C0 n (.pipe n)
        (onPipe n (fun p => { p with alarms := min 255 (p.alarms + 1) }) (stopPipe n w stEngineAlarm s.blk))) }) ∧
    (∀ p ∈ [(Alarm.pkMod, UnitId.pkMod), (Alarm.pkLat, UnitId.pkLat)], (pkAt s.blk p.2).state ≠ .failed → (pkAt s.blk p.2).state ≠ .selfTest →
      exec (.engineAlarm p.1) s = .next { s with blk := Claims.pkAlarmed p.2 s.blk }) ∧
    (s.blk.vlt.failed = false → (∀ slot job, exec (.engineAlarm (.vaultSlot slot job)) s = .next { s with
        blk := settleAll (vaultAlarm (some slot) (some job) s.blk) }) ∧
      (∀ job, exec (.engineAlarm (.vaultPort job)) s = .next { s with blk := settleAll (vaultAlarm none (some job) s.blk) }) ∧
      exec (.engineAlarm .unwrap) s = .next { s with blk := settleAll (vaultAlarm none none (stopFlight stEngineAlarm s.blk)) }) ∧
    (∀ job, exec (.engineAlarm (.keyDerive job)) s = .next { s with blk := settleAll (stampAlarm
      (match s.blk.kpr.hsm.find? (fun h => h.id == job) with
      | some h => hsmFinish h stEngineAlarm (leNat (freeBytes 4 s.blk).1) 0 [] (freeBytes 4 s.blk).2
      | none => s.blk)) }) ∧
    (rngRuns s.blk = true → s.blk.rng.state ≠ .failed → exec (.engineAlarm .rng) s = .next { s with blk := settleAll (Claims.sourceAlarm s.blk) })

/-- UNIT_RESET (R459): a GO that names a unit of the variant, not FAILED, while no reset runs, asks the unit to quiesce; one that names none ends with RESULT 1, a FAILED unit with RESULT 2. QUIESCE_ACK (R455) of a unit with no work
left stops it, checks the pools, and powers it down or starts its self-test. UNIT_SELF_TEST_DONE (R458) ends the self-test, and a unit reset with RESULT 0 or 3. -/
def Claims.UnitsReset : Prop :=
  (∀ (s : State) (v : Word), let unit := bits v.toNat 19 16
    let inst := bits v.toNat 7 0
    let b := s.blk.onPwr (fun p => { p with unitSel := unit, unitInst := inst })
    RegReach s.blk 0x7FF0FF00 v → s.blk.pwr.resetting = none →
    (bit v.toNat 31 = false → exec (.unitReset v) s = .next { s with blk := b }) ∧
    (bit v.toNat 31 = true → unitNamed s.blk.run.variant unit inst = none → exec (.unitReset v) s = .next { s with blk := unitRefused 1 b }) ∧
    (∀ u, bit v.toNat 31 = true → unitNamed s.blk.run.variant unit inst = some u →
      (unitFailed s.blk u = true → exec (.unitReset v) s = .next { s with blk := unitRefused 2 b }) ∧
      (unitFailed s.blk u = false → s.blk.leg.core = none → exec (.unitReset v) s = .next { s with
        blk := settleAll (askQuiesce u .reset (b.onPwr (fun p => { p with resetting := some u }))) }))) ∧
  (∀ (s : State) (u : UnitId) (p : Purpose) (w : Nat), s.blk.pwr.quiesce.find? (fun q => q.1 == u) = some (u, p) → quiesceWaits s.blk u p = false →
    exec (.quiesceAck u w) s = .next { s with blk := settleAll (governorStep (checkPools ((quiesceStop u p w s.blk).onPwr
      (fun x => { x with quiesce := x.quiesce.filter (fun q => q.1 != u) })))) }) ∧
  (∀ (s : State) (u : UnitId), u ≠ .rng → unitsRun s.blk = true → inSelfTest s.blk u = true →
    exec (.unitSelfTestDone u true) s = .next { s with blk := settleAll (unitResetEnded u 0 (testPassed u s.blk)) } ∧
    exec (.unitSelfTestDone u false) s = .next { s with blk := settleAll (unitResetEnded u 3 (testFailed u s.blk)) })

/-- The hotter die's Tj: JT-H48F alone has a vault die. -/
def Claims.hot (b : Block) (g : Sensors) : Int := if b.run.variant = .jtH48F then max g.tjLogic g.tjVault else g.tjLogic

/-- Event 0x042 at a rise of the hotter die above 100 °C. -/
def Claims.heated (g : Sensors) (b : Block) : Block :=
  if 100 < Claims.hot b g ∧ b.pwr.tj ≤ 100 ∧ unitsRun b = true then event 0x042 (Claims.hot b g).toNat b else b

/-- What the governor does first with what its sensors read: the event, and the readings kept. -/
def Claims.sensed (g : Sensors) (b : Block) : Block :=
  (Claims.heated g b).onPwr (fun p => { p with tj := Claims.hot b g, measured := g.measured })

/-- Units that a decision leaves out are withdrawn. -/
def Claims.withdrawn (d : Decision) (b : Block) : Block :=
  let b := (List.range b.ste.lanes.length).foldl (fun b n =>
    if (laneAt b n).admitted && !d.lanes.contains n then withdrawLane n b else b) b
  (List.range b.sce.cores.length).foldl (fun b n =>
    if (b.sce.cores[n]?).any (·.admitted) && !d.cores.contains n && b.leg.core != some n then withdrawCore n b else b) b

/-- SET_POWER_CAP (R227) sets the cap and preference, RESULT the previous cap. GOVERNOR_DECISION (R461) in SERVICE, of a choice that differs, counts, raises the governor cause when a limit or slow canary is new, withdraws
units and moves the voltage. AVS_ACK (R464) takes the measured voltage, and the next request goes 100 µs later at the earliest. AVS_FAULT (R465), with AVSBus in use, counts, raises the cause the first time, and decides by admission alone. -/
def Claims.GovernorMoves : Prop :=
  (∀ (s : State) (j : Job), AdminReady s.blk j 0x88 → exec (.setPowerCap j.id) s = .next { s with
    blk := settleAll (concludeCore j.id (success 0 s.blk.pwr.cap) ((begun s.blk j).onPwr (fun p => { p with cap := aCap j.desc, pref := aPref j.desc }))) }) ∧
  (∀ (s : State) (g : Sensors) (d : Decision), let b := Claims.sensed g s.blk
    let rose := (d.limited && !b.pwr.capLimited) || (g.canarySlow && !b.pwr.canarySlow)
    let b := b.onPwr (fun p => { p with canarySlow := g.canarySlow, capLimited := d.limited })
    let b := if rose then raiseIrq irqGovernor b else b
    s.blk.run.state = .service → d = choose (Claims.heated g s.blk) g →
    (d.lanes = b.pwr.goalLanes ∧ d.cores = b.pwr.goalCores ∧ d.mv = b.pwr.goal → exec (.governorDecision g) s = .next { s with blk := b }) ∧
    (¬ (d.lanes = b.pwr.goalLanes ∧ d.cores = b.pwr.goalCores ∧ d.mv = b.pwr.goal) → exec (.governorDecision g) s = .next { s with
      blk := settleAll (governorStep (Claims.withdrawn d (b.onPwr (fun p => { p with
        decisions := sat32 (p.decisions + 1), settling := true, goal := d.mv, goalLanes := d.lanes, goalCores := d.cores })))) })) ∧
  (∀ (s : State) (mv : Nat), s.blk.pwr.avsBusy = true → exec (.avsAck mv) s = .next { s with
    blk := settleAll (governorStep (s.blk.onPwr (fun p => { p with
      avsBusy := false, avsFrom := s.blk.time.usec + 100, measured := mv }))) }) ∧
  (∀ (s : State) (g : Sensors), let b := s.blk.onPwr (fun p => { p with avsFault := true, avsBusy := false, avsErrors := sat32 (p.avsErrors + 1) })
    avsActive s.blk = true → unitsRun s.blk = true → exec (.avsFault g) s = .next { s with
      blk := settleAll (governorStep (governorDecision g (if s.blk.pwr.avsFault then b else raiseIrq irqGovernor b))) })

/-- Units are reset; the governor decides and moves. -/
def Obligations.UnitsAndGovernor : Prop := Claims.UnitsReset ∧ Claims.GovernorMoves
/-! ### Supplies, resets, boot, Thaw (chapters 02, 03 and 05) -/

/-- SUPPLY_THRESHOLD_CROSSING (R63, R65 to R68): a supply starts, comes to good, falls, empties or sags, and the ordering monitor latches and counts each fault that the order makes (of several at one
crossing, code 2, 3, 4 in this order: the model's choice, log entry 6). POWER_GOOD_FALL (R64) is a power-on reset. VBAT_LOW
(R71) takes the level, with event 0x041 while VDD_ANA is good; VBAT_RETURN takes it. BATTERY_DOMAIN_POWER_UP (R67) leaves BBRAM blank, the tamper state initial, no faults, and the seconds count 0. -/
def Obligations.SuppliesAndBattery : Prop :=
  (∀ (s : State) (u : Supply), let r := rail s.blk u
    (r.started = false → let h := if u ≠ .ana ∧ railsEmpty s.blk = true then s.blk.onSup (fun x => { x with held := false }) else s.blk
      let b := putRail u { r with started := true, startedAt := s.blk.time.mono + 1, goodAt := 0 } h
      exec (.supplyThresholdCrossing u .starts) s = .next { s with blk := (if u = .core ∧ s.blk.sup.ana.good = false then orderFault 1 b
        else if u = .io ∧ ¬ (s.blk.sup.core.good = true ∧ s.blk.sup.ucie.good = true) then orderFault 3 b else b) }) ∧
    (r.started = true → r.good = false → let b := putRail u { r with good := true, goodAt := s.blk.time.mono + 1 } s.blk
      exec (.supplyThresholdCrossing u .good) s = .next { s with blk := (goodFaults s.blk u).foldl (fun b c => orderFault c b) b }) ∧
    (r.good = true → let b := putRail u { r with good := false } s.blk
      exec (.supplyThresholdCrossing u .lost) s = .next { s with blk := (match u with
        | .ana => vbatWeak (if s.blk.sup.core.started then orderFault 6 b else b)
        | .core | .ucie => if s.blk.sup.io.started then orderFault 5 b else b
        | .io => b) }) ∧
    (r.started = true → r.good = false → exec (.supplyThresholdCrossing u .empties) s = .next { s with
      blk := putRail u { r with started := false, lowAt := s.blk.time.mono } s.blk }) ∧
    (r.started = true → r.good = false → r.goodAt = 0 →
      exec (.supplyThresholdCrossing u .sagged) s = .next { s with blk := orderFault 4 s.blk })) ∧
  (∀ s : State, s.blk.sup.pgood = true → (railsGood s.blk = false ∨ s.blk.sup.held = true) →
    exec .powerGoodFall s = .next { s with blk := chipReset 1 (s.blk.onSup (fun x => { x with pgood := false })) }) ∧
  (∀ (s : State) (mv : Nat), let b := s.blk.onSup (fun x => { x with vbatMv := mv })
    (mv < 2500 → exec (.vbatLow mv) s = .next { s with blk := (if s.blk.sup.ana.good then (if s.blk.run.state = .reset then b else event 0x041 mv b)
      else vbatWeak b) }) ∧
    (2500 ≤ mv → exec (.vbatReturn mv) s = .next { s with blk := b }) ∧
    ∃ t, exec (.batteryDomainPowerUp mv) s = .next t ∧ t.blk.bbram = BbramSt.blank ∧ t.blk.time.secs = 0 ∧ t.blk.time.subsec = 0 ∧
      t.blk.tmp = { TamperSt.initial with xtalAt := s.blk.time.mono + 2000000 } ∧ t.blk.sup.fault = 0 ∧ t.blk.sup.vbatMv = mv)

/-- Straps sampled, BBRAM judged, life-cycle groups completed, OTP shadowed and its tag checked: what every ROM entry does (R98). -/
def Claims.entered (env : BootEnv) (b : Block) : Block :=
  let b := (b.onRun (fun r => { r with state := .rom })).onKey (fun k => { k with dataBad := env.bbramBad, ctlBad := env.ctlBad })
  checkTag (loadShadow (completeGroups env.weak (judgeRetained (copySupply
    (sampleStraps env.straps env.unstable (b.onSup (fun s => { s with pgood := true })))))))

/-- ROM_ENTRY (R98), out of RESET with supplies good and SYS_RST_N high: the entry steps; with the Frost latch set the tests of R408 and FROZEN, otherwise the known-answer tests and the source walk. SFDP_TIMEOUT leaves chip select
0 absent and fails the source with outcome 2, LISTEN_WINDOW_EXPIRY with NO_OFFER (R102). THAW_OFFER_TIMEOUT (R122) drops the offer. HOST_RELEASE (R117, R199) enters SERVICE and arms WDG_P. SYS_RST_N (R49) held low is a chip reset, cause 2, under internal power-good. -/
def Obligations.BootRunsAndHostReleased : Prop :=
  (∀ (s : State) (env : BootEnv), let b := Claims.entered env s.blk
    s.blk.run.state = .reset → railsGood s.blk = true → s.blk.sup.held = false → s.blk.pins.sysRstLow = false →
    exec (.romEntry env) s = .next { s with blk := (if b.tmp.latched
      then raiseIrq irqFrozen (((katRun frozenTests env.kat b).onRun (fun r => { r with state := .frozen })).onFlt (fun f => { f with mode := 4 }))
      else let k := katRun (katTests (sigPolicy (otpShadow b 8))) env.kat b
        if k.run.state ≠ .rom ∨ k.boot.katFail = true then k else walkOn env.flash (buildList k)) }) ∧
  (∀ (s : State) (f : FlashView), s.blk.run.state = .rom →
    (s.blk.boot.wait = .sfdp → let p := s.blk.boot.order.getD s.blk.boot.pos 0 - 1
      exec (.sfdpTimeout f) s = .next { s with blk := walkOn f (sourceFailed 0x2 (discoverPort p { f.port p with cs0 := none } s.blk)) }) ∧
    (s.blk.boot.wait = .listen → exec (.listenWindowExpiry f) s = .next { s with
      blk := walkOn f (sourceFailed 0xF (s.blk.onMon (fun m => { m with owner := 0 }))) })) ∧
  (∀ s : State, s.blk.run.state = .keeperBoot → s.blk.boot.frozenSet = true → s.blk.boot.recordHold = false → hostPwrgdOk s.blk = true →
    exec .hostRelease s = .next { s with blk := ((wdgArm true 0x0001EA60 (onHostReset (fun p => { p with released := true })
      ((s.blk.onRun (fun r => { r with state := .service })).onBoot (fun o => { o with hostReleased := true })))).onWdg
        (fun w => { w with runStart := some s.blk.time.secs })) }) ∧
  (∀ s : State, let b := s.blk.onPins (fun p => { p with sysRstLow := true })
    exec .sysRstNRecognised s = .next { s with blk := (if s.blk.sup.pgood then chipReset 2 b else b) } ∧
    exec .sysRstNRise s = .next { s with blk := s.blk.onPins (fun p => { p with sysRstLow := false }) } ∧
    exec .thawOfferTimeout s = .next { s with blk := s.blk.onBoot (fun x => { x with offer := none }) })

/-- A transport of source code `t` may make an offer: it answers Thaw commands, offers are taken, and no other's stands. -/
def Claims.offers (b : Block) (t : Nat) : Prop := thawAnswers b t = true ∧ offersTaken b = true ∧ otherOffer b t = false

/-- A new offer of 8 bytes: its length and image count. -/
def Claims.newOffer (t : Nat) (p : Bytes) (now : Nat) : ThawOffer :=
  { transport := t, length := leAt p 0 4, images := max 1 (leAt p 4 4), taken := 0, left := max 1 (leAt p 4 4), head := [], image := [], come := 0,
    slot := none, code := 0, lastAt := now }

/-- READY with the largest chunk; in ROM THAW is entered first. -/
def Claims.offerTaken (f : FlashView) (t : Nat) (p : Bytes) (b : Block) : Bytes × Block :=
  let b := if b.run.state = .rom then enterThaw 4 f b else b
  (0 :: lePut 4 (Config.thawChunk (t - 3)), b.onBoot (fun x => { x with offer := some (Claims.newOffer t p b.time.usec) }))

/-- A chunk that comes next in the offer held by `t`. -/
def Claims.chunkNext (b : Block) (t : Nat) (o : ThawOffer) (p : Bytes) : Prop :=
  thawAnswers b t = true ∧ heldOffer b t = some o ∧ 4 ≤ p.length ∧ leAt p 0 4 = o.taken ∧ o.taken + (p.length - 4) ≤ o.length

/-- A chunk that does not come next: another offset, or more than the bundle holds. -/
def Claims.chunkStray (b : Block) (t : Nat) (o : ThawOffer) (p : Bytes) : Prop :=
  thawAnswers b t = true ∧ heldOffer b t = some o ∧ 4 ≤ p.length ∧ (leAt p 0 4 ≠ o.taken ∨ o.length < o.taken + (p.length - 4))

/-- The chunk counted in its offer; its bytes go to the manifests and images they belong to; ACK gives the next offset. -/
def Claims.chunkTaken (f : FlashView) (o : ThawOffer) (p : Bytes) (b : Block) : Bytes × Block :=
  let n := o.taken + (p.length - 4)
  (0 :: lePut 4 n, (bundleTakes (p.length - 4 + 1) (p.drop 4)
    (f, b.onBoot (fun x => { x with offer := some { o with taken := n, lastAt := b.time.usec } }))).2)

/-- VERIFIED, or FAILED with the outcome of the bundle; the offer is gone. -/
def Claims.bundleEnded (o : ThawOffer) (b : Block) : Bytes × Block :=
  let code := bundleCode o
  (if code = 1 then [0] else [1, BitVec.ofNat 8 code], b.onBoot (fun x => { x with offer := none, lastOutcome := code }))

/-- What THAW_STATUS gives. -/
def Claims.thawReport (b : Block) : Bytes :=
  0 :: lePut 1 (stateCode b.run.state) ++ lePut 1 b.boot.thawReason ++ lePut 4 (bootStatus b) ++ lePut 1 b.boot.lastOutcome

/-- The ports can serve the keeper's writes. -/
def Claims.portsFree (b : Block) : Prop := writableNow b 0 = true ∧ writableNow b 1 = true

/-- THAW_OFFER (R121, R122) of 8 bytes, by frame or MCTP: a transport that may offer gets READY and its offer stands, in ROM entering THAW first; one that
answers but may not gets BUSY. THAW_CHUNK at the next offset, both ports free, takes its bytes and answers the new offset; else OUT_OF_ORDER. A part of a
manifest only gathers. THAW_END of an offer answers VERIFIED or FAILED with the outcome and drops the offer; after VERIFIED in THAW the reset of R122
follows. THAW_STATUS reports. THAW_OFFER_TIMEOUT drops the offer. The payloads are the model's choice (log entry 14; R121 leaves them open). -/
def Obligations.ThawTakesBundles : Prop :=
  (∀ (s : State) (f : FlashView) (body : Bytes) (tag : Nat) (p : Bytes), Claims.Served s.blk body 0x01 tag p → p.length = 8 →
    (Claims.offers s.blk 3 → exec (.thawOffer (.frame body) f) s = .next { s with
      blk := Claims.byFrame 0x01 tag (Claims.offerTaken f 3 p (intoFramed s.blk)) }) ∧
    (thawAnswers s.blk 3 = true → (offersTaken s.blk = false ∨ otherOffer s.blk 3 = true) →
      exec (.thawOffer (.frame body) f) s = .next { s with blk := Claims.byFrame 0x01 tag ([1], intoFramed s.blk) })) ∧
  (∀ (s : State) (f : FlashView) (target : Nat) (p : Bytes), Claims.ServedMctp s.blk target → p.length = 8 →
    (Claims.offers s.blk 4 → exec (.thawOffer (.mctp target p) f) s = .next { s with
      blk := Claims.byMctp 0x01 (Claims.offerTaken f 4 p s.blk) }) ∧
    (thawAnswers s.blk 4 = true → (offersTaken s.blk = false ∨ otherOffer s.blk 4 = true) →
      exec (.thawOffer (.mctp target p) f) s = .next { s with blk := Claims.byMctp 0x01 ([1], s.blk) })) ∧
  (∀ (s : State) (f : FlashView) (body : Bytes) (tag : Nat) (p : Bytes) (o : ThawOffer), Claims.Served s.blk body 0x02 tag p → Claims.portsFree s.blk →
    (Claims.chunkNext s.blk 3 o p → exec (.thawChunk ⟨.frame body, f⟩) s = .next { s with
      blk := Claims.byFrame 0x02 tag (Claims.chunkTaken f o p (intoFramed s.blk)) }) ∧
    (Claims.chunkStray s.blk 3 o p → exec (.thawChunk ⟨.frame body, f⟩) s = .next { s with
      blk := Claims.byFrame 0x02 tag ([1], intoFramed s.blk) })) ∧
  (∀ (s : State) (f : FlashView) (target : Nat) (p : Bytes) (o : ThawOffer), Claims.ServedMctp s.blk target → Claims.portsFree s.blk →
    (Claims.chunkNext s.blk 4 o p → exec (.thawChunk ⟨.mctp target p, f⟩) s = .next { s with
      blk := Claims.byMctp 0x02 (Claims.chunkTaken f o p s.blk) }) ∧
    (Claims.chunkStray s.blk 4 o p → exec (.thawChunk ⟨.mctp target p, f⟩) s = .next { s with blk := Claims.byMctp 0x02 ([1], s.blk) })) ∧
  (∀ (n : Nat) (f : FlashView) (b : Block) (o : ThawOffer) (data : Bytes), b.boot.offer = some o → data ≠ [] → o.code = 0 → o.left ≠ 0 →
    o.head.length + data.length < manifestLen →
    bundleTakes (n + 2) data (f, b) = (f, b.onBoot (fun x => { x with offer := some { o with head := o.head ++ data } }))) ∧
  (∀ (s : State) (f : FlashView) (body : Bytes) (tag : Nat) (o : ThawOffer), Claims.Served s.blk body 0x03 tag [] → thawAnswers s.blk 3 = true →
    heldOffer s.blk 3 = some o →
    exec (.thawEnd (.frame body) f) s = .next { s with blk := thawDone true (Claims.byFrame 0x03 tag (Claims.bundleEnded o (intoFramed s.blk))) }) ∧
  (∀ (s : State) (f : FlashView) (target : Nat) (o : ThawOffer), Claims.ServedMctp s.blk target → thawAnswers s.blk 4 = true → heldOffer s.blk 4 = some o →
    exec (.thawEnd (.mctp target []) f) s = .next { s with blk := thawDone true (Claims.byMctp 0x03 (Claims.bundleEnded o s.blk)) }) ∧
  (∀ (s : State) (body : Bytes) (tag : Nat), Claims.Served s.blk body 0x04 tag [] → thawAnswers s.blk 3 = true →
    exec (.thawStatus (.frame body)) s = .next { s with
      blk := Claims.byFrame 0x04 tag (Claims.thawReport (intoFramed s.blk), intoFramed s.blk) }) ∧
  (∀ (s : State) (target : Nat), Claims.ServedMctp s.blk target → thawAnswers s.blk 4 = true →
    exec (.thawStatus (.mctp target [])) s = .next { s with blk := Claims.byMctp 0x04 (Claims.thawReport s.blk, s.blk) }) ∧
  (∀ s : State, exec .thawOfferTimeout s = .next { s with blk := s.blk.onBoot (fun x => { x with offer := none }) })

/-! ### The flash interposer (chapter 06) -/

/-- A boot-window read that leads to a port address the filter allows, by its rule. -/
def Claims.WindowReads (b : Block) (off n a : Nat) (r : FlashRule) : Prop :=
  (fnOf b 0).d3hot = false ∧ b.run.state ≠ .frozen ∧ windowPlace b off n = (some a, true) ∧
    flashJudge b b.flt.dirPort .host opRead a n = .allowed (some r)

/-- A mailbox command of a CMD that GO starts: its block with the length taken. -/
def Claims.MbxStarts (b : Block) (v : Word) (cmd : Nat) (t : Block) : Prop :=
  RegReach b 0x7FFFE000 v ∧ bit v.toNat 31 = true ∧ b.flt.mbxCmd = cmd ∧ b.flt.mbxBusy = false ∧
    t = b.onFlt (fun f => { f with mbxLen := bits v.toNat 12 0 })

/-- What follows when the filter allows a mailbox command, or its refusal; a write into a slot that an activation has closed gives BUSY (R153). -/
def Claims.judged (p op a n : Nat) (b : Block) (f : FlashRule → Block → Block) : Block :=
  match flashJudge b p .host op a n with
  | .refused ap => mbxEnd 1 b.flt.buffer (flashRefuse .host p a ap b)
  | .allowed none => mbxEnd 1 b.flt.buffer (flashRefuse .host p a false b)
  | .allowed (some r) =>
    if op ≠ opRead ∧ slotClosed b p a n = true then mbxEnd 2 b.flt.buffer (flashRefuse .host p a false b)
    else f r (b.onFlt (fun x => { x with mbxBusy := true }))

/-- No activation of the keeper waits for an operation. -/
def Claims.noKeeper (o : FlashOp) : Prop := ∀ job, FlashWaiter.keeper job ∉ o.waiters

/-- The SPIT address of a command: as many bytes of it as the allow-list entry gives. -/
def Claims.spitAt (b : Block) (op : Byte) (a : Nat) : Nat := a % 256 ^ bits (tgetD 0 b.flt.allow op.toNat) 23 16

/-- SPIT is neither stopped nor in STATE RESET, and an opcode is allowed with a KIND. -/
def Claims.Allowed (b : Block) (op : Byte) (kind : Nat) : Prop := b.flt.mode ≠ 4 ∧ b.run.state ≠ .reset ∧ spitKind b op = some kind

/-- HOST_BOOT_WINDOW_READ (R144) of an allowed place: a VERIFIED block in the cache answers; one that is not asks its fill and read-ahead; an unverified one asks a read. What the filter refuses or no class holds is a Completer Abort, counted; in FROZEN a Completer Abort. BOOT_WINDOW_WRITE is
discarded and counted as a refusal. FLASH_OP_COMPLETE (R128, R140): a fill that matches its ledger entry becomes visible and serves who waits; one that does
not is suspect and poisons them; a flash error of a fill is counted; a read serves or poisons; the last part of a mailbox command, or a flash error, ends it;
a SPIT part leaves BUSY and the error bit; the port takes its next operation. (An activation's operations: ActivationUpdateAndDebug.) -/
def Claims.BootWindowAndFills : Prop :=
  (∀ (s : State) (off n a : Nat) (r : FlashRule), Claims.WindowReads s.blk off n a r → let p := s.blk.flt.dirPort
    exec (.hostBootWindowRead off n) s = .next { s with blk := (if r.verified then
        match cacheLine s.blk p (blockOf a) with
        | some c => reply 0 .success (slice c.data (a % 4096) n) (touchLine p (blockOf a) s.blk)
        | none => readAhead p (blockOf a) r (askFill p (blockOf a) 3 [.bootWindow a n] s.blk)
      else askOp p .read a n [] 3 [.bootWindow a n] s.blk) }) ∧
  (∀ (s : State) (off n a : Nat) (ap : Bool), (fnOf s.blk 0).d3hot = false →
    (s.blk.run.state = .frozen → exec (.hostBootWindowRead off n) s = .next { s with blk := windowAbort s.blk }) ∧
    (s.blk.run.state ≠ .frozen → windowPlace s.blk off n = (none, false) →
      exec (.hostBootWindowRead off n) s = .next { s with blk := windowAbort (flashRefuseNowhere .host s.blk) }) ∧
    (s.blk.run.state ≠ .frozen → windowPlace s.blk off n = (some a, true) → flashJudge s.blk s.blk.flt.dirPort .host opRead a n = .refused ap →
      exec (.hostBootWindowRead off n) s = .next { s with blk := windowAbort (flashRefuse .host s.blk.flt.dirPort a ap s.blk) })) ∧
  (∀ (s : State) (off : Nat), off < 2 ^ 31 → (fnOf s.blk 0).d3hot = false → exec (.bootWindowWrite off) s = .next { s with
    blk := match (windowPlace s.blk off 1).1 with
      | some a => flashRefuse .host s.blk.flt.dirPort a false s.blk
      | none => flashRefuseNowhere .host s.blk }) ∧
  (∀ (s : State) (p : Nat) (data : Bytes) (o : FlashOp), (portOf s.blk p).running = some o → Claims.noKeeper o →
    let b := onPort p (fun x => { x with running := none }) s.blk
    let d := slice data 0 o.len
    (∀ r, o.kind = .fill → ruleFor (portOf b p) o.addr 4096 = some r → let index := r.ledger + (o.addr - r.base) / 4096
      exec (.flashOpComplete p data true) s = .next { s with blk := portNext p (
        if tget (portOf b p).ledger index = some (ledgerDigest p o.addr d) then o.waiters.foldl (serveWaiter o.addr d) (addLine p o.addr d b)
        else o.waiters.foldl poisonWaiter (markSuspect p o.addr index b)) } ∧
      exec (.flashOpComplete p data false) s = .next { s with
        blk := portNext p (o.waiters.foldl poisonWaiter (b.onFlt (fun f => { f with fetchErrors := sat32 (f.fetchErrors + 1) }))) }) ∧
    (o.kind = .read →
      exec (.flashOpComplete p data true) s = .next { s with blk := portNext p (o.waiters.foldl (serveWaiter o.addr d) b) } ∧
      exec (.flashOpComplete p data false) s = .next { s with blk := portNext p (o.waiters.foldl poisonWaiter b) }) ∧
    (o.kind ≠ .fill → o.kind ≠ .read → o.rank = 4 →
      exec (.flashOpComplete p data true) s = .next { s with
        blk := portNext p (if (portOps (portOf b p)).any (fun x => x.rank == 4) then b else mbxEnd 0 b.flt.buffer b) } ∧
      exec (.flashOpComplete p data false) s = .next { s with
        blk := portNext p (mbxEnd 3 b.flt.buffer (onPort p (fun x => { x with queue := x.queue.filter (fun y => !(y.rank == 4)) }) b)) }) ∧
    (∀ ok : Bool, o.kind ≠ .fill → o.kind ≠ .read → o.rank ≠ 4 → o.rank ≠ 1 → exec (.flashOpComplete p data ok) s = .next { s with
      blk := (portNext p (b.onFlt (fun f => { f with
        spitBusy := (portOps (portOf b p)).any (fun x => x.rank == 5), spitWel := false
        spitErr := if ok then f.spitErr else f.spitErr ||| (if o.kind = .program then 0x40 else 0x20) }))) }))

/-- MBX_READ, MBX_PROGRAM, MBX_ERASE_4K and MBX_ERASE_64K (R145), with no command under way: a length 0 or past the block, or an address that is not aligned, ends with RESULT 4; a refused one with RESULT 1, a write into a closed slot with RESULT 2; an allowed read comes from the cache, a fill or the port; a
program goes out in pages, an erase whole, at rank 4. -/
def Claims.MailboxCommands : Prop :=
  ∀ (s : State) (v : Word) (b : Block), let p := b.flt.mbxAddr / 2 ^ 31
    let a := b.flt.mbxAddr % 2 ^ 30
    let n := b.flt.mbxLen
    let crosses := n = 0 ∨ 4096 < a % 4096 + n
    (Claims.MbxStarts s.blk v 1 b → exec (.mbxRead v) s = .next { s with blk := (if crosses then mbxEnd 4 b.flt.buffer b
      else Claims.judged p opRead a n b (fun r b =>
        if r.verified then
          match cacheLine b p (blockOf a) with
          | some c => mbxEnd 0 (bufferOf (slice c.data (a % 4096) n)) (touchLine p (blockOf a) b)
          | none => readAhead p (blockOf a) r (askFill p (blockOf a) 3 [.mailbox a n] b)
        else askOp p .read a n [] 3 [.mailbox a n] b)) }) ∧
    (Claims.MbxStarts s.blk v 2 b → exec (.mbxProgram v) s = .next { s with blk := (if crosses then mbxEnd 4 b.flt.buffer b
      else Claims.judged p opProgram a n b (fun _ b =>
        (pageParts (pageOf (portOf b p) a) 4097 a (bufferBytes b n)).foldl (fun b x => askOp p .program x.1 x.2.length x.2 4 [] b) b)) }) ∧
    (Claims.MbxStarts s.blk v 3 b → exec (.mbxErase4K v) s = .next { s with blk := (if a % 4096 ≠ 0 then mbxEnd 4 b.flt.buffer b
      else Claims.judged p opErase a 4096 b (fun _ => askOp p .erase4K a 4096 [] 4 [])) }) ∧
    (Claims.MbxStarts s.blk v 4 b → exec (.mbxErase64K v) s = .next { s with blk := (if a % 65536 ≠ 0 then mbxEnd 4 b.flt.buffer b
      else Claims.judged p opErase a 65536 b (fun _ => askOp p .erase64K a 65536 [] 4 [])) })

/-- The boot window and the mailbox reach flash through the filter. -/
def Obligations.FlashThroughTheFilter : Prop := Claims.BootWindowAndFills ∧ Claims.MailboxCommands

/-- With SPIT not stopped and the opcode allowed with the command's KIND (R146 to R150): SPIT_READ reads on block by block; SPIT_PROGRAM and SPIT_ERASE are judged and queued; SPIT_READ_STATUS sends BUSY, WEL and errors, opcode 0x05 also the alert's cause, and then releases the pin; WRITE_ENABLE and WRITE_DISABLE
set and clear WEL; SFDP bytes are open, the identity is 7F 4A 48; RESET is two opcodes. An opcode with no KIND alerts and counts. A stopped read gives ones. -/
def Obligations.SpitCommands : Prop :=
  ∀ (s : State) (op : Byte) (a n : Nat) (data : Bytes) (octal : Bool),
    (Claims.Allowed s.blk op 0 → exec (.spitRead op octal a n) s = .next { s with
      blk := spitGo (n / 4096 + 2) octal (Claims.spitAt s.blk op a) n s.blk }) ∧
    (s.blk.flt.mode = 4 → exec (.spitRead op octal a n) s = .next { s with blk := spitOnes n s.blk }) ∧
    (Claims.Allowed s.blk op 1 → exec (.spitProgram op a data) s = .next { s with 
      blk := spitWrite false .program (Claims.spitAt s.blk op a) data.length data s.blk }) ∧
    (Claims.Allowed s.blk op 2 → exec (.spitErase op a) s = .next { s with
      blk := spitWrite true .erase4K (Claims.spitAt s.blk op a / 4096 * 4096) 4096 [] s.blk }) ∧
    (Claims.Allowed s.blk op 3 → exec (.spitErase op a) s = .next { s with
      blk := spitWrite true .erase64K (Claims.spitAt s.blk op a / 65536 * 65536) 65536 [] s.blk }) ∧
    (Claims.Allowed s.blk op 5 → let st := lePut 1 (flag s.blk.flt.spitBusy 0 + flag s.blk.flt.spitWel 1 + s.blk.flt.spitErr)
      (op = 0x05 → exec (.spitReadStatus op) s = .next { s with
        blk := (send (.spit (st ++ lePut 1 s.blk.pins.spitCause)) s.blk).onPins (fun p => { p with spitAlert := false, spitCause := 0 }) }) ∧
      (op ≠ 0x05 → exec (.spitReadStatus op) s = .next { s with blk := send (.spit st) s.blk })) ∧
    (Claims.Allowed s.blk op 6 → exec (.spitWriteEnable op) s = .next { s with blk := { s.blk with flt := { s.blk.flt with spitWel := true } } }) ∧
    (Claims.Allowed s.blk op 7 → exec (.spitWriteDisable op) s = .next { s with blk := { s.blk with flt := { s.blk.flt with spitWel := false } } }) ∧
    (Claims.Allowed s.blk op 8 → exec (.spitReadSfdp op a n) s = .next { s with
      blk := send (.spit ((List.range n).map (fun i => Config.sfdpByte (a + i)))) s.blk }) ∧
    (Claims.Allowed s.blk op 9 → exec (.spitReadId op) s = .next { s with blk := send (.spit [0x7F, 0x4A, 0x48]) s.blk }) ∧
    (Claims.Allowed s.blk op 10 → exec (.spitReset op) s = .next { s with blk := s.blk.onFlt (fun f => { f with spitRstEn := true }) }) ∧
    (Claims.Allowed s.blk op 11 → s.blk.flt.spitRstEn = true → exec (.spitReset op) s = .next { s with
      blk := s.blk.onFlt (fun f => { f with spitRstEn := false, spitWel := false, spitErr := 0 }) }) ∧
    (s.blk.flt.mode ≠ 4 → s.blk.run.state ≠ .reset → spitKind s.blk op = none →
      exec (.spitOpcodeRefused op) s = .next { s with blk := spitAlert 1 (flashRefuseNowhere .spit s.blk) })

/-! ### SPDM and TDISP (chapters 07 and 08) -/

/-- A request `req` of a code that the responder judges now (R179, R182), carried by the message `wire`: its path delivers it, it opens, and once it is
counted the keeper runs outside WINTER and FROZEN, no resynchronisation is due, and its version is the one of the code. -/
def Claims.SpdmTurn (b : Block) (code : Nat) (via : SpdmVia) (wire req : Bytes) : Prop :=
  spdmPath b via = true ∧ spdmOpen b via wire = some req ∧ 4 ≤ req.length ∧ leAt req 1 1 = code ∧ (tookRecord via b).run.state ≠ .frozen ∧
    spdmRuns (tookRecord via b) = true ∧ (connOf (tookRecord via b) via).resynch = false ∧ leAt req 0 1 = (if code = 0x84 then 0x10 else 0x13)

/-- The units that sign work, and a random source for a nonce. -/
def Claims.CanSign (b : Block) : Prop := hybridDead b = none ∧ b.rng.state ≠ .failed

/-- The front of a CHALLENGE_AUTH: chain digest, nonce, summary, no opaque data, the requester's context. -/
def Claims.challengeFront (b : Block) (nonce : Bytes) (req : Bytes) : Bytes :=
  spdmHead 0x03 0 1 ++ sha384 (spdmChain b) ++ nonce ++ measureSummary b (leAt req 3 1) ++ zeros 2 ++ slice req 36 8

/-- The front of a MEASUREMENTS response to an operation. -/
def Claims.measuredFront (b : Block) (nonce : Bytes) (req ctx : Bytes) : Bytes :=
  let op := leAt req 3 1
  let chosen := if op = 0 then [] else if op = 255 then measureBlocks b else (measureBlocks b).filter (fun x => x.1 == op)
  spdmHead 0x60 (if op = 0 then (measureBlocks b).length else 0) 0 ++ lePut 1 chosen.length ++ lePut 3 (chosen.flatMap (·.2)).length ++
    chosen.flatMap (·.2) ++ nonce ++ zeros 2 ++ ctx

/-- The transcript of certificates grows by an exchange, in the clear. -/
def Claims.notedB (via : SpdmVia) (req rsp : Bytes) (b : Block) : Block :=
  onConn via (fun c => { c with msgB := if inClear via then c.msgB ++ req ++ rsp else c.msgB, msgL := [] }) b

/-- The fields of ALGORITHMS: P-384, SHA-384, DMTF measurements, and the structures of the request. -/
def Claims.algorithms (via : SpdmVia) (req : Bytes) (structs : List Bytes) : Bytes :=
  lePut 1 (leAt req 6 1 &&& 1) ++ lePut 1 (leAt req 7 1 &&& 2) ++ lePut 4 4 ++ lePut 4 (leAt req 8 4 &&& 0x80) ++
    lePut 4 (leAt req 12 4 &&& 0x2) ++ zeros 16 ++ (structs.map (algStruct via)).flatten

/-- The response CERTIFICATE to a request for a portion of the chain, or for its length. -/
def Claims.certificatePart (b : Block) (req : Bytes) : Bytes :=
  let chain := spdmChain b
  let off := leAt req 4 2
  let n := if bit (leAt req 3 1) 0 then 0 else min (leAt req 6 2) (min (chain.length - off) 4088)
  let rest := if bit (leAt req 3 1) 0 then chain.length else chain.length - off - n
  spdmHead 0x02 0 0 ++ lePut 2 n ++ lePut 2 rest ++ (chain.drop off).take n

/-- In their turn (R179): GET_VERSION in the clear answers 1.3 and starts the connection anew, over DOE ending its sessions; GET_CAPABILITIES after it and
NEGOTIATE_ALGORITHMS after that answer and extend the transcript; GET_DIGESTS and GET_CERTIFICATE of slot 0 then give the chain's digest and its portions. A
request in the wrong phase gets UnexpectedRequest, a code that the path lacks UnsupportedRequest (inside a session a TDISP type that is not served a
TDISP error), and a record that does not open ends its session with DecryptError in the clear. The message layouts are PRESUMED (log entry 18). -/
def Claims.SpdmConnects : Prop :=
  ∀ (s : State) (via : SpdmVia) (wire req : Bytes), let b := tookRecord via s.blk
    let c := connOf b via
    (Claims.SpdmTurn s.blk 0x84 via wire req → inClear via = true → let rsp : Bytes := [0x10, 0x04, 0, 0, 0, 1, 0x00, 0x13]
      let t := onConn via (fun _ => { SpdmConn.reset with phase := .version, msgA := req ++ rsp }) b
      exec (.getVersion via wire) s = .next { s with
        blk := spdmSend via rsp (if via.isMctp then t else t.onRcd (fun r => { r with sessions := [] })) }) ∧
    (Claims.SpdmTurn s.blk 0xE1 via wire req → inClear via = true →
      (c.phase ≠ .version → exec (.getCapabilities via wire) s = .next { s with blk := spdmSend via (spdmError errUnexpected 0) b }) ∧
      (c.phase = .version → 20 ≤ req.length → 42 ≤ leAt req 12 4 → leAt req 12 4 ≤ leAt req 16 4 →
        let rsp := spdmHead 0x61 0 0 ++ [0, Config.ctExponent, 0, 0] ++ lePut 4 (0x16 + if via.isMctp then 0 else 0x2C0) ++ lePut 4 4096 ++ lePut 4 4096
        exec (.getCapabilities via wire) s = .next { s with
          blk := spdmSend via rsp (onConn via (fun c => { c with phase := .capabilities, msgA := c.msgA ++ req ++ rsp }) b) })) ∧
    (Claims.SpdmTurn s.blk 0xE3 via wire req → inClear via = true → c.phase = .capabilities → 32 ≤ req.length → leAt req 4 2 = req.length →
      let structs := algStructs (leAt req 2 1) (req.drop (32 + 4 * (leAt req 28 1 + leAt req 29 1)))
      structs.length = leAt req 2 1 → let body := Claims.algorithms via req structs
      let rsp := spdmHead 0x63 (leAt req 2 1) 0 ++ lePut 2 (6 + body.length) ++ body
      exec (.negotiateAlgorithms via wire) s = .next { s with
        blk := spdmSend via rsp (onConn via (fun c => { c with phase := .ready, msgA := c.msgA ++ req ++ rsp }) b) }) ∧
    (Claims.SpdmTurn s.blk 0x81 via wire req → spdmReady b via = true → let rsp := spdmHead 0x01 1 1 ++ sha384 (spdmChain b)
      exec (.getDigests via wire) s = .next { s with blk := spdmSend via rsp (Claims.notedB via req rsp b) }) ∧
    (Claims.SpdmTurn s.blk 0x82 via wire req → spdmReady b via = true → 8 ≤ req.length → leAt req 2 1 % 16 = 0 →
      (leAt req 4 2 < (spdmChain b).length → let rsp := Claims.certificatePart b req
        exec (.getCertificate via wire) s = .next { s with blk := spdmSend via rsp (Claims.notedB via req rsp b) }) ∧
      ((spdmChain b).length ≤ leAt req 4 2 → exec (.getCertificate via wire) s = .next { s with blk := spdmSend via (spdmError errInvalid 0) b })) ∧
    (∀ code, Claims.SpdmTurn s.blk code via wire req → (if via.isMctp then spdmBase else spdmBase ++ spdmMore).contains code = false →
      (sessionUp s.blk via = false ∨ tdispOf req = none →
        exec (.spdmUnsupportedRequest via wire) s = .next { s with blk := spdmSend via (spdmError errUnsupported code) b }) ∧
      (∀ m, sessionUp s.blk via = true → tdispOf req = some m → tdispHandler (leAt m 1 1) = none →
        exec (.spdmUnsupportedRequest via wire) s = .next { s with blk := spdmSend via (tdispWrap (tdispError tdUnsupported m)) b })) ∧
    (∀ sid, spdmPath s.blk (.session sid) = true → spdmOpen s.blk (.session sid) wire = none →
      exec (.spdmUnsupportedRequest (.session sid) wire) s = .next { s with
        blk := spdmSend .doe (spdmError errDecrypt 0) (s.blk.onRcd (fun r => { r with sessions := r.sessions.filter (fun x => x.sid != sid) })) })

/-- CHALLENGE (R179) answers the chain's digest, a nonce, a measurement summary and a signature over the transcript; GET_MEASUREMENTS (R180) the blocks asked
for, signed when asked, and Busy before the first record (R181). KEY_EXCHANGE (R195) over DOE, with fewer than four sessions, adds a session that is not up;
FINISH with the right proof brings it up, its data keys to follow the response, with a wrong one ends it; END_SESSION ends it. -/
def Claims.SpdmAttestsAndSecures : Prop :=
  ∀ (s : State) (via : SpdmVia) (wire req : Bytes), let b := tookRecord via s.blk
    let c := connOf b via
    let d := draw1 32 b
    (Claims.SpdmTurn s.blk 0x83 via wire req → inClear via = true → c.phase = .ready → 44 ≤ req.length → leAt req 2 1 = 0 →
      summaryKind (leAt req 3 1) = true →
      ((newestRecord b).isNone = true → exec (.challenge via wire) s = .next { s with blk := spdmSend via (spdmError errBusy 0) b }) ∧
      ((newestRecord b).isNone = false → Claims.CanSign b → let front := Claims.challengeFront d.2 d.1 req
        let g := spdmSign "responder-challenge_auth signing" (c.msgA ++ c.msgB ++ req ++ front) d.2
        exec (.challenge via wire) s = .next { s with
          blk := spdmSend via (front ++ g.1) (onConn via (fun c => { c with msgB := [], msgL := [] }) g.2) })) ∧
    (Claims.SpdmTurn s.blk 0xE0 via wire req → spdmReady b via = true → let op := leAt req 3 1
      (op = 0 ∨ op = 255 ∨ (measureBlocks b).any (fun x => x.1 == op) = true) → (newestRecord b).isNone = false → Claims.CanSign b →
      (bit (leAt req 2 1) 0 = true → 45 ≤ req.length → leAt req 36 1 % 16 = 0 → let front := Claims.measuredFront b d.1 req (slice req 37 8)
        let g := spdmSign "responder-measurements signing" (c.msgA ++ c.msgL ++ req ++ front) d.2
        exec (.getMeasurements via wire) s = .next { s with blk := spdmSend via (front ++ g.1) (onConn via (fun c => { c with msgL := [] }) g.2) }) ∧
      (bit (leAt req 2 1) 0 = false → 12 ≤ req.length → let front := Claims.measuredFront b d.1 req (slice req 4 8)
        exec (.getMeasurements via wire) s = .next { s with
          blk := spdmSend via front (onConn via (fun c => { c with msgL := c.msgL ++ req ++ front }) d.2) })) ∧
    (Claims.SpdmTurn s.blk 0xE4 .doe wire req → s.blk.rcd.doe.phase = .ready → 138 + leAt req 136 2 ≤ req.length → leAt req 3 1 = 0 →
      summaryKind (leAt req 2 1) = true → s.blk.rcd.sessions.length < 4 → Claims.CanSign s.blk →
      (pkValid 0x02 (0x04 :: slice req 40 96) = false →
        exec (.keyExchange .doe wire) s = .next { s with blk := spdmSend .doe (spdmError errInvalid 0) s.blk }) ∧
      (pkValid 0x02 (0x04 :: slice req 40 96) = true → ∃ (t : Block) (rsp : Bytes) (x : SpdmSession),
        exec (.keyExchange .doe wire) s = .next { s with blk := spdmSend .doe rsp t } ∧ rsp.take 4 = spdmHead 0x64 0 0 ∧ x.up = false ∧
          x.sid = leAt req 4 2 + 65536 * (s.blk.rcd.nextSid % 65536) ∧ t.rcd.sessions = s.blk.rcd.sessions ++ [x])) ∧
    (∀ (sid : Nat) (x : SpdmSession), via = .session sid → spdmSession b sid = some x →
      (Claims.SpdmTurn s.blk 0xE5 via wire req → x.up = false → req.length = 52 → leAt req 2 1 = 0 →
        let good := slice req 4 48 = verifyData (x.secret.take 48) "req hs data" (x.secret.drop 48) (x.trans ++ req.take 4)
        let rsp := spdmHead 0x65 0 0
        (good → exec (.finish via wire) s = .next { s with blk := spdmSend via rsp (onSession sid
          (fun y => { y with up := true, next := some (dataKeys (y.secret.take 48) (y.trans ++ req ++ rsp)) }) b) }) ∧
        (¬ good → exec (.finish via wire) s = .next { s with
          blk := spdmSend via (spdmError errDecrypt 0) (onSession sid (fun y => { y with ending := true }) b) })) ∧
      (Claims.SpdmTurn s.blk 0xEC via wire req → x.up = true → exec (.endSession via wire) s = .next { s with
        blk := spdmSend via (spdmHead 0x6C 0 0) (onSession sid (fun y => { y with ending := true }) b) }))

/-- SPDM connections, certificates, measurements and secured sessions. -/
def Obligations.SpdmResponder : Prop := Claims.SpdmConnects ∧ Claims.SpdmAttestsAndSecures

/-- A TDISP request `m` of a type, in a record that opens, of a session that is up, for an enabled VF. -/
def Claims.TdispTurn (b : Block) (kind sid : Nat) (record m : Bytes) : Prop :=
  spdmPath b (.session sid) = true ∧ sessionUp b (.session sid) = true ∧ (spdmOpen b (.session sid) record).bind tdispOf = some m ∧ 16 ≤ m.length ∧
    leAt m 1 1 = kind ∧ (tookRecord (.session sid) b).run.state ≠ .frozen ∧ spdmRuns (tookRecord (.session sid) b) = true ∧
    (connOf (tookRecord (.session sid) b) (.session sid)).resynch = false ∧ leAt m 0 1 / 16 = 1 ∧
    vfEnabled (tookRecord (.session sid) b) (tdispFn m) = true

/-- A TDISP response leaves in its session. -/
def Claims.tdispSent (sid : Nat) (rsp : Bytes) (b : Block) : Block := spdmSend (.session sid) (tdispWrap rsp) b

/-- In their turn (R195, R196): the version, the capabilities, the state and, of a locked or running TDI, portions of its report are answered. LOCK of an
unlocked VF with Bus Master Enable set locks it and gives a nonce; START with that nonce sets RUN, with another answers InvalidNonce; STOP ends the
VF's queues and unlocks it. A request that the state does not allow answers InvalidInterfaceState and changes no TDI. Layouts are PRESUMED (log entry 18). -/
def Obligations.TdispLocksAndRuns : Prop :=
  ∀ (s : State) (sid : Nat) (record m : Bytes), let b := tookRecord (.session sid) s.blk
    let v := tdispFn m
    let tdi := (fnOf b v).tdi
    (Claims.TdispTurn s.blk 0x81 sid record m →
      exec (.getTdispVersion sid record) s = .next { s with blk := Claims.tdispSent sid (tdispHead 0x01 m ++ [1, 0x10]) b }) ∧
    (Claims.TdispTurn s.blk 0x82 sid record m → 20 ≤ m.length → exec (.getTdispCapabilities sid record) s = .next { s with
      blk := Claims.tdispSent sid (tdispHead 0x02 m ++ zeros 4 ++ lePut 16 0xFE ++ zeros 2 ++ zeros 3 ++ [Config.devAddrWidth, 1, 1]) b }) ∧
    (Claims.TdispTurn s.blk 0x83 sid record m → 36 ≤ m.length → leAt m 16 2 = 0 →
      (tdi ≠ .configUnlocked →
        exec (.lockInterfaceRequest sid record) s = .next { s with blk := Claims.tdispSent sid (tdispError tdInvalidState m) b }) ∧
      (tdi = .configUnlocked → (fnOf b v).bme = false →
        exec (.lockInterfaceRequest sid record) s = .next { s with blk := Claims.tdispSent sid (tdispError tdInvalidConfig m) b }) ∧
      (tdi = .configUnlocked → (fnOf b v).bme = true → let d := draw1 32 b
        exec (.lockInterfaceRequest sid record) s = .next { s with
          blk := Claims.tdispSent sid (tdispHead 0x03 m ++ d.1) ((onFn d.2 v (fun f => { f with tdi := .configLocked })).onRcd
            (fun r => { r with nonces := tset r.nonces v (d.1 ++ slice m 20 8) })) })) ∧
    (Claims.TdispTurn s.blk 0x84 sid record m → 20 ≤ m.length → tdi = .configLocked ∨ tdi = .run → leAt m 16 2 < (interfaceReport b v).length →
      let rep := interfaceReport b v
      let off := leAt m 16 2
      let n := min (leAt m 18 2) (rep.length - off)
      exec (.getDeviceInterfaceReport sid record) s = .next { s with
        blk := Claims.tdispSent sid (tdispHead 0x04 m ++ lePut 2 n ++ lePut 2 (rep.length - off - n) ++ (rep.drop off).take n) b }) ∧
    (Claims.TdispTurn s.blk 0x85 sid record m →
      exec (.getDeviceInterfaceState sid record) s = .next { s with blk := Claims.tdispSent sid (tdispHead 0x05 m ++ lePut 1 (tdiCode tdi)) b }) ∧
    (Claims.TdispTurn s.blk 0x86 sid record m → 48 ≤ m.length → let own := (tget b.rcd.nonces v).map (·.take 32) = some (slice m 16 32)
      (tdi ≠ .configLocked →
        exec (.startInterfaceRequest sid record) s = .next { s with blk := Claims.tdispSent sid (tdispError tdInvalidState m) b }) ∧
      (tdi = .configLocked → ¬ own →
        exec (.startInterfaceRequest sid record) s = .next { s with blk := Claims.tdispSent sid (tdispError tdInvalidNonce m) b }) ∧
      (tdi = .configLocked → own → exec (.startInterfaceRequest sid record) s = .next { s with
        blk := Claims.tdispSent sid (tdispHead 0x06 m) (onFn b v (fun f => { f with tdi := .run })) })) ∧
    (Claims.TdispTurn s.blk 0x87 sid record m →
      (tdi = .configUnlocked →
        exec (.stopInterfaceRequest sid record) s = .next { s with blk := Claims.tdispSent sid (tdispHead 0x07 m) b }) ∧
      (tdi ≠ .configUnlocked → exec (.stopInterfaceRequest sid record) s = .next { s with
        blk := Claims.tdispSent sid (tdispHead 0x07 m) (settleAll (tdiUnlock v (endQueues (fun f => f == v) b))) }))

/-! ### Watchdogs (chapter 18) -/

/-- A bite, in one instance: the counts, the cause and the time of record 1 committed first, then the event, the healthy run begun anew, the hard timer in trap mode. -/
def Claims.bitten (c : WdgCause) (b : Block) : WdgAction × Block :=
  let t := if wdgTrap b c.isP then (WdgAction.trap, wdgRec b) else ladderStep b c.isP (wdgRec b)
  let cause := causeWord c t.1
  let r := wdgPut (if c.isP then 29 else 23) 6 b.time.secs (wdgPut (if c.isP then 15 else 11) 4 cause
    (wdgPut (if c.isP then 7 else 3) 4 (sat32 (wdgResets b c.isP + 1)) t.2))
  let e := event (0x300 + b2n c.isP) (cause / 65536) (commitAlone (commitRec 1 r) b)
  let e := e.onWdg (fun w => { w with
    runStart := w.runStart.map (fun _ => e.time.secs), d := { w.d with seen := 0 }, p := { w.p with seen := 0 } })
  (t.1, if wdgTrap b c.isP then onWdgAt c.isP (fun x => { x with hard := some e.time.usec }) e else e)

/-- One cause of the moment is resolved alone: the instance bites and its action is carried out. -/
def Claims.resolved (c : WdgCause) (b : Block) : Block :=
  let r := Claims.bitten c (b.onWdg (fun w => { w with causes := [] }))
  wdgActs [r.1] r.2

/-- A cause that is the only one of its moment, outside FROZEN, no hard timer running, resolves so. -/
def Claims.Alone (b : Block) (isP : Bool) : Prop :=
  b.wdg.causes = [] ∧ b.run.state ≠ .frozen ∧ (wdgAt b isP).hard = none

/-- A check-in that WDG_P takes from the host, or WDG_D from the keeper, while the instance counts. -/
def Claims.CheckinReaches (b : Block) (isP : Bool) (v : Word) : Prop :=
  wdgCounts b isP = true ∧ (isP = true → RegReach b 0xFFFF0000 v) ∧ (isP = false → keeperRuns b = true ∧ b.wdg.d.await = none)

/-- Every slot of the instance was done in the period. -/
def Claims.allDone (x : WdgInst) : Prop := wdgSlots x - (wdgSlots x &&& x.done) = 0

/-- The action that a pulse's end owes. -/
def Claims.owed (as : List WdgAction) (b : Block) : Block := wdgActs as (b.onWdg (fun w => { w with owed := [] }))

/-- WDG_CFG_WRITE (R417) of the running keeper arms an instance. WDG_P_HOSTCFG_WRITE and LEG_WDG_CFG_WRITE (R419, R485), the first after host release, end the boot phase. WDG_CHECKIN and LEG_WDG_KICK (R421 to R424): in the window the slot of the key is done, a second time counted; before it,
or with no slot's key, the instance bites. WDG_WINDOW_OPEN opens the window. -/
def Obligations.WatchdogsArmedAndFed : Prop :=
  (∀ (s : State) (isP : Bool) (v : Word), keeperRuns s.blk = true → (wdgAt s.blk isP).armed = false →
    exec (.wdgCfgWrite isP v) s = .next { s with
      blk := wdgBegin isP (onWdgAt isP (fun x => { x with cfg := wdgTaken v.toNat, armed := true, boot := isP }) s.blk) }) ∧
  (∀ (s : State) (v : Word), let set (n : Nat) : Block := wdgBegin true (onWdgAt true (fun x => { x with hostCfg := wdgTaken n, hostSet := true, boot := false }) s.blk)
    s.blk.wdg.p.armed = true → hostInReset s.blk = false → s.blk.wdg.p.hostSet = false →
    (RegReach s.blk 0 v → exec (.wdgPHostcfgWrite v) s = .next { s with blk := set v.toNat }) ∧
    (RegReach s.blk 0xFFFF0000 v → exec (.legWdgCfgWrite v) s = .next { s with blk := set (0x10000 + v.toNat % 65536) })) ∧
  (∀ (s : State) (isP : Bool) (v : Word) (i : Nat), let x := wdgAt s.blk isP
    let more := x.window = true ∧ keySlot s.blk isP (v.toNat % 65536) = some i
    let t : Block := if bit x.done i then event 0x302 (16 * b2n isP + i) (onWdgAt isP (fun x => { x with dups := sat32 (x.dups + 1) }) s.blk)
      else onWdgAt isP (fun x => { x with done := x.done ||| 2 ^ i, seen := x.seen ||| 2 ^ i }) s.blk
    Claims.CheckinReaches s.blk isP v → more → exec (.wdgCheckin isP v .none true) s = .next { s with blk := t } ∧
      (isP = true → exec (.legWdgKick v .none true) s = .next { s with blk := t })) ∧
  (∀ (s : State) (isP : Bool) (v : Word), Claims.CheckinReaches s.blk isP v → Claims.Alone s.blk isP →
    (keySlot s.blk isP (v.toNat % 65536) = none → exec (.wdgCheckin isP v .none false) s = .next { s with
      blk := Claims.resolved { isP := isP, kind := 2, slot := 0, value := v.toNat % 65536 } s.blk }) ∧
    (∀ i, keySlot s.blk isP (v.toNat % 65536) = some i → (wdgAt s.blk isP).window = false → exec (.wdgCheckin isP v .none false) s = .next { s with
      blk := Claims.resolved { isP := isP, kind := 1, slot := i, value := 0 } s.blk })) ∧
  (∀ (s : State) (isP : Bool), wdgCounts s.blk isP = true →
    exec (.wdgWindowOpen isP) s = .next { s with blk := onWdgAt isP (fun x => { x with window := true }) s.blk })

/-- WDG_PERIOD_END (R422) of a counting instance begins the next period, and bites when a slot was missing. KEEPER_RESTART_PERIOD_TIMEOUT (R428) begins WDG_D's period. HOST_RESET_PULSE_END and POWER_CYCLE_PULSE_END (R427, R434) end the pulse and carry out what it owes, the latter with its
chip restart; WDG_HARD_TIMEOUT (R425) resets the device. HEALTHY_RUN_COMPLETE (R429) clears C and RUNG, sets HEALTHY and advances the anti-rollback counters. -/
def Obligations.WatchdogPeriodsEnd : Prop :=
  (∀ (s : State) (isP : Bool), let b := wdgBegin isP s.blk
    let missing := wdgSlots (wdgAt s.blk isP) - (wdgSlots (wdgAt s.blk isP) &&& (wdgAt s.blk isP).done)
    wdgCounts s.blk isP = true → Claims.Alone s.blk isP →
    (missing = 0 → exec (.wdgPeriodEnd isP true) s = .next { s with blk := b }) ∧
    (missing ≠ 0 → exec (.wdgPeriodEnd isP false) s = .next { s with
      blk := Claims.resolved { isP := isP, kind := 3, slot := 0, value := missing } b })) ∧
  (∀ s : State, s.blk.wdg.d.await.isSome = true → exec .keeperRestartPeriodTimeout s = .next { s with blk := wdgBegin false s.blk }) ∧
  (∀ s : State, s.blk.pins.hostPulse = true → let b := onHostReset (fun p => { p with hostPulse := false }) s.blk
    exec .hostResetPulseEnd s = .next { s with blk := if b.pins.platCycle then b else Claims.owed b.wdg.owed b }) ∧
  (∀ s : State, s.blk.pins.platCycle = true → s.blk.pins.hostPulse = false →
    let b := (s.blk.onPins (fun p => { p with platCycle := false })).onWdg (fun w => { w with restartDue := false,
                                                                                              owed := if w.restartDue then w.owed ++ [.chipRestart] else w.owed })
    exec .powerCyclePulseEnd s = .next { s with blk := Claims.owed b.wdg.owed b }) ∧
  (∀ (s : State) (isP : Bool), (wdgAt s.blk isP).hard.isSome = true → exec (.wdgHardTimeout isP) s = .next { s with blk := chipReset 3 s.blk }) ∧
  (∀ (s : State) (bad : List Nat), healthyDue s.blk = true → let b := commitAlone (commitRec 1 (wdgPut 0 1 0 (wdgPut 1 1 0 (wdgRec s.blk)))) s.blk
    exec (.healthyRunComplete bad) s = .next { s with blk := advanceRollback bad (b.onWdg (fun w => { w with
      healthy := true, runStart := some b.time.secs, d := { w.d with seen := 0 }, p := { w.p with seen := 0 } })) })

/-! ### Tamper and Frost (chapter 17) -/

/-- The bytes of FROST_STATUS. -/
def Claims.frostBytes (b : Block) : Bytes :=
  0 :: (lePut 4 (tmpCause b) ++ lePut 4 b.tmp.lastCause ++ lePut 8 b.tmp.frostTime ++ lePut 4 b.tmp.frostCount ++ b.tmp.digest)

/-- FROST_NONCE: a fresh nonce, good for 600 s. -/
def Claims.nonceAnswer (b : Block) : Bytes × Block :=
  (0 :: (draw1 32 b).1, (draw1 32 b).2.onTmp (fun t => { t with nonce := some ((draw1 32 b).1, b.time.secs + 600) }))

/-- FROST_RELEASE with a well-formed block: the nonce is consumed; expired 3, another authority 4, too few officers 5, else the device is released. -/
def Claims.releaseAnswer (n : Bytes) (expiry : Nat) (p : Bytes) (b : Block) : Bytes × Block :=
  let t := b.onTmp (fun t => { t with nonce := none })
  if expiry ≤ b.time.secs then ([1, 3], t) else if releaseMatches t p = false then ([1, 4], t)
  else if leAt p 4 1 ≠ 0 ∧ (releaseApprovals t n p).length < leAt p 15 1 then ([1, 5], t) else ([0], releaseFrost t)

/-- A release command outside FROZEN. -/
def Claims.notFrozen (b : Block) : Bytes × Block := ([1, 1], b)

/-- TAMPER_TRIGGER (R398, R404), from PROVISION on and standing, latches its bit and time and is Frost; BBRAM is blank. TMP_CFG_APPLY (R400) with APPLY in PROVISION takes TMP_CFG_REQ. In FROZEN FROST_STATUS reports, FROST_NONCE gives a nonce for 600 s, FROST_RELEASE (R411 to R413) consumes it and judges the block;
elsewhere they are refused, reason 1. FROST_NONCE_EXPIRY drops the nonce. FROST_RELEASE_RESET resets, cause 4, a device that was released. -/
def Obligations.FrostAndRelease : Prop :=
  (∀ (s : State) (t : Nat), 2 ≤ s.blk.run.lcs → triggerStands s.blk t = true →
    exec (.tamperTrigger t) s = .next { s with blk := frost t (if t = 10 then s.blk.onTmp (fun x => { x with cfg := tmpCfgDefault }) else s.blk) }) ∧
  (∀ (s : State) (v : Word), RegReach s.blk 0xFFFFFFFE v → bit v.toNat 0 = true → s.blk.run.lcs = 2 → keeperRuns s.blk = true →
    exec (.tmpCfgApply v) s = .next { s with blk := s.blk.onTmp (fun t => { t with cfg := t.cfgReq }) }) ∧
  (∀ (s : State) (body : Bytes) (tag : Nat) (p : Bytes), s.blk.run.state = .frozen →
    (Claims.Served s.blk body 0x20 tag p → p = [] →
      exec (.frostStatus (.frame body)) s = .next { s with blk := Claims.byFrame 0x20 tag (Claims.frostBytes s.blk, intoFramed s.blk) }) ∧
    (Claims.Served s.blk body 0x21 tag p → p = [] →
      exec (.frostNonce (.frame body)) s = .next { s with blk := Claims.byFrame 0x21 tag (Claims.nonceAnswer (intoFramed s.blk)) }) ∧
    (∀ (n : Bytes) (expiry : Nat), Claims.Served s.blk body 0x22 tag p → releaseOk p = true → s.blk.tmp.nonce = some (n, expiry) →
      exec (.frostRelease (.frame body)) s = .next { s with blk := Claims.byFrame 0x22 tag (Claims.releaseAnswer n expiry p (intoFramed s.blk)) })) ∧
  (∀ (s : State) (target : Nat) (p : Bytes), s.blk.run.state = .frozen → Claims.ServedMctp s.blk target →
    (p = [] → exec (.frostStatus (.mctp target p)) s = .next { s with blk := Claims.byMctp 0x20 (Claims.frostBytes s.blk, s.blk) }) ∧
    (p = [] → exec (.frostNonce (.mctp target p)) s = .next { s with blk := Claims.byMctp 0x21 (Claims.nonceAnswer s.blk) }) ∧
    (∀ (n : Bytes) (expiry : Nat), releaseOk p = true → s.blk.tmp.nonce = some (n, expiry) →
      exec (.frostRelease (.mctp target p)) s = .next { s with blk := Claims.byMctp 0x22 (Claims.releaseAnswer n expiry p s.blk) })) ∧
  (∀ (s : State) (target : Nat) (p : Bytes), s.blk.run.state ≠ .frozen → Claims.ServedMctp s.blk target →
    exec (.frostStatus (.mctp target p)) s = .next { s with blk := Claims.byMctp 0x20 (Claims.notFrozen s.blk) } ∧
    exec (.frostNonce (.mctp target p)) s = .next { s with blk := Claims.byMctp 0x21 (Claims.notFrozen s.blk) } ∧
    exec (.frostRelease (.mctp target p)) s = .next { s with blk := Claims.byMctp 0x22 (Claims.notFrozen s.blk) }) ∧
  (∀ (s : State) (body : Bytes) (tag : Nat) (p : Bytes), s.blk.run.state ≠ .frozen →
    (Claims.Served s.blk body 0x20 tag p →
      exec (.frostStatus (.frame body)) s = .next { s with blk := Claims.byFrame 0x20 tag (Claims.notFrozen (intoFramed s.blk)) }) ∧
    (Claims.Served s.blk body 0x21 tag p →
      exec (.frostNonce (.frame body)) s = .next { s with blk := Claims.byFrame 0x21 tag (Claims.notFrozen (intoFramed s.blk)) }) ∧
    (Claims.Served s.blk body 0x22 tag p →
      exec (.frostRelease (.frame body)) s = .next { s with blk := Claims.byFrame 0x22 tag (Claims.notFrozen (intoFramed s.blk)) })) ∧
  (∀ s : State, exec .frostNonceExpiry s = .next { s with blk := s.blk.onTmp (fun t => { t with nonce := none }) } ∧
    (s.blk.tmp.releasing = true → exec .frostReleaseReset s = .next { s with blk := chipReset 4 s.blk }))

/-! ### The basic level (chapter 21) -/

/-- The write reaches sub-window `w`, present and held, with no reserved bit: its lease is renewed. -/
def Claims.Held (b : Block) (w resv : Nat) (v : Word) : Prop :=
  RegReach b resv v ∧ windowAbsent b w = false ∧ (lockOf b w).holder.isSome = true

/-- A read reaches PF0's registers outside FROZEN. -/
def Claims.Reads (b : Block) : Prop := (fnOf b 0).d3hot = false ∧ b.run.state ≠ .frozen

/-- The block with the lease of a held sub-window renewed. -/
def Claims.leased (w : Nat) (b : Block) : Block := onLock w (fun l => { l with renewed := b.time.usec }) b

/-- The lease of the session sub-window renewed and OPCODE of LEG_SC_CTRL taken. -/
def Claims.opcodeIn (v : Nat) (b : Block) : Block := (Claims.leased 1 b).onLeg (fun l => { l with regs := { l.regs with opcode := bits v 7 0 } })

/-- What ends the open message of the session sub-window early (R483). -/
def Claims.cut (status detail : Nat) (b : Block) : Block := settleAll (legAbort status detail b)

/-- LEG_LOCK (R474) of a present sub-window: a free lock, or one held with this token, is held with it and its lease begins; another token, 0 or FFFFFFFF sets BUSY. LEG_UNLOCK with the holder's token ends what the sub-window runs and frees it, another sets BUSY. LEASE_EXPIRY (R477) of a held one
ends it, frees it, sets EXPIRED and reports event 0x480. -/
def Claims.BasicLocks : Prop :=
  (∀ (s : State) (w : Nat) (v : Word), RegReach s.blk 0 v → windowAbsent s.blk w = false → let l := lockOf s.blk w
    (v ≠ 0 → v ≠ 0xFFFFFFFF → l.holder = none ∨ l.holder = some v →
      exec (.legLock w v) s = .next { s with blk := onLock w (fun l => { l with holder := some v, renewed := s.blk.time.usec }) s.blk }) ∧
    (v = 0 ∨ v = 0xFFFFFFFF ∨ (l.holder ≠ none ∧ l.holder ≠ some v) →
      exec (.legLock w v) s = .next { s with blk := onLock w (fun l => { l with busy := true }) s.blk }) ∧
    (l.holder = some v → exec (.legUnlock w v) s = .next { s with blk := (settleAll (onLock w (fun l => { l with holder := none })
      (endWindow w stUnitReset (0x0200 + s.blk.leg.core.getD 0) s.blk))) }) ∧
    (l.holder ≠ some v → exec (.legUnlock w v) s = .next { s with blk := onLock w (fun l => { l with busy := true }) s.blk })) ∧
  (∀ (s : State) (w : Nat), (lockOf s.blk w).holder.isSome = true → exec (.leaseExpiry w) s = .next { s with
    blk := settleAll (event 0x480 w (onLock w (fun l => { l with holder := none, expired := true }) (endWindow w stMessageAbandoned 0 s.blk))) })

/-- BASIC_CORE_RESERVED (R479): the highest core that can be had is reserved for a held session lock. LEG_SC_START (R480) with the lock held and no message takes OPCODE and starts. LEG_SC_ABORT (R483) ends the message with UNIT_RESET. LEG_SC_DATA_IN (R481) appends a word while there is room, and ends the message when there is none.
LEG_SC_DATA_OUT gives the next word. Without the lock a write changes only NOT_HELD. -/
def Claims.BasicSessionCipher : Prop :=
  (∀ (s : State) (n : Nat) (c : CoreU), s.blk.leg.session.holder.isSome = true → s.blk.leg.core = none → basicCore s.blk = some n →
    s.blk.sce.cores[n]? = some c → c.job = none → exec .basicCoreReserved s = .next { s with blk := (legStart
      ((onCore n (fun u => { u with state := if c.state = .idle then .basic else .selfTest, key := none }) s.blk).onLeg (fun l => { l with core := some n }))) }) ∧
  (∀ (s : State) (v : Word), Claims.Held s.blk 1 0x5FFFFF00 v → s.blk.leg.busy = false → s.blk.leg.startDue = false → bit v.toNat 29 = false →
    exec (.legScStart v) s = .next { s with blk := (legStart ((Claims.opcodeIn (v.toNat ||| 2 ^ 31) s.blk).onLeg (fun l => { l with
      msg := l.regs, startDue := true, done := false }))) }) ∧
  (∀ (s : State) (v : Word), Claims.Held s.blk 1 0x5FFFFF00 v → s.blk.leg.busy = true → bit v.toNat 31 = false →
    exec (.legScAbort v) s = .next { s with blk := Claims.cut stUnitReset (0x0200 + s.blk.leg.core.getD 0) (Claims.opcodeIn (v.toNat ||| 2 ^ 29) s.blk) }) ∧
  (∀ (s : State) (v : Word), let l := s.blk.leg
    let total := l.msg.aadLen + l.msg.len
    Claims.Held s.blk 1 0 v → l.busy = true →
    (l.input.length < total → legSpace l ≠ 0 → exec (.legScDataInWrite v) s = .next { s with blk := (settleAll (legRun
      ((Claims.leased 1 s.blk).onLeg (fun l => { l with input := l.input ++ lePut (min 4 (total - l.input.length)) v.toNat })))) }) ∧
    (total ≤ l.input.length ∨ legSpace l = 0 → exec (.legScDataInWrite v) s = .next { s with
      blk := Claims.cut stLengthMismatch 0 (Claims.leased 1 s.blk) })) ∧
  (∀ s : State, let l := s.blk.leg
    Claims.Reads s.blk → windowAbsent s.blk 1 = false → (lockOf s.blk 1).holder.isSome = true →
    (l.busy = true → l.taken + 4 ≤ l.given.length → exec .legScDataOutRead s = .next { s with blk := (reply 0 .success (lePut 4 (leAt l.given l.taken 4))
      (legRun ((Claims.leased 1 s.blk).onLeg (fun l => { l with taken := l.taken + 4 })))) }) ∧
    (l.given.length ≤ l.taken → exec .legScDataOutRead s = .next { s with blk := reply 0 .success (lePut 4 0) (Claims.leased 1 s.blk) })) ∧
  (∀ (s : State) (v : Word), RegReach s.blk 0 v → windowAbsent s.blk 1 = false → (lockOf s.blk 1).holder = none →
    exec (.legScDataInWrite v) s = .next { s with blk := onLock 1 (fun l => { l with notHeld := true }) s.blk } ∧
    (v.toNat &&& 0x5FFFFF00 = 0 → exec (.legScStart v) s = .next { s with blk := onLock 1 (fun l => { l with notHeld := true }) s.blk }))

/-- The basic level: locks, and the session sub-window. -/
def Obligations.BasicLevel : Prop := Claims.BasicLocks ∧ Claims.BasicSessionCipher

/-- LEG_RNG_DATA_READ (R484) with the RNG lock held: while the source is READY the read returns the next 4 bytes of DRBG instance 0, which RNG_BYTES counts and which the instance, its counter advanced, gives to nobody else; while it is not, the read returns 0 and draws nothing. -/
def Obligations.BasicRandomWords : Prop :=
  ∀ s : State, Claims.Reads s.blk → s.blk.leg.rng.holder.isSome = true → let b := Claims.leased 2 s.blk
    let d := draw0 4 b
    (s.blk.rng.state = .ready → exec .legRngDataRead s = .next { s with
      blk := reply 0 .success (lePut 4 (leNat d.1)) (d.2.onRng (fun r => { r with bytes := (r.bytes + 4) % 2 ^ 64 })) }) ∧
    (s.blk.rng.state ≠ .ready → exec .legRngDataRead s = .next { s with blk := reply 0 .success (lePut 4 0) b })

/-! ### Registers, interrupts, the sideband port (chapters 01, 08, 22 and 23) -/

/-- A 32-bit write by a function to its BAR0. -/
def Claims.bar (fn off : Nat) (v : Word) : Instr := .registerWrite fn .bar0 off v ⟨0, none⟩

/-- A write of `v` at `off` of PF0's BAR0, with a reserved mask, does `f`. -/
def Claims.Writes (off resv : Nat) (f : Word → Block → Block) : Prop :=
  ∀ (s : State) (v : Word), RegReach s.blk resv v → exec (Claims.bar 0 off v) s = .next { s with blk := f v s.blk }

/-- A write of a read-only register changes nothing, or, with a reserved bit set, counts once (R13). -/
def Claims.Ignored (off resv : Nat) : Prop :=
  ∀ (s : State) (v : Word), fnEnabled s.blk 0 = true → (fnOf s.blk 0).d3hot = false → s.blk.run.state ≠ .frozen →
    exec (Claims.bar 0 off v) s = .next { s with blk := if v.toNat &&& resv = 0 then s.blk else rsvdWrite s.blk }

/-- A message is owed on PF0's vector 0 when some bit of a word is set. -/
def Claims.owedIf (bits_ : Nat) (b : Block) : Block := if bits_ = 0 then b else msixOwe 0 0 b

/-- REGISTER_WRITE with no reserved bit (R11): DEV_LINK_CTRL, VLT_CFG (at most 512), EVR_CTRL, EVR_RATE, EVR_CELL_SEL, TMP_CFG_REQ before PRODUCTION and the mailbox's address and CMD take the value; PWR_UNIT_STATUS and EVR_NOTICE clear the bits written 1. A read-only register ignores it, counted if a reserved bit is set (R13). DEV_IRQ_CAUSE and
DEV_IRQ_ENABLE (R509) owe a message when a cleared cause recurs or an enable rises over a cause. A _LO read latches its _HI (R450).
A 64-bit write is two of 32 bits, the lower first (R14). Bit 30 of the mailbox address counts as reserved (DESIGN CHOICE, log entry 19). -/
def Claims.RegistersWritten : Prop :=
  Claims.Writes 0x404 0xFFFFFFFE (fun v b => b.onLink (fun l => { l with writeCheck := bit v.toNat 0 })) ∧
  Claims.Writes 0x60004 0xFFFFFC00 (fun v b => settleAll (b.onVlt (fun x => { x with reserve := min 512 (v.toNat % 1024) }))) ∧
  Claims.Writes 0xD0004 0xFFFFF8F8 (fun v b => b.onEvr (fun e => { e with alertSev := bits v.toNat 10 8, noticeSev := bits v.toNat 2 0 })) ∧
  (∀ i < 8, Claims.Writes (0xD0010 + 4 * i) 0xFFFF0000 (fun v b => b.onEvr (fun e => { e with rates := e.rates.set i (v.toNat % 65536) }))) ∧
  Claims.Writes 0xD0040 0xFFFFFC00 (fun v b => b.onEvr (fun e => { e with sel := v.toNat % 1024 })) ∧
  Claims.Writes 0x40100 0x40000000 (fun v b => b.onFlt (fun f => { f with mbxAddr := v.toNat })) ∧
  Claims.Writes 0x40108 0xFFFFFFF0 (fun v b => b.onFlt (fun f => { f with mbxCmd := v.toNat % 16 })) ∧
  Claims.Writes 0xE0008 0xFC0 (fun v b => if 3 ≤ b.run.lcs then b else b.onTmp (fun t => { t with cfgReq := v })) ∧
  Claims.Writes 0x10014 0xFFFFFFE0 (fun v b => if bit v.toNat 4 then b.onPwr (fun p => { p with done := false }) else b) ∧
  Claims.Writes 0xD0000 0xFFE00000 (fun v b => b.onEvr (fun e => { e with notice := w1c e.notice (v.toNat % 256) 0 })) ∧
  (∀ p ∈ [(0x0, 0), (0x4, 0xFF000000), (0x10000, 0xFF0FFF), (0x20000, 0xFFFFFFF0), (0x30004, 0xFFFFFFFC), (0x50000, 0xFFFFFF80), (0xE0004, 0xFC0),
      (0xF0004, 0)], Claims.Ignored p.1 p.2) ∧
  (∀ (s : State) (v recur : Word), fnEnabled s.blk 0 = true → (fnOf s.blk 0).d3hot = false → v.toNat < 4096 →
    exec (.devIrqCauseWrite v recur) s = .next { s with blk := (Claims.owedIf (s.blk.dev.irqCause &&& v.toNat &&& recur.toNat &&& s.blk.dev.irqEnable)
      (s.blk.onDev (fun d => { d with irqCause := w1c d.irqCause v.toNat recur.toNat }))) }) ∧
  (∀ (s : State) (v : Word), RegReach s.blk 0xFFFFF000 v → exec (.devIrqEnableWrite v) s = .next { s with
    blk := Claims.owedIf (s.blk.dev.irqCause &&& (v.toNat - (v.toNat &&& s.blk.dev.irqEnable))) (s.blk.onDev (fun d => { d with irqEnable := v.toNat })) }) ∧
  (∀ s : State, (fnOf s.blk 0).d3hot = false → s.blk.run.state ≠ .frozen →
    exec (.latchingLoRead ⟨0, .bar0, 0xD0030, false⟩) s = .next { s with blk := (reply 0 .success (lePut 4 (s.blk.evr.seq % 2 ^ 32))
      (s.blk.onEvr (fun e => { e with seqHi := e.seq / 2 ^ 32 }))) }) ∧
  (∀ (s t : State) (fn off : Nat) (v v' r r' : Word), off % 8 = 0 → exec (.registerWrite fn .bar0 off v ⟨r, none⟩) s = .next t →
    exec (.registerWrite fn .bar0 off v ⟨r, some (v', r')⟩) s = exec (.registerWrite fn .bar0 (off + 4) v' ⟨r', none⟩) t)

/-- REGISTER_WRITE to configuration space of an enabled function: Bus Master Enable and the power state change as their own rows do; SR-IOV takes NumVFs while VF Enable is clear. MSIX_UNMASK (R193) clears a vector's mask and sends what was pending. DYNAMIC_ADDRESS_ASSIGNMENT (R521) in I3C mode gives a device without one its address. SMBUS_CLOCK_LOW_TIMEOUT
leaves the state. Register places are PRESUMED from PCI Express. -/
def Claims.ConfigurationAndSideband : Prop :=
  (∀ (s : State) (v : Word), exec (.registerWrite 0 .config 0x04 v ⟨0, none⟩) s =
    exec (if bit v.toNat 2 then .busMasterEnableSet 0 else .busMasterEnableClear 0)
      { s with blk := onFn s.blk 0 (fun f => { f with cmd := v.toNat &&& 0x542 }) }) ∧
  (∀ (s : State) (v : Word), (v.toNat % 4 = 3 → exec (.registerWrite 0 .config 0x44 v ⟨0, none⟩) s = exec (.d3hotEntry 0) s) ∧
    (v.toNat % 4 = 0 → exec (.registerWrite 0 .config 0x44 v ⟨0, none⟩) s = exec (.d0Entry 0) s)) ∧
  (∀ (s : State) (v : Word), s.blk.link.vfEnable = false → v.toNat % 65536 ≤ 255 → s.blk.link.numVfs = 0 →
    ∃ t, exec (.registerWrite 0 .config 0x170 v ⟨0, none⟩) s = .next t ∧ t.blk.link.numVfs = v.toNat % 65536) ∧
  (∀ (s : State) (fn vec : Nat), fnEnabled s.blk fn = true → (fnOf s.blk fn).d3hot = false → exec (.msixUnmask fn vec) s = .next { s with
    blk := msixRelease fn vec (onFn s.blk fn (fun f => { f with msix := tset f.msix vec { msixEntry f vec with mask := false } })) }) ∧
  (∀ (s : State) (setdasa : Bool) (target addr : Nat), mctpUp s.blk = true → bit s.blk.pins.straps 2 = true →
    (setdasa = true → target = staticAddress s.blk) → s.blk.sb.dynAddr = none →
    exec (.dynamicAddressAssignment setdasa target addr) s = .next { s with blk := s.blk.onSb (fun x => { x with dynAddr := some (addr % 128) }) }) ∧
  (∀ s : State, exec .smbusClockLowTimeout s = .next s)

/-- Registers and configuration space are written; interrupts and vectors; the sideband address. -/
def Obligations.RegistersAndConfiguration : Prop := Claims.RegistersWritten ∧ Claims.ConfigurationAndSideband

/-- PF0's BAR0 offsets that R502 leaves unimplemented. -/
def Claims.hole (off : Nat) : Prop :=
  (0x00100000 ≤ off ∧ off ≤ 0x00FFFFFF) ∨ (0x01200000 ≤ off ∧ off ≤ 0x01FFFFFF) ∨ (0x02008100 ≤ off ∧ off ≤ 0x02FFFFFF) ∨
    (0x03010000 ≤ off ∧ off ≤ 0x03FFFFFF)

/-- R502: an offset of PF0's 64 MiB BAR0 is unimplemented exactly in these four ranges. A request there, an aligned register write or any access, is answered as the unimplemented-range row of R201 (AER bits, Unsupported Request unless posted), and DEV_RSVD_WRITES does not move. -/
def Obligations.UnimplementedOffsets : Prop :=
  (∀ off < 0x4000000, implemented 0 off = false ↔ Claims.hole off) ∧
  (∀ (s : State) (off : Nat), Claims.hole off → let b := advise 0 aerUnsupported s.blk
    (fnOf b 0).aer.unsupported = true ∧
    exec (.unsupportedRequest (.unimplementedRange 0 off) false) s = .next { s with blk := reply 0 .unsupported [] b } ∧
    exec (.unsupportedRequest (.unimplementedRange 0 off) true) s = .next { s with blk := b } ∧
    (off % 4 = 0 → ∀ v : Word, exec (Claims.bar 0 off v) s = .next { s with blk := b }) ∧ b.dev = s.blk.dev ∧
      (reply 0 .unsupported [] b).dev.rsvdWrites = s.blk.dev.rsvdWrites)

/-- R438: the bin of 0 is 0; the bin of a v from 2^(b−1) up to 2^b is b, for b up to 30; every v of 2^30 or more is in bin 31. Folding an event into a cell counts the value in that bin. -/
def Obligations.BinsOfValues : Prop :=
  evBin 0 = 0 ∧ (∀ v b : Nat, 1 ≤ b → b ≤ 30 → 2 ^ (b - 1) ≤ v → v < 2 ^ b → evBin v = b) ∧ (∀ v : Nat, 2 ^ 30 ≤ v → evBin v = 31) ∧
    ∀ (c : EvCell) (v ts : Nat), tgetD 0 (foldInto c v ts).bins (evBin v) = sat32 (tgetD 0 c.bins (evBin v) + 1)

/-! ### The serial monitor (chapter 22) -/

/-- A served READ names 1 to 64 aligned words within 16 MiB, all in a window that the present server reads. -/
def Claims.readable (b : Block) (p : Bytes) (off n : Nat) : Prop :=
  (p = lePut 4 off ++ lePut 4 n ∨ (p = lePut 4 off ∧ n = 1)) ∧ 1 ≤ n ∧ n ≤ 64 ∧ off % 4 = 0 ∧ off + 4 * n ≤ 0x1000000 ∧
    (romServes b = true ∨ b.boot.katFail = true → ∀ i < n, romWindow (off + 4 * i) = true)

/-- The words of a READ, each with the effect of its read. -/
def Claims.readWords (off n : Nat) (b : Block) : Bytes × Block :=
  (List.range n).foldl (fun (r : Bytes × Block) i => ((r.1 ++ lePut 4 (monRead (off + 4 * i) r.2).1), (monRead (off + 4 * i) r.2).2)) ([], b)

/-- IDENT: the die words, the vault die's words, VARIANT and the UEID, which is left open in BLANK before the DeviceID exists. -/
def Claims.identAnswer (b : Block) : Bytes × Block :=
  let r := if b.run.lcs = 0 ∧ b.key.deviceIdCdi = none then freeBytes 33 b else (ueid b, b)
  (([0x20010, 0x20014, 0x20018, 0x20030, 0x20034, 0x20038].map (blockReg b) ++ [variantFuse b]).flatMap (lePut 4) ++ r.1, r.2)

/-- A write as PF0, whatever PF0's power state. -/
def Claims.asPf0 (off v : Nat) (b : Block) : Block :=
  onFn (bar0Write 0 off (word v) 0 (onFn b 0 (fun f => { f with d3hot := false }))) 0 (fun f => { f with d3hot := (fnOf b 0).d3hot })

/-- Frames that are served (R491 to R494), of the right form: HELP lists the codes served now, STATUS its eight words, IDENT the identities, READ the words with their read effects, CELL the bytes of a cell, WRITE writes as PF0, KLOG 16 KiB, and FRAMED returns to line mode. UNITRST starts a unit reset and answers later. HSM_BLOCK is taken
as the monitor's command, or answered 0x0503 when the monitor may not send it. -/
def Claims.MonitorCommands : Prop :=
  (∀ (s : State) (body : Bytes) (tag : Nat), let b := intoFramed s.blk
    (Claims.Served s.blk body 0x30 tag [] → exec (.help body) s = .next { s with
      blk := Claims.byFrame 0x30 tag ((monCodes.filter (fun c => refusal b c == 0)).flatMap (lePut 1), b) }) ∧
    (Claims.Served s.blk body 0x31 tag [] → exec (.status body) s = .next { s with blk := Claims.byFrame 0x31 tag ((monStatusWords b).flatMap (lePut 4), b) }) ∧
    (Claims.Served s.blk body 0x32 tag [] → exec (.ident body) s = .next { s with blk := Claims.byFrame 0x32 tag (Claims.identAnswer b) }) ∧
    (Claims.Served s.blk body 0x52 tag [] → exec (.klog body) s = .next { s with blk := Claims.byFrame 0x52 tag ((List.range 16384).map Config.klogByte, b) })) ∧
  (∀ (s : State) (body : Bytes) (tag : Nat) (p : Bytes), let b := intoFramed s.blk
    (∀ off n : Nat, Claims.Served s.blk body 0x33 tag p → Claims.readable b p off n →
      exec (.read body) s = .next { s with blk := Claims.byFrame 0x33 tag (Claims.readWords off n b) }) ∧
    (Claims.Served s.blk body 0x34 tag p → p.length = 2 → leAt p 0 2 ≤ 1023 →
      exec (.cell body) s = .next { s with blk := Claims.byFrame 0x34 tag (cellBytes (leAt p 0 2) (evCell b (leAt p 0 2)), b) }) ∧
    (Claims.Served s.blk body 0x50 tag p → p.length = 8 → leAt p 0 4 < 0x100000 →
      exec (.write body) s = .next { s with blk := Claims.byFrame 0x50 tag ([], Claims.asPf0 (leAt p 0 4) (leAt p 4 4) b) })) ∧
  (∀ (s : State) (body : Bytes) (tag : Nat), Claims.Served s.blk body 0x3F tag [] → exec (.framed body) s = .next { s with
    blk := (Claims.byFrame 0x3F tag ([], intoFramed s.blk)).onMon (fun m => { m with mode := .line, fresh := false }) }) ∧
  (∀ (s : State) (body : Bytes) (tag unit inst : Nat), unit < 256 → inst < 256 → Claims.Served s.blk body 0x51 tag (lePut 1 unit ++ lePut 1 inst) →
    exec (.unitrst body) s = .next { s with
      blk := unitGo unit inst ((intoFramed s.blk).onMon (fun m => { m with running := some (0x51, tag, 0), reply := true })) }) ∧
  (∀ (s : State) (body : Bytes) (tag : Nat) (p : Bytes), Claims.Served s.blk body 0x40 tag p → let id := s.blk.work.nextJob
    let b := countFrame (((intoFramed s.blk).onWork (fun w => { w with nextJob := w.nextJob + 1 })).onMon (fun m => { m with running := some (0x40, tag, id), reply := true }))
    exec (.hsmBlock body) s = .next { s with blk := (if blockBad p = none ∧ monAccepts b (bkCommand p) = false then monitorHsmDone id stHsmError 0x0503 0 [] b
      else takeBlock id .monitor false p b) })

/-- The UART takes a line: a rate is locked, SERIAL Thaw does not own it, and it is in line mode or chooses it. -/
def Claims.takesLine (b : Block) (text : Bytes) : Prop :=
  b.run.state ≠ .reset ∧ b.mon.baud ≠ 0 ∧ b.mon.owner ≠ 1 ∧ (b.mon.mode = .line ∨ (b.mon.fresh = true ∧ text.head? ≠ some 0x7E))

/-- A line echoed. -/
def Claims.echoed (text : Bytes) (b : Block) : Block := send (.uart (text ++ [0x0D])) (b.onMon (fun m => { m with mode := .line, fresh := false }))

/-- AUTOBAUD (R488): a rate within 3% of a supported one is locked, another counted. BREAK (R489) unlocks it. MONITOR_LINE (R490) is echoed; a line over 128 characters answers E LONG, an unknown or empty command E UNKNOWN, HELP and the others what their frames give. FRAME_GAP_TIMEOUT (R491) counts the frame. -/
def Claims.MonitorLines : Prop :=
  (∀ (s : State) (rate : Nat), s.blk.run.state ≠ .reset → s.blk.mon.baud = 0 →
    (∀ n, baudOf rate = some n → s.blk.mon.owner ≠ 1 → exec (.autobaud rate) s = .next { s with
      blk := s.blk.onMon (fun m => { m with baud := n, mode := .autobaud, fresh := true }) }) ∧
    (baudOf rate = none → exec (.autobaud rate) s = .next { s with blk := badFrame s.blk })) ∧
  (∀ (i rate : Nat), i < 8 → 97 * uartRates.getD i 0 ≤ 100 * rate → 100 * rate ≤ 103 * uartRates.getD i 0 → baudOf rate = some (i + 1)) ∧
  (∀ s : State, exec .breakChar s = .next { s with
    blk := s.blk.onMon (fun m => { m with baud := 0, mode := .autobaud, fresh := false, reply := m.running.isNone }) }) ∧
  (∀ s : State, takesFrame s.blk = true → exec .frameGapTimeout s = .next { s with
    blk := (intoFramed s.blk).onMon (fun m => { m with framesBad := sat32 (m.framesBad + 1) }) }) ∧
  (∀ (s : State) (text : Bytes), Claims.takesLine s.blk text → let b := Claims.echoed text s.blk
    (128 < (editLine text).length → exec (.monitorLine text) s = .next { s with blk := sayLines [ascii "E LONG"] b }) ∧
    ((editLine text).length ≤ 128 → lineWords (editLine text) = [] → exec (.monitorLine text) s = .next { s with blk := sayLines [ascii "E UNKNOWN"] b }) ∧
    ((editLine text).length ≤ 128 → lineWords (editLine text) = [ascii "HELP"] → refusal b 0x30 = 0 → exec (.monitorLine text) s = .next { s with
      blk := countFrame (sayLines (dataLines 0x30 ((monCodes.filter (fun c => refusal b c == 0)).flatMap (lePut 1))) b) }))

/-- The monitor locks a rate, takes lines and frames, and answers. -/
def Obligations.MonitorServes : Prop := Claims.MonitorCommands ∧ Claims.MonitorLines

/-- Nothing but the debug rule refuses a code now: no command runs, the UART is not Thaw's, no known-answer test has failed, and the keeper serves. -/
def Claims.KeeperServesCodes (b : Block) : Prop :=
  b.mon.running = none ∧ b.mon.owner ≠ 1 ∧ b.boot.katFail = false ∧ romServes b = false ∧ b.run.state ≠ .winter

/-- R495: where the keeper serves, the debug codes WRITE, UNITRST and KLOG are not refused in BLANK and TEST; in PROVISION, PRODUCTION and RETURN they are not refused while DEBUG_OPEN is 1 and get LOCKED while it is 0; in RETIRED they get LOCKED always. A frame that gets LOCKED is answered with that STATUS and counted, and does nothing else. -/
def Obligations.DebugCommandsOpen : Prop :=
  (∀ (b : Block) (code : Nat), isDebugCode code = true → Claims.KeeperServesCodes b → b.run.lcs ≤ 5 →
    (b.run.lcs ≤ 1 → refusal b code = 0) ∧
    (2 ≤ b.run.lcs → b.run.lcs ≤ 4 → b.mon.debugOpen = true → refusal b code = 0) ∧
    (2 ≤ b.run.lcs → b.run.lcs ≤ 4 → b.mon.debugOpen = false → refusal b code = 1) ∧
    (b.run.lcs = 5 → refusal b code = 1)) ∧
  ∀ c ∈ [((fun x => Instr.write x), 0x50), ((fun x => Instr.unitrst x), 0x51), ((fun x => Instr.klog x), 0x52)],
    ∀ (s : State) (body : Bytes) (tag : Nat) (p : Bytes), takesFrame s.blk = true → parseFrame body = some (c.2, tag, p) →
      refusal (intoFramed s.blk) c.2 = 1 → exec (c.1 body) s = .next { s with
        blk := uartReply c.2 tag 1 [] ((intoFramed s.blk).onMon (fun m => { m with refused := sat32 (m.refused + 1) })) }

/-! ### Frames: what each family leaves alone -/

/-- Every command of a family that gives a next state changes only what `k` lets through from the state after. -/
def Claims.Spares (family : Instr → Bool) (k : Block → Block → Block) : Prop :=
  ∀ (c : Instr) (s t : State), family c = true → exec c s = .next t → t.blk = k s.blk t.blk

/-- Queue commands, descriptors, contexts, lanes, session engines, digests, and what the link and its functions do short of a reset. -/
def Claims.dataPath : Instr → Bool
  | .digest _ | .hmac _ | .kmac _ | .digestCompare _ | .digestDescriptorEnd _ | .ctxLoad _ | .ctxEvict _ | .ctxPin _ | .ctxUnpin _
  | .unwrapDone _ | .contextUseEnd _ | .nop _ | .fence _ | .rngFill _ | .gcmEnc _ | .gcmDec _ | .ccmEnc _ | .ccmDec _ | .chachaPolyEnc _
  | .chachaPolyDec _ | .ctr _ | .cbcEnc _ | .cbcDec _ | .cmac _ | .sessionDispatch | .sessionPartDone _ | .parkTimeout _ | .pendingPark
  | .messageAbandon _ _ | .holdWaitTimeout _ | .sceCoreFenceWrite _ _ | .linkTrained _ _ _ _ | .busMasterEnableClear _
  | .busMasterEnableSet _ | .d3hotEntry _ | .d0Entry _ | .tdiConfigViolation _ | .xtsEnc _ | .xtsDec _ | .laneAssign
  | .laneDescriptorEnd _ | .steLaneFenceWrite _ | .sqDoorbell _ _ _ | .cqHeadWrite _ _ _ | .drainEntry _ | .createSq _ | .createCq _
  | .disableSq _ | .deleteSq _ | .deleteCq _ | .queryQueue _ | .setWeight _ | .fenceAll _ => true
  | _ => false

/-- What the data path may change. -/
def Claims.dataPathKeeps (b t : Block) : Block :=
  { b with link := t.link, q := t.q, work := t.work, vlt := t.vlt, ste := t.ste, sce := t.sce, dge := t.dge, rng := t.rng, key := t.key, bbram := t.bbram, evr := t.evr, dev := t.dev, pins := t.pins, out := t.out }

/-- Commands of the flash interposer. -/
def Claims.flashFamily : Instr → Bool
  | .hostBootWindowRead _ _ | .mbxRead _ | .mbxProgram _ | .mbxErase4K _ | .mbxErase64K _ | .spitRead _ _ _ _ | .spitProgram _ _ _
  | .spitErase _ _ | .spitReadStatus _ | .spitWriteEnable _ | .spitWriteDisable _ | .spitReadSfdp _ _ _ | .spitReadId _ | .spitReset _
  | .spitOpcodeRefused _ => true
  | _ => false

/-- SPDM requests. -/
def Claims.spdmFamily : Instr → Bool
  | .getVersion _ _ | .getCapabilities _ _ | .negotiateAlgorithms _ _ | .getDigests _ _ | .getCertificate _ _ | .challenge _ _
  | .getMeasurements _ _ | .keyExchange _ _ | .finish _ _ | .endSession _ _ => true
  | _ => false

/-- TDISP requests but STOP. -/
def Claims.tdispFamily : Instr → Bool
  | .getTdispVersion _ _ | .getTdispCapabilities _ _ | .lockInterfaceRequest _ _ | .getDeviceInterfaceReport _ _
  | .getDeviceInterfaceState _ _ | .startInterfaceRequest _ _ => true
  | _ => false

/-- The governor. -/
def Claims.governorFamily : Instr → Bool
  | .setPowerCap _ | .governorDecision _ | .avsAck _ | .avsFault _ => true
  | _ => false

/-- The register mode of the digest engine. -/
def Claims.digestRegistersFamily : Instr → Bool
  | .dgeRmStart _ _ | .dgeRmDataWrite _ _ | .dgeRmFinal _ _ | .dgeRmAbort _ _ | .dgeRmResultRead _ _ => true
  | _ => false

/-- The basic level. -/
def Claims.basicFamily : Instr → Bool
  | .legLock _ _ | .legUnlock _ _ | .leaseExpiry _ | .basicCoreReserved | .legScStart _ | .legScAbort _ | .legScDataInWrite _
  | .legScDataOutRead | .legRngDataRead => true
  | _ => false

/-- Requests over the UART and MCTP that are served by the state alone. -/
def Claims.serialFamily : Instr → Bool
  | .thawStatus _ | .autobaud _ | .breakChar | .frameGapTimeout | .frostStatus _ | .frostNonce _ | .frostRelease _ | .recordGet _ _
  | .certGet _ | .mctpAttest _ => true
  | _ => false

/-- Offers and chunks of Thaw. -/
def Claims.thawFamily : Instr → Bool
  | .thawOffer _ _ | .thawChunk _ => true
  | _ => false

/-- Expiries of sessions, offers, nonces, keys and tokens. -/
def Claims.timersFamily : Instr → Bool
  | .importSessionExpiry | .sessionExpiry _ | .offerExpiry | .nonceExpiry | .frostNonceExpiry | .thawOfferTimeout
  | .keyBankIdleExpiry _ _ | .coreKeyIdleExpiry _ | .tokenRefill _ | .rngReseedTimer _ => true
  | _ => false

/-- Interrupt registers and requests that nothing serves. -/
def Claims.interruptsFamily : Instr → Bool
  | .unsupportedRequest _ _ | .poisonedBarWrite _ | .badWidthAccess _ _ _ _ | .msixUnmask _ _ | .devIrqCauseWrite _ _
  | .devIrqEnableWrite _ => true
  | _ => false

/-- HSM commands that act on keys, sessions, records and public keys. -/
def Claims.keeperFamily : Instr → Bool
  | .keyGenerate _ | .keyDerive _ | .importBlobClear _ | .importSlotClear _ | .slotGenerate _ | .slotErase _ | .slotStatus _
  | .keyblockImport _ | .keyblockExport _ | .kwpExport _ | .blobRewrap _ | .eqxOpen _ | .eqxStatus _ | .eqxClose _ | .fnBind _
  | .fnUnbind _ | .domainRevoke _ | .getRecord _ _ | .getCert _ | .harvestClear _ | .importSession _ | .eqxApprove _ | .domainOffer _
  | .domainSponsor _ | .domainSend _ | .attest _ | .pkPublic _ | .pkSign _ | .pkVerify _ | .pkAgree _ | .kemEncap _ | .kemDecap _
  | .pkeJobDone _ => true
  | _ => false

/-- HSM commands that change the registry or the domain. -/
def Claims.registryFamily : Instr → Bool
  | .ownerCreate _ | .ownerUpdate _ | .ownerDelete _ | .domainCreate _ | .domainJoin _ | .domainReceive _ | .domainRotate _
  | .domainRetire _ | .domainLeave _ => true
  | _ => false

/-- BOOT_ACTIVATE and the flash operations that carry it. -/
def Claims.activationFamily : Instr → Bool
  | .bootActivate _ _ | .flashOpComplete _ _ _ => true
  | _ => false

/-- HSM commands that act on OTP. -/
def Claims.fuseFamily : Instr → Bool
  | .lcsGetNonce _ | .lcsDrainComplete _ | .tokenRootRevoke _ | .otpProgram _ | .rootRevoke _ => true
  | _ => false

/-- The frame of the data path: a queue command, a descriptor's opcode, a step of a context, lane, session core or digest pipeline, and a link or function event short of a reset leave unchanged the device state, time, public-key engine, governor, retained region, keeper, supplies,
tamper monitor, fuses, boot, flash, records, watchdogs, basic level, monitor and sideband port. What it changes in its own units its own statements say. -/
def Obligations.DataPathFrame : Prop := Claims.Spares Claims.dataPath Claims.dataPathKeeps

/-- The frame of HSM commands: whatever a key, session, record or public-key command does, the device state, time, governor, retained region, supplies, tamper monitor, fuses, boot, flash, watchdogs, basic level and sideband port are unchanged; a registry or domain command may change the release digest
and end what the basic level runs besides, a life-cycle or OTP command the fuses besides, an activation the flash interposer besides; but for the first group the public-key engine stays too. -/
def Obligations.KeeperCommandFrame : Prop :=
  Claims.Spares Claims.keeperFamily (fun b t => { t with run := b.run, time := b.time, pwr := b.pwr, kept := b.kept, sup := b.sup, tmp := b.tmp, otp := b.otp, boot := b.boot, flt := b.flt, wdg := b.wdg, leg := b.leg, sb := b.sb }) ∧
  Claims.Spares Claims.registryFamily (fun b t => { t with run := b.run, time := b.time, pke := b.pke, pwr := b.pwr, kept := b.kept, sup := b.sup, otp := b.otp, boot := b.boot, flt := b.flt, rcd := b.rcd, wdg := b.wdg, sb := b.sb }) ∧
  Claims.Spares Claims.fuseFamily (fun b t => { t with run := b.run, time := b.time, pke := b.pke, pwr := b.pwr, kept := b.kept, sup := b.sup, tmp := b.tmp, boot := b.boot, flt := b.flt, rcd := b.rcd, wdg := b.wdg, leg := b.leg, sb := b.sb }) ∧
  Claims.Spares Claims.activationFamily (fun b t => { t with run := b.run, time := b.time, pke := b.pke, pwr := b.pwr, kept := b.kept, sup := b.sup, tmp := b.tmp, otp := b.otp, boot := b.boot, rcd := b.rcd, wdg := b.wdg, leg := b.leg, sb := b.sb })

/-- The frames of the smaller families: flash commands, SPDM and TDISP requests, the governor, the digest registers, the basic level, requests over the UART and MCTP, offers and chunks of Thaw, expiries, and interrupt registers change only the units named for each (an event they report reaches the recorder, BBRAM's counts and the interrupt pins), and no other register, memory or counter. -/
def Obligations.SmallFamiliesFrame : Prop :=
  Claims.Spares Claims.flashFamily (fun b t => { b with link := t.link, key := t.key, bbram := t.bbram, evr := t.evr, dev := t.dev, pins := t.pins, flt := t.flt, out := t.out }) ∧
  Claims.Spares Claims.spdmFamily (fun b t => { b with link := t.link, pke := t.pke, rng := t.rng, key := t.key, bbram := t.bbram, evr := t.evr, dev := t.dev, pins := t.pins, rcd := t.rcd, out := t.out }) ∧
  Claims.Spares Claims.tdispFamily (fun b t => { b with link := t.link, rng := t.rng, rcd := t.rcd, out := t.out }) ∧
  Claims.Spares Claims.governorFamily (fun b t => { t with run := b.run, time := b.time, pke := b.pke, kept := b.kept, kpr := b.kpr, sup := b.sup, tmp := b.tmp, otp := b.otp, boot := b.boot, flt := b.flt, rcd := b.rcd, wdg := b.wdg, leg := b.leg, mon := b.mon, sb := b.sb }) ∧
  Claims.Spares Claims.digestRegistersFamily (fun b t => { b with link := t.link, dge := t.dge, dev := t.dev, leg := t.leg, out := t.out }) ∧
  Claims.Spares Claims.basicFamily (fun b t => { t with run := b.run, time := b.time, pke := b.pke, pwr := b.pwr, kept := b.kept, kpr := b.kpr, sup := b.sup, tmp := b.tmp, otp := b.otp, boot := b.boot, flt := b.flt, rcd := b.rcd, wdg := b.wdg, mon := b.mon, sb := b.sb }) ∧
  Claims.Spares Claims.serialFamily (fun b t => { b with link := t.link, pke := t.pke, rng := t.rng, key := t.key, bbram := t.bbram, evr := t.evr, dev := t.dev, pins := t.pins, tmp := t.tmp, mon := t.mon, out := t.out }) ∧
  Claims.Spares Claims.thawFamily (fun b t => { t with time := b.time, q := b.q, work := b.work, vlt := b.vlt, ste := b.ste, sce := b.sce, dge := b.dge, pke := b.pke, pwr := b.pwr, kpr := b.kpr, sup := b.sup, tmp := b.tmp, otp := b.otp, leg := b.leg, sb := b.sb }) ∧
  Claims.Spares Claims.timersFamily (fun b t => { b with ste := t.ste, sce := t.sce, rng := t.rng, key := t.key, evr := t.evr, kpr := t.kpr, tmp := t.tmp, otp := t.otp, boot := t.boot }) ∧
  Claims.Spares Claims.interruptsFamily (fun b t => { b with link := t.link, dev := t.dev, out := t.out })

/-- Whole-machine frames: every command but BATTERY_DOMAIN_POWER_UP leaves the seconds count, its sub-seconds and the microsecond clock as they were (time passes in idle steps), and every command but the supply crossings, VBAT_LOW, VBAT_RETURN, POWER_GOOD_FALL, BATTERY_DOMAIN_POWER_UP and ROM_ENTRY leaves the state of the supplies. -/
def Obligations.ClocksAndSuppliesFrame : Prop :=
  (∀ (c : Instr) (s t : State), (∀ mv, c ≠ .batteryDomainPowerUp mv) → exec c s = .next t → t.blk.time = s.blk.time) ∧
  ∀ (c : Instr) (s t : State), (∀ u x, c ≠ .supplyThresholdCrossing u x) → (∀ mv, c ≠ .vbatLow mv) → (∀ mv, c ≠ .vbatReturn mv) → c ≠ .powerGoodFall →
    (∀ mv, c ≠ .batteryDomainPowerUp mv) → (∀ env, c ≠ .romEntry env) → exec c s = .next t → t.blk.sup = s.blk.sup
end

