-- ==== Sys2Proof/Laws/Table.lean ====
section
/-! SUPPORT. Sparse tables: reading after a change, and the rising order that every change keeps; the mailbox buffer's one form; the fuse
words. -/

namespace Sys2Proof.Machine

variable {α : Type}

@[simp] theorem tget_nil (k : Nat) : tget ([] : Table α) k = none := rfl

@[simp] theorem tget_tset_self (t : Table α) (k : Nat) (a : α) : tget (tset t k a) k = some a := by
  induction t with
  | nil => simp [tset, tget]
  | cons p r ih =>
    obtain ⟨n, x⟩ := p
    simp only [tset]
    split
    · simp [tget]
    · split
      · simp [tget]
      · rename_i h; simp [tget, h, ih]

theorem tget_tset_of_ne (t : Table α) {k m : Nat} (a : α) (h : m ≠ k) : tget (tset t k a) m = tget t m := by
  induction t with
  | nil => simp [tset, tget, Ne.symm h]
  | cons p r ih =>
    obtain ⟨n, x⟩ := p
    simp only [tset]
    split
    · simp [tget, Ne.symm h]
    · split
      · rename_i e; subst e; simp [tget, Ne.symm h]
      · simp [tget, ih]

/-- A read after a write of an entry. -/
theorem tget_tset (t : Table α) (k m : Nat) (a : α) : tget (tset t k a) m = if m = k then some a else tget t m := by
  split
  · rename_i h; subst h; simp
  · rename_i h; exact tget_tset_of_ne t a h

theorem tgetD_tset (d : α) (t : Table α) (k m : Nat) (a : α) : tgetD d (tset t k a) m = if m = k then a else tgetD d t m := by
  unfold tgetD; rw [tget_tset]; split <;> rfl

theorem tgetD_tmod (d : α) (f : α → α) (t : Table α) (k m : Nat) :
    tgetD d (tmod d f t k) m = if m = k then f (tgetD d t k) else tgetD d t m := tgetD_tset d t k m _

theorem twf_cons_iff (n : Nat) (a : α) (t : Table α) : twf ((n, a) :: t) = true ↔ (∀ p ∈ t, n < p.1) ∧ twf t = true := by
  induction t generalizing n a with
  | nil => simp [twf]
  | cons p r ih =>
    obtain ⟨m, x⟩ := p
    simp only [twf, Bool.and_eq_true, decide_eq_true_eq, ih]
    constructor
    · rintro ⟨h, hr, hw⟩
      refine ⟨?_, hr, hw⟩
      rintro q (_ | ⟨_, hq⟩)
      · exact h
      · exact h.trans (hr q hq)
    · rintro ⟨h, hr, hw⟩
      exact ⟨h (m, x) (by simp), hr, hw⟩

theorem mem_tset {t : Table α} {k : Nat} {a : α} {p : Nat × α} (h : p ∈ tset t k a) : p = (k, a) ∨ p ∈ t := by
  induction t with
  | nil => simpa [tset] using h
  | cons q r ih =>
    obtain ⟨n, x⟩ := q
    simp only [tset] at h
    split at h
    · simpa using h
    · split at h
      · simp only [List.mem_cons] at h ⊢; tauto
      · simp only [List.mem_cons] at h ⊢
        rcases h with h | h
        · tauto
        · rcases ih h with h | h <;> tauto

/-- Putting an entry in keeps the numbers rising. -/
theorem twf_tset {t : Table α} (k : Nat) (a : α) (h : twf t = true) : twf (tset t k a) = true := by
  induction t with
  | nil => rfl
  | cons p r ih =>
    obtain ⟨n, x⟩ := p
    have hc := (twf_cons_iff n x r).1 h
    simp only [tset]
    split
    · rename_i hk
      rw [twf_cons_iff]
      refine ⟨?_, h⟩
      rintro q (_ | ⟨_, hq⟩)
      · exact hk
      · exact hk.trans (hc.1 q hq)
    · split
      · rename_i e; subst e
        exact (twf_cons_iff _ _ _).2 hc
      · rename_i h1 h2
        rw [twf_cons_iff]
        refine ⟨?_, ih hc.2⟩
        intro q hq
        rcases mem_tset hq with e | hq
        · subst e; show n < k; omega
        · exact hc.1 q hq

theorem twf_tmod {t : Table α} (d : α) (f : α → α) (k : Nat) (h : twf t = true) : twf (tmod d f t k) = true := twf_tset _ _ h

theorem twf_filter {t : Table α} (p : Nat × α → Bool) (h : twf t = true) : twf (t.filter p) = true := by
  induction t with
  | nil => rfl
  | cons q r ih =>
    obtain ⟨n, x⟩ := q
    have hc := (twf_cons_iff n x r).1 h
    rw [List.filter_cons]
    split
    · rw [twf_cons_iff]; exact ⟨fun q hq => hc.1 q (List.mem_filter.1 hq).1, ih hc.2⟩
    · exact ih hc.2

theorem twf_tdel {t : Table α} (k : Nat) (h : twf t = true) : twf (tdel t k) = true := twf_filter _ h

theorem tget_tdel_self (t : Table α) (k : Nat) : tget (tdel t k) k = none := by
  induction t with
  | nil => rfl
  | cons q r ih =>
    obtain ⟨n, x⟩ := q
    simp only [tdel] at ih
    simp only [tdel, List.filter_cons]
    split
    · rename_i h
      have hn : ¬ n = k := by simpa using h
      simp only [tget, if_neg hn]; exact ih
    · exact ih

theorem tget_tdel_of_ne (t : Table α) {k m : Nat} (h : m ≠ k) : tget (tdel t k) m = tget t m := by
  induction t with
  | nil => rfl
  | cons q r ih =>
    obtain ⟨n, x⟩ := q
    simp only [tdel] at ih
    simp only [tdel, List.filter_cons]
    split
    · simp [tget, ih]
    · rename_i hn
      have : n = k := by simpa using hn
      subst this; simp [tget, Ne.symm h, ih]

/-! ### The mailbox buffer (R154) -/

theorem twf_bufferRange (data : Bytes) (s n : Nat) :
    twf ((List.range' s n).filterMap (fun i => if byteAt data i = 0 then none else some (i, byteAt data i))) = true := by
  induction n generalizing s with
  | zero => rfl
  | succ n ih =>
    rw [List.range'_succ, List.filterMap_cons]
    split
    · exact ih _
    · rename_i p e
      split at e
      · cases e
      · cases e
        rw [twf_cons_iff]
        refine ⟨?_, ih _⟩
        intro q hq
        simp only [List.mem_filterMap, List.mem_range'_1] at hq
        obtain ⟨i, hi, e⟩ := hq
        split at e
        · cases e
        · cases e; omega

/-- What a store into the mailbox buffer leaves has its offsets rising … -/
theorem twf_bufferOf (data : Bytes) : twf (bufferOf data) = true := by
  unfold bufferOf; rw [List.range_eq_range']; exact twf_bufferRange data 0 _

/-- … and lists no byte equal to what an unlisted offset reads as. -/
theorem bufferOf_ne_zero (data : Bytes) : ∀ p ∈ bufferOf data, p.2 ≠ 0 := by
  intro p hp
  simp only [bufferOf, List.mem_filterMap] at hp
  obtain ⟨i, -, e⟩ := hp
  split at e
  · cases e
  · rename_i h; cases e; exact h

theorem bufferPut_canonical (off : Nat) (v : Word) (buf : List (Nat × Byte)) :
    twf (bufferPut off v buf) = true ∧ ∀ p ∈ bufferPut off v buf, p.2 ≠ 0 := ⟨twf_bufferOf _, bufferOf_ne_zero _⟩

/-! ### Fuse words -/

/-- While VDD_ANA is good, programming a fuse word ORs it; every other word stays. -/
theorem otpWord_otpProgram (w v m : Nat) (b : Block) :
    otpWord (otpProgram w v b) m = if b.sup.ana.good = true ∧ m = w then otpWord b w ||| v else otpWord b m := by
  unfold otpWord otpProgram Block.onOtp
  by_cases h : b.sup.ana.good = true
  · simp only [h, if_true, true_and]; exact tgetD_tset 0 _ _ _ _
  · simp [h]

/-- A programmed bit stays programmed. -/
theorem testBit_otpProgram (w v m i : Nat) (b : Block) (h : (otpWord b m).testBit i = true) :
    (otpWord (otpProgram w v b) m).testBit i = true := by
  rw [otpWord_otpProgram]; split
  · rename_i e; obtain ⟨-, rfl⟩ := e; simp [h]
  · exact h

end Sys2Proof.Machine
end

