-- ==== Sys2Proof/Laws/Bbram.lean ====
section
/-! SUPPORT. A record that was committed reads back (R271 to R275). -/

namespace Sys2Proof.Machine

/-- A round of Keccak keeps the 25 lanes. -/
@[simp] theorem keccakRound_length (a : List (BitVec 64)) (r : Nat) : (keccakRound a r).length = 25 := by
  unfold keccakRound
  simp [List.range_succ_eq_map]

@[simp] theorem keccakF_length (a : List (BitVec 64)) : (keccakF a).length = 25 := by
  unfold keccakF
  rw [List.range_succ, List.foldl_append]
  simp

/-- Squeezing gives whole blocks of the rate, while the rate is at most the state. -/
theorem keccakSqueeze_length (rate n : Nat) (a : List (BitVec 64)) (ha : a.length = 25) (hr : rate ≤ 200) :
    (keccakSqueeze rate n a).length = rate * n := by
  induction n generalizing a with
  | zero => simp [keccakSqueeze]
  | succ n ih =>
    have : (a.flatMap (fun x => lePut 8 x.toNat)).length = 200 := by simp [List.length_flatMap, lePut, ha]
    simp only [keccakSqueeze, List.length_append, List.length_take, this, ih _ (keccakF_length _)]
    rw [Nat.min_eq_left hr, Nat.mul_succ, Nat.add_comm]

/-- Absorbing keeps the 25 lanes. -/
theorem absorb_length (l : List Bytes) (a : List (BitVec 64)) (ha : a.length = 25) : (l.foldl keccakAbsorb a).length = 25 := by
  induction l generalizing a with
  | nil => exact ha
  | cons x l ih => exact ih _ (by simp [keccakAbsorb])

/-- KMAC256 gives as many bytes as it is asked for. -/
@[simp] theorem kmac256_length (key data : Bytes) (out : Nat) (s : Bytes) : (kmac256 key data out s).length = out := by
  unfold kmac256 kmac sponge
  simp only [List.length_take]
  rw [keccakSqueeze_length _ _ _ (absorb_length _ _ (by simp)) (by decide)]
  unfold ceilDiv
  omega

/-- CHECK of a copy is 16 bytes. -/
@[simp] theorem bbCheck_length (key : Bytes) (off : Nat) (body : Bytes) : (bbCheck key off body).length = 16 := kmac256_length _ _ _ _

/-- The first commit into a pair that holds nothing is VALID with GEN 1, in copy A. -/
theorem judgePair_commitPair_first (key : Bytes) (off : Nat → Nat) (n : Nat) (r : Bytes) (hn : r.length + 17 = n) :
    judgePair key off n 0 (commitPair key off (fun g => [BitVec.ofNat 8 g] ++ r) Pair.empty) =
      .valid 1 ((1 :: r) ++ bbCheck key (off 0) (1 :: r)) := by
  have h1 : ctlOk (ctlWord 1 0) = true := by decide
  have h2 : (ctlWord 1 0).toNat % 2 = 0 := by decide
  have h3 : bits (ctlWord 1 0).toNat 15 8 = 1 := by decide
  have e : n - 16 = (1 :: r).length := by simp only [List.length_cons]; omega
  have hl : ((1 :: r) ++ bbCheck key (off 0) (1 :: r)).length = n := by simp only [List.length_append, bbCheck_length, List.length_cons]; omega
  have ht : List.take (n - 16) ((1 :: r) ++ bbCheck key (off 0) (1 :: r)) = 1 :: r := by rw [e, List.take_left]
  have hd : List.drop (n - 16) ((1 :: r) ++ bbCheck key (off 0) (1 :: r)) = bbCheck key (off 0) (1 :: r) := by rw [e, List.drop_left]
  have hp : commitPair key off (fun g => [BitVec.ofNat 8 g] ++ r) Pair.empty =
      { ctl := ctlWord 1 0, a := (1 :: r) ++ bbCheck key (off 0) (1 :: r), b := [] } := by
    simp [commitPair, Pair.empty]
  have hb : byteAt ((1 :: r) ++ bbCheck key (off 0) (1 :: r)) 0 = 1 := rfl
  rw [hp]
  simp only [judgePair, h1, h2, h3, if_true, hl, ht, hd, hb]
  rfl

/-- What a record holds is told by the BBRAM and the key of its checks. -/
theorem recPayload_congr {b c : Block} (i : Nat) (h : b.bbram = c.bbram) (k : recordKey b = recordKey c) : recPayload b i = recPayload c i := by
  simp only [recPayload, recState, h, k]

/-- The first commit into a record that holds nothing, when both of its readbacks agree: its payload is what recPayload then gives. -/
theorem recPayload_commitRec (b : Block) (i : Nat) (p : Bytes) (hb : b.key.badPair = none) (hd : b.key.dataBad.contains b.key.commitNo = false)
    (hq : b.key.ctlBad.contains b.key.commitNo = false) (he : tget b.bbram.recs i = none)
    (hi : 17 ≤ recLen i) :
    recPayload (commitRec i p b) i = some (slice p 0 (recLen i - 17)) := by
  have hpair : tgetD Pair.empty b.bbram.recs i = Pair.empty := by simp [tgetD, he]
  have hn : recState b i = .empty := by rw [recState, hpair]; rfl
  have hs : (slice p 0 (recLen i - 17)).length + 17 = recLen i := by simp [slice]; omega
  have hr : recState (commitRec i p b) i = .valid 1 ((1 :: slice p 0 (recLen i - 17)) ++ bbCheck (recordKey b) (recOff i 0) (1 :: slice p 0 (recLen i - 17))) := by
    rw [← judgePair_commitPair_first (recordKey b) (recOff i) (recLen i) (slice p 0 (recLen i - 17)) hs]
    simp only [commitRec, commitAs, hn, hpair, hb, Option.isSome_none, Bool.false_eq_true, if_false]
    have hd' : b.key.commitNo ∉ b.key.dataBad := by simpa using hd
    have hq' : b.key.commitNo ∉ b.key.ctlBad := by simpa using hq
    simp [recState, recordKey, countCommit, Block.onKey, Block.onBbram, tgetD_tset, hd', hq']
  have h17 : recLen i - 17 = (slice p 0 (recLen i - 17)).length := by omega
  simp only [recPayload, hr, List.cons_append, List.drop_succ_cons, List.drop_zero]
  rw [show List.take (recLen i - 17) (slice p 0 (recLen i - 17) ++ bbCheck (recordKey b) (recOff i 0) (1 :: slice p 0 (recLen i - 17)))
    = slice p 0 (recLen i - 17) by conv_lhs => { rw [List.take_append_of_le_length (by omega)]; rw [List.take_of_length_le (by omega)] }]

end Sys2Proof.Machine
end

