-- ==== Sys2Proof/Laws/State.lean ====
section
/-! SUPPORT. What each unit of the block reads as after a change of one unit: one lemma per unit and change, true by definition. -/

namespace Sys2Proof.Machine

variable (b : Block)

section
variable (f : RunSt → RunSt)
@[simp] theorem onRun_run : (b.onRun f).run = f b.run := by rfl
@[simp] theorem onRun_time : (b.onRun f).time = b.time := by rfl
@[simp] theorem onRun_link : (b.onRun f).link = b.link := by rfl
@[simp] theorem onRun_q : (b.onRun f).q = b.q := by rfl
@[simp] theorem onRun_work : (b.onRun f).work = b.work := by rfl
@[simp] theorem onRun_vlt : (b.onRun f).vlt = b.vlt := by rfl
@[simp] theorem onRun_ste : (b.onRun f).ste = b.ste := by rfl
@[simp] theorem onRun_sce : (b.onRun f).sce = b.sce := by rfl
@[simp] theorem onRun_dge : (b.onRun f).dge = b.dge := by rfl
@[simp] theorem onRun_pke : (b.onRun f).pke = b.pke := by rfl
@[simp] theorem onRun_rng : (b.onRun f).rng = b.rng := by rfl
@[simp] theorem onRun_key : (b.onRun f).key = b.key := by rfl
@[simp] theorem onRun_bbram : (b.onRun f).bbram = b.bbram := by rfl
@[simp] theorem onRun_evr : (b.onRun f).evr = b.evr := by rfl
@[simp] theorem onRun_dev : (b.onRun f).dev = b.dev := by rfl
@[simp] theorem onRun_pins : (b.onRun f).pins = b.pins := by rfl
@[simp] theorem onRun_pwr : (b.onRun f).pwr = b.pwr := by rfl
@[simp] theorem onRun_kept : (b.onRun f).kept = b.kept := by rfl
@[simp] theorem onRun_kpr : (b.onRun f).kpr = b.kpr := by rfl
@[simp] theorem onRun_sup : (b.onRun f).sup = b.sup := by rfl
@[simp] theorem onRun_tmp : (b.onRun f).tmp = b.tmp := by rfl
@[simp] theorem onRun_otp : (b.onRun f).otp = b.otp := by rfl
@[simp] theorem onRun_boot : (b.onRun f).boot = b.boot := by rfl
@[simp] theorem onRun_flt : (b.onRun f).flt = b.flt := by rfl
@[simp] theorem onRun_rcd : (b.onRun f).rcd = b.rcd := by rfl
@[simp] theorem onRun_wdg : (b.onRun f).wdg = b.wdg := by rfl
@[simp] theorem onRun_leg : (b.onRun f).leg = b.leg := by rfl
@[simp] theorem onRun_mon : (b.onRun f).mon = b.mon := by rfl
@[simp] theorem onRun_sb : (b.onRun f).sb = b.sb := by rfl
@[simp] theorem onRun_out : (b.onRun f).out = b.out := by rfl
end

section
variable (f : TimeSt → TimeSt)
@[simp] theorem onTime_run : (b.onTime f).run = b.run := by rfl
@[simp] theorem onTime_time : (b.onTime f).time = f b.time := by rfl
@[simp] theorem onTime_link : (b.onTime f).link = b.link := by rfl
@[simp] theorem onTime_q : (b.onTime f).q = b.q := by rfl
@[simp] theorem onTime_work : (b.onTime f).work = b.work := by rfl
@[simp] theorem onTime_vlt : (b.onTime f).vlt = b.vlt := by rfl
@[simp] theorem onTime_ste : (b.onTime f).ste = b.ste := by rfl
@[simp] theorem onTime_sce : (b.onTime f).sce = b.sce := by rfl
@[simp] theorem onTime_dge : (b.onTime f).dge = b.dge := by rfl
@[simp] theorem onTime_pke : (b.onTime f).pke = b.pke := by rfl
@[simp] theorem onTime_rng : (b.onTime f).rng = b.rng := by rfl
@[simp] theorem onTime_key : (b.onTime f).key = b.key := by rfl
@[simp] theorem onTime_bbram : (b.onTime f).bbram = b.bbram := by rfl
@[simp] theorem onTime_evr : (b.onTime f).evr = b.evr := by rfl
@[simp] theorem onTime_dev : (b.onTime f).dev = b.dev := by rfl
@[simp] theorem onTime_pins : (b.onTime f).pins = b.pins := by rfl
@[simp] theorem onTime_pwr : (b.onTime f).pwr = b.pwr := by rfl
@[simp] theorem onTime_kept : (b.onTime f).kept = b.kept := by rfl
@[simp] theorem onTime_kpr : (b.onTime f).kpr = b.kpr := by rfl
@[simp] theorem onTime_sup : (b.onTime f).sup = b.sup := by rfl
@[simp] theorem onTime_tmp : (b.onTime f).tmp = b.tmp := by rfl
@[simp] theorem onTime_otp : (b.onTime f).otp = b.otp := by rfl
@[simp] theorem onTime_boot : (b.onTime f).boot = b.boot := by rfl
@[simp] theorem onTime_flt : (b.onTime f).flt = b.flt := by rfl
@[simp] theorem onTime_rcd : (b.onTime f).rcd = b.rcd := by rfl
@[simp] theorem onTime_wdg : (b.onTime f).wdg = b.wdg := by rfl
@[simp] theorem onTime_leg : (b.onTime f).leg = b.leg := by rfl
@[simp] theorem onTime_mon : (b.onTime f).mon = b.mon := by rfl
@[simp] theorem onTime_sb : (b.onTime f).sb = b.sb := by rfl
@[simp] theorem onTime_out : (b.onTime f).out = b.out := by rfl
end

section
variable (f : LinkSt → LinkSt)
@[simp] theorem onLink_run : (b.onLink f).run = b.run := by rfl
@[simp] theorem onLink_time : (b.onLink f).time = b.time := by rfl
@[simp] theorem onLink_link : (b.onLink f).link = f b.link := by rfl
@[simp] theorem onLink_q : (b.onLink f).q = b.q := by rfl
@[simp] theorem onLink_work : (b.onLink f).work = b.work := by rfl
@[simp] theorem onLink_vlt : (b.onLink f).vlt = b.vlt := by rfl
@[simp] theorem onLink_ste : (b.onLink f).ste = b.ste := by rfl
@[simp] theorem onLink_sce : (b.onLink f).sce = b.sce := by rfl
@[simp] theorem onLink_dge : (b.onLink f).dge = b.dge := by rfl
@[simp] theorem onLink_pke : (b.onLink f).pke = b.pke := by rfl
@[simp] theorem onLink_rng : (b.onLink f).rng = b.rng := by rfl
@[simp] theorem onLink_key : (b.onLink f).key = b.key := by rfl
@[simp] theorem onLink_bbram : (b.onLink f).bbram = b.bbram := by rfl
@[simp] theorem onLink_evr : (b.onLink f).evr = b.evr := by rfl
@[simp] theorem onLink_dev : (b.onLink f).dev = b.dev := by rfl
@[simp] theorem onLink_pins : (b.onLink f).pins = b.pins := by rfl
@[simp] theorem onLink_pwr : (b.onLink f).pwr = b.pwr := by rfl
@[simp] theorem onLink_kept : (b.onLink f).kept = b.kept := by rfl
@[simp] theorem onLink_kpr : (b.onLink f).kpr = b.kpr := by rfl
@[simp] theorem onLink_sup : (b.onLink f).sup = b.sup := by rfl
@[simp] theorem onLink_tmp : (b.onLink f).tmp = b.tmp := by rfl
@[simp] theorem onLink_otp : (b.onLink f).otp = b.otp := by rfl
@[simp] theorem onLink_boot : (b.onLink f).boot = b.boot := by rfl
@[simp] theorem onLink_flt : (b.onLink f).flt = b.flt := by rfl
@[simp] theorem onLink_rcd : (b.onLink f).rcd = b.rcd := by rfl
@[simp] theorem onLink_wdg : (b.onLink f).wdg = b.wdg := by rfl
@[simp] theorem onLink_leg : (b.onLink f).leg = b.leg := by rfl
@[simp] theorem onLink_mon : (b.onLink f).mon = b.mon := by rfl
@[simp] theorem onLink_sb : (b.onLink f).sb = b.sb := by rfl
@[simp] theorem onLink_out : (b.onLink f).out = b.out := by rfl
end

section
variable (f : QueueSt → QueueSt)
@[simp] theorem onQ_run : (b.onQ f).run = b.run := by rfl
@[simp] theorem onQ_time : (b.onQ f).time = b.time := by rfl
@[simp] theorem onQ_link : (b.onQ f).link = b.link := by rfl
@[simp] theorem onQ_q : (b.onQ f).q = f b.q := by rfl
@[simp] theorem onQ_work : (b.onQ f).work = b.work := by rfl
@[simp] theorem onQ_vlt : (b.onQ f).vlt = b.vlt := by rfl
@[simp] theorem onQ_ste : (b.onQ f).ste = b.ste := by rfl
@[simp] theorem onQ_sce : (b.onQ f).sce = b.sce := by rfl
@[simp] theorem onQ_dge : (b.onQ f).dge = b.dge := by rfl
@[simp] theorem onQ_pke : (b.onQ f).pke = b.pke := by rfl
@[simp] theorem onQ_rng : (b.onQ f).rng = b.rng := by rfl
@[simp] theorem onQ_key : (b.onQ f).key = b.key := by rfl
@[simp] theorem onQ_bbram : (b.onQ f).bbram = b.bbram := by rfl
@[simp] theorem onQ_evr : (b.onQ f).evr = b.evr := by rfl
@[simp] theorem onQ_dev : (b.onQ f).dev = b.dev := by rfl
@[simp] theorem onQ_pins : (b.onQ f).pins = b.pins := by rfl
@[simp] theorem onQ_pwr : (b.onQ f).pwr = b.pwr := by rfl
@[simp] theorem onQ_kept : (b.onQ f).kept = b.kept := by rfl
@[simp] theorem onQ_kpr : (b.onQ f).kpr = b.kpr := by rfl
@[simp] theorem onQ_sup : (b.onQ f).sup = b.sup := by rfl
@[simp] theorem onQ_tmp : (b.onQ f).tmp = b.tmp := by rfl
@[simp] theorem onQ_otp : (b.onQ f).otp = b.otp := by rfl
@[simp] theorem onQ_boot : (b.onQ f).boot = b.boot := by rfl
@[simp] theorem onQ_flt : (b.onQ f).flt = b.flt := by rfl
@[simp] theorem onQ_rcd : (b.onQ f).rcd = b.rcd := by rfl
@[simp] theorem onQ_wdg : (b.onQ f).wdg = b.wdg := by rfl
@[simp] theorem onQ_leg : (b.onQ f).leg = b.leg := by rfl
@[simp] theorem onQ_mon : (b.onQ f).mon = b.mon := by rfl
@[simp] theorem onQ_sb : (b.onQ f).sb = b.sb := by rfl
@[simp] theorem onQ_out : (b.onQ f).out = b.out := by rfl
end

section
variable (f : WorkSt → WorkSt)
@[simp] theorem onWork_run : (b.onWork f).run = b.run := by rfl
@[simp] theorem onWork_time : (b.onWork f).time = b.time := by rfl
@[simp] theorem onWork_link : (b.onWork f).link = b.link := by rfl
@[simp] theorem onWork_q : (b.onWork f).q = b.q := by rfl
@[simp] theorem onWork_work : (b.onWork f).work = f b.work := by rfl
@[simp] theorem onWork_vlt : (b.onWork f).vlt = b.vlt := by rfl
@[simp] theorem onWork_ste : (b.onWork f).ste = b.ste := by rfl
@[simp] theorem onWork_sce : (b.onWork f).sce = b.sce := by rfl
@[simp] theorem onWork_dge : (b.onWork f).dge = b.dge := by rfl
@[simp] theorem onWork_pke : (b.onWork f).pke = b.pke := by rfl
@[simp] theorem onWork_rng : (b.onWork f).rng = b.rng := by rfl
@[simp] theorem onWork_key : (b.onWork f).key = b.key := by rfl
@[simp] theorem onWork_bbram : (b.onWork f).bbram = b.bbram := by rfl
@[simp] theorem onWork_evr : (b.onWork f).evr = b.evr := by rfl
@[simp] theorem onWork_dev : (b.onWork f).dev = b.dev := by rfl
@[simp] theorem onWork_pins : (b.onWork f).pins = b.pins := by rfl
@[simp] theorem onWork_pwr : (b.onWork f).pwr = b.pwr := by rfl
@[simp] theorem onWork_kept : (b.onWork f).kept = b.kept := by rfl
@[simp] theorem onWork_kpr : (b.onWork f).kpr = b.kpr := by rfl
@[simp] theorem onWork_sup : (b.onWork f).sup = b.sup := by rfl
@[simp] theorem onWork_tmp : (b.onWork f).tmp = b.tmp := by rfl
@[simp] theorem onWork_otp : (b.onWork f).otp = b.otp := by rfl
@[simp] theorem onWork_boot : (b.onWork f).boot = b.boot := by rfl
@[simp] theorem onWork_flt : (b.onWork f).flt = b.flt := by rfl
@[simp] theorem onWork_rcd : (b.onWork f).rcd = b.rcd := by rfl
@[simp] theorem onWork_wdg : (b.onWork f).wdg = b.wdg := by rfl
@[simp] theorem onWork_leg : (b.onWork f).leg = b.leg := by rfl
@[simp] theorem onWork_mon : (b.onWork f).mon = b.mon := by rfl
@[simp] theorem onWork_sb : (b.onWork f).sb = b.sb := by rfl
@[simp] theorem onWork_out : (b.onWork f).out = b.out := by rfl
end

section
variable (f : VaultSt → VaultSt)
@[simp] theorem onVlt_run : (b.onVlt f).run = b.run := by rfl
@[simp] theorem onVlt_time : (b.onVlt f).time = b.time := by rfl
@[simp] theorem onVlt_link : (b.onVlt f).link = b.link := by rfl
@[simp] theorem onVlt_q : (b.onVlt f).q = b.q := by rfl
@[simp] theorem onVlt_work : (b.onVlt f).work = b.work := by rfl
@[simp] theorem onVlt_vlt : (b.onVlt f).vlt = f b.vlt := by rfl
@[simp] theorem onVlt_ste : (b.onVlt f).ste = b.ste := by rfl
@[simp] theorem onVlt_sce : (b.onVlt f).sce = b.sce := by rfl
@[simp] theorem onVlt_dge : (b.onVlt f).dge = b.dge := by rfl
@[simp] theorem onVlt_pke : (b.onVlt f).pke = b.pke := by rfl
@[simp] theorem onVlt_rng : (b.onVlt f).rng = b.rng := by rfl
@[simp] theorem onVlt_key : (b.onVlt f).key = b.key := by rfl
@[simp] theorem onVlt_bbram : (b.onVlt f).bbram = b.bbram := by rfl
@[simp] theorem onVlt_evr : (b.onVlt f).evr = b.evr := by rfl
@[simp] theorem onVlt_dev : (b.onVlt f).dev = b.dev := by rfl
@[simp] theorem onVlt_pins : (b.onVlt f).pins = b.pins := by rfl
@[simp] theorem onVlt_pwr : (b.onVlt f).pwr = b.pwr := by rfl
@[simp] theorem onVlt_kept : (b.onVlt f).kept = b.kept := by rfl
@[simp] theorem onVlt_kpr : (b.onVlt f).kpr = b.kpr := by rfl
@[simp] theorem onVlt_sup : (b.onVlt f).sup = b.sup := by rfl
@[simp] theorem onVlt_tmp : (b.onVlt f).tmp = b.tmp := by rfl
@[simp] theorem onVlt_otp : (b.onVlt f).otp = b.otp := by rfl
@[simp] theorem onVlt_boot : (b.onVlt f).boot = b.boot := by rfl
@[simp] theorem onVlt_flt : (b.onVlt f).flt = b.flt := by rfl
@[simp] theorem onVlt_rcd : (b.onVlt f).rcd = b.rcd := by rfl
@[simp] theorem onVlt_wdg : (b.onVlt f).wdg = b.wdg := by rfl
@[simp] theorem onVlt_leg : (b.onVlt f).leg = b.leg := by rfl
@[simp] theorem onVlt_mon : (b.onVlt f).mon = b.mon := by rfl
@[simp] theorem onVlt_sb : (b.onVlt f).sb = b.sb := by rfl
@[simp] theorem onVlt_out : (b.onVlt f).out = b.out := by rfl
end

section
variable (f : StreamSt → StreamSt)
@[simp] theorem onSte_run : (b.onSte f).run = b.run := by rfl
@[simp] theorem onSte_time : (b.onSte f).time = b.time := by rfl
@[simp] theorem onSte_link : (b.onSte f).link = b.link := by rfl
@[simp] theorem onSte_q : (b.onSte f).q = b.q := by rfl
@[simp] theorem onSte_work : (b.onSte f).work = b.work := by rfl
@[simp] theorem onSte_vlt : (b.onSte f).vlt = b.vlt := by rfl
@[simp] theorem onSte_ste : (b.onSte f).ste = f b.ste := by rfl
@[simp] theorem onSte_sce : (b.onSte f).sce = b.sce := by rfl
@[simp] theorem onSte_dge : (b.onSte f).dge = b.dge := by rfl
@[simp] theorem onSte_pke : (b.onSte f).pke = b.pke := by rfl
@[simp] theorem onSte_rng : (b.onSte f).rng = b.rng := by rfl
@[simp] theorem onSte_key : (b.onSte f).key = b.key := by rfl
@[simp] theorem onSte_bbram : (b.onSte f).bbram = b.bbram := by rfl
@[simp] theorem onSte_evr : (b.onSte f).evr = b.evr := by rfl
@[simp] theorem onSte_dev : (b.onSte f).dev = b.dev := by rfl
@[simp] theorem onSte_pins : (b.onSte f).pins = b.pins := by rfl
@[simp] theorem onSte_pwr : (b.onSte f).pwr = b.pwr := by rfl
@[simp] theorem onSte_kept : (b.onSte f).kept = b.kept := by rfl
@[simp] theorem onSte_kpr : (b.onSte f).kpr = b.kpr := by rfl
@[simp] theorem onSte_sup : (b.onSte f).sup = b.sup := by rfl
@[simp] theorem onSte_tmp : (b.onSte f).tmp = b.tmp := by rfl
@[simp] theorem onSte_otp : (b.onSte f).otp = b.otp := by rfl
@[simp] theorem onSte_boot : (b.onSte f).boot = b.boot := by rfl
@[simp] theorem onSte_flt : (b.onSte f).flt = b.flt := by rfl
@[simp] theorem onSte_rcd : (b.onSte f).rcd = b.rcd := by rfl
@[simp] theorem onSte_wdg : (b.onSte f).wdg = b.wdg := by rfl
@[simp] theorem onSte_leg : (b.onSte f).leg = b.leg := by rfl
@[simp] theorem onSte_mon : (b.onSte f).mon = b.mon := by rfl
@[simp] theorem onSte_sb : (b.onSte f).sb = b.sb := by rfl
@[simp] theorem onSte_out : (b.onSte f).out = b.out := by rfl
end

section
variable (f : SessionSt → SessionSt)
@[simp] theorem onSce_run : (b.onSce f).run = b.run := by rfl
@[simp] theorem onSce_time : (b.onSce f).time = b.time := by rfl
@[simp] theorem onSce_link : (b.onSce f).link = b.link := by rfl
@[simp] theorem onSce_q : (b.onSce f).q = b.q := by rfl
@[simp] theorem onSce_work : (b.onSce f).work = b.work := by rfl
@[simp] theorem onSce_vlt : (b.onSce f).vlt = b.vlt := by rfl
@[simp] theorem onSce_ste : (b.onSce f).ste = b.ste := by rfl
@[simp] theorem onSce_sce : (b.onSce f).sce = f b.sce := by rfl
@[simp] theorem onSce_dge : (b.onSce f).dge = b.dge := by rfl
@[simp] theorem onSce_pke : (b.onSce f).pke = b.pke := by rfl
@[simp] theorem onSce_rng : (b.onSce f).rng = b.rng := by rfl
@[simp] theorem onSce_key : (b.onSce f).key = b.key := by rfl
@[simp] theorem onSce_bbram : (b.onSce f).bbram = b.bbram := by rfl
@[simp] theorem onSce_evr : (b.onSce f).evr = b.evr := by rfl
@[simp] theorem onSce_dev : (b.onSce f).dev = b.dev := by rfl
@[simp] theorem onSce_pins : (b.onSce f).pins = b.pins := by rfl
@[simp] theorem onSce_pwr : (b.onSce f).pwr = b.pwr := by rfl
@[simp] theorem onSce_kept : (b.onSce f).kept = b.kept := by rfl
@[simp] theorem onSce_kpr : (b.onSce f).kpr = b.kpr := by rfl
@[simp] theorem onSce_sup : (b.onSce f).sup = b.sup := by rfl
@[simp] theorem onSce_tmp : (b.onSce f).tmp = b.tmp := by rfl
@[simp] theorem onSce_otp : (b.onSce f).otp = b.otp := by rfl
@[simp] theorem onSce_boot : (b.onSce f).boot = b.boot := by rfl
@[simp] theorem onSce_flt : (b.onSce f).flt = b.flt := by rfl
@[simp] theorem onSce_rcd : (b.onSce f).rcd = b.rcd := by rfl
@[simp] theorem onSce_wdg : (b.onSce f).wdg = b.wdg := by rfl
@[simp] theorem onSce_leg : (b.onSce f).leg = b.leg := by rfl
@[simp] theorem onSce_mon : (b.onSce f).mon = b.mon := by rfl
@[simp] theorem onSce_sb : (b.onSce f).sb = b.sb := by rfl
@[simp] theorem onSce_out : (b.onSce f).out = b.out := by rfl
end

section
variable (f : DigestSt → DigestSt)
@[simp] theorem onDge_run : (b.onDge f).run = b.run := by rfl
@[simp] theorem onDge_time : (b.onDge f).time = b.time := by rfl
@[simp] theorem onDge_link : (b.onDge f).link = b.link := by rfl
@[simp] theorem onDge_q : (b.onDge f).q = b.q := by rfl
@[simp] theorem onDge_work : (b.onDge f).work = b.work := by rfl
@[simp] theorem onDge_vlt : (b.onDge f).vlt = b.vlt := by rfl
@[simp] theorem onDge_ste : (b.onDge f).ste = b.ste := by rfl
@[simp] theorem onDge_sce : (b.onDge f).sce = b.sce := by rfl
@[simp] theorem onDge_dge : (b.onDge f).dge = f b.dge := by rfl
@[simp] theorem onDge_pke : (b.onDge f).pke = b.pke := by rfl
@[simp] theorem onDge_rng : (b.onDge f).rng = b.rng := by rfl
@[simp] theorem onDge_key : (b.onDge f).key = b.key := by rfl
@[simp] theorem onDge_bbram : (b.onDge f).bbram = b.bbram := by rfl
@[simp] theorem onDge_evr : (b.onDge f).evr = b.evr := by rfl
@[simp] theorem onDge_dev : (b.onDge f).dev = b.dev := by rfl
@[simp] theorem onDge_pins : (b.onDge f).pins = b.pins := by rfl
@[simp] theorem onDge_pwr : (b.onDge f).pwr = b.pwr := by rfl
@[simp] theorem onDge_kept : (b.onDge f).kept = b.kept := by rfl
@[simp] theorem onDge_kpr : (b.onDge f).kpr = b.kpr := by rfl
@[simp] theorem onDge_sup : (b.onDge f).sup = b.sup := by rfl
@[simp] theorem onDge_tmp : (b.onDge f).tmp = b.tmp := by rfl
@[simp] theorem onDge_otp : (b.onDge f).otp = b.otp := by rfl
@[simp] theorem onDge_boot : (b.onDge f).boot = b.boot := by rfl
@[simp] theorem onDge_flt : (b.onDge f).flt = b.flt := by rfl
@[simp] theorem onDge_rcd : (b.onDge f).rcd = b.rcd := by rfl
@[simp] theorem onDge_wdg : (b.onDge f).wdg = b.wdg := by rfl
@[simp] theorem onDge_leg : (b.onDge f).leg = b.leg := by rfl
@[simp] theorem onDge_mon : (b.onDge f).mon = b.mon := by rfl
@[simp] theorem onDge_sb : (b.onDge f).sb = b.sb := by rfl
@[simp] theorem onDge_out : (b.onDge f).out = b.out := by rfl
end

section
variable (f : PkeSt → PkeSt)
@[simp] theorem onPke_run : (b.onPke f).run = b.run := by rfl
@[simp] theorem onPke_time : (b.onPke f).time = b.time := by rfl
@[simp] theorem onPke_link : (b.onPke f).link = b.link := by rfl
@[simp] theorem onPke_q : (b.onPke f).q = b.q := by rfl
@[simp] theorem onPke_work : (b.onPke f).work = b.work := by rfl
@[simp] theorem onPke_vlt : (b.onPke f).vlt = b.vlt := by rfl
@[simp] theorem onPke_ste : (b.onPke f).ste = b.ste := by rfl
@[simp] theorem onPke_sce : (b.onPke f).sce = b.sce := by rfl
@[simp] theorem onPke_dge : (b.onPke f).dge = b.dge := by rfl
@[simp] theorem onPke_pke : (b.onPke f).pke = f b.pke := by rfl
@[simp] theorem onPke_rng : (b.onPke f).rng = b.rng := by rfl
@[simp] theorem onPke_key : (b.onPke f).key = b.key := by rfl
@[simp] theorem onPke_bbram : (b.onPke f).bbram = b.bbram := by rfl
@[simp] theorem onPke_evr : (b.onPke f).evr = b.evr := by rfl
@[simp] theorem onPke_dev : (b.onPke f).dev = b.dev := by rfl
@[simp] theorem onPke_pins : (b.onPke f).pins = b.pins := by rfl
@[simp] theorem onPke_pwr : (b.onPke f).pwr = b.pwr := by rfl
@[simp] theorem onPke_kept : (b.onPke f).kept = b.kept := by rfl
@[simp] theorem onPke_kpr : (b.onPke f).kpr = b.kpr := by rfl
@[simp] theorem onPke_sup : (b.onPke f).sup = b.sup := by rfl
@[simp] theorem onPke_tmp : (b.onPke f).tmp = b.tmp := by rfl
@[simp] theorem onPke_otp : (b.onPke f).otp = b.otp := by rfl
@[simp] theorem onPke_boot : (b.onPke f).boot = b.boot := by rfl
@[simp] theorem onPke_flt : (b.onPke f).flt = b.flt := by rfl
@[simp] theorem onPke_rcd : (b.onPke f).rcd = b.rcd := by rfl
@[simp] theorem onPke_wdg : (b.onPke f).wdg = b.wdg := by rfl
@[simp] theorem onPke_leg : (b.onPke f).leg = b.leg := by rfl
@[simp] theorem onPke_mon : (b.onPke f).mon = b.mon := by rfl
@[simp] theorem onPke_sb : (b.onPke f).sb = b.sb := by rfl
@[simp] theorem onPke_out : (b.onPke f).out = b.out := by rfl
end

section
variable (f : RngSt → RngSt)
@[simp] theorem onRng_run : (b.onRng f).run = b.run := by rfl
@[simp] theorem onRng_time : (b.onRng f).time = b.time := by rfl
@[simp] theorem onRng_link : (b.onRng f).link = b.link := by rfl
@[simp] theorem onRng_q : (b.onRng f).q = b.q := by rfl
@[simp] theorem onRng_work : (b.onRng f).work = b.work := by rfl
@[simp] theorem onRng_vlt : (b.onRng f).vlt = b.vlt := by rfl
@[simp] theorem onRng_ste : (b.onRng f).ste = b.ste := by rfl
@[simp] theorem onRng_sce : (b.onRng f).sce = b.sce := by rfl
@[simp] theorem onRng_dge : (b.onRng f).dge = b.dge := by rfl
@[simp] theorem onRng_pke : (b.onRng f).pke = b.pke := by rfl
@[simp] theorem onRng_rng : (b.onRng f).rng = f b.rng := by rfl
@[simp] theorem onRng_key : (b.onRng f).key = b.key := by rfl
@[simp] theorem onRng_bbram : (b.onRng f).bbram = b.bbram := by rfl
@[simp] theorem onRng_evr : (b.onRng f).evr = b.evr := by rfl
@[simp] theorem onRng_dev : (b.onRng f).dev = b.dev := by rfl
@[simp] theorem onRng_pins : (b.onRng f).pins = b.pins := by rfl
@[simp] theorem onRng_pwr : (b.onRng f).pwr = b.pwr := by rfl
@[simp] theorem onRng_kept : (b.onRng f).kept = b.kept := by rfl
@[simp] theorem onRng_kpr : (b.onRng f).kpr = b.kpr := by rfl
@[simp] theorem onRng_sup : (b.onRng f).sup = b.sup := by rfl
@[simp] theorem onRng_tmp : (b.onRng f).tmp = b.tmp := by rfl
@[simp] theorem onRng_otp : (b.onRng f).otp = b.otp := by rfl
@[simp] theorem onRng_boot : (b.onRng f).boot = b.boot := by rfl
@[simp] theorem onRng_flt : (b.onRng f).flt = b.flt := by rfl
@[simp] theorem onRng_rcd : (b.onRng f).rcd = b.rcd := by rfl
@[simp] theorem onRng_wdg : (b.onRng f).wdg = b.wdg := by rfl
@[simp] theorem onRng_leg : (b.onRng f).leg = b.leg := by rfl
@[simp] theorem onRng_mon : (b.onRng f).mon = b.mon := by rfl
@[simp] theorem onRng_sb : (b.onRng f).sb = b.sb := by rfl
@[simp] theorem onRng_out : (b.onRng f).out = b.out := by rfl
end

section
variable (f : KeySt → KeySt)
@[simp] theorem onKey_run : (b.onKey f).run = b.run := by rfl
@[simp] theorem onKey_time : (b.onKey f).time = b.time := by rfl
@[simp] theorem onKey_link : (b.onKey f).link = b.link := by rfl
@[simp] theorem onKey_q : (b.onKey f).q = b.q := by rfl
@[simp] theorem onKey_work : (b.onKey f).work = b.work := by rfl
@[simp] theorem onKey_vlt : (b.onKey f).vlt = b.vlt := by rfl
@[simp] theorem onKey_ste : (b.onKey f).ste = b.ste := by rfl
@[simp] theorem onKey_sce : (b.onKey f).sce = b.sce := by rfl
@[simp] theorem onKey_dge : (b.onKey f).dge = b.dge := by rfl
@[simp] theorem onKey_pke : (b.onKey f).pke = b.pke := by rfl
@[simp] theorem onKey_rng : (b.onKey f).rng = b.rng := by rfl
@[simp] theorem onKey_key : (b.onKey f).key = f b.key := by rfl
@[simp] theorem onKey_bbram : (b.onKey f).bbram = b.bbram := by rfl
@[simp] theorem onKey_evr : (b.onKey f).evr = b.evr := by rfl
@[simp] theorem onKey_dev : (b.onKey f).dev = b.dev := by rfl
@[simp] theorem onKey_pins : (b.onKey f).pins = b.pins := by rfl
@[simp] theorem onKey_pwr : (b.onKey f).pwr = b.pwr := by rfl
@[simp] theorem onKey_kept : (b.onKey f).kept = b.kept := by rfl
@[simp] theorem onKey_kpr : (b.onKey f).kpr = b.kpr := by rfl
@[simp] theorem onKey_sup : (b.onKey f).sup = b.sup := by rfl
@[simp] theorem onKey_tmp : (b.onKey f).tmp = b.tmp := by rfl
@[simp] theorem onKey_otp : (b.onKey f).otp = b.otp := by rfl
@[simp] theorem onKey_boot : (b.onKey f).boot = b.boot := by rfl
@[simp] theorem onKey_flt : (b.onKey f).flt = b.flt := by rfl
@[simp] theorem onKey_rcd : (b.onKey f).rcd = b.rcd := by rfl
@[simp] theorem onKey_wdg : (b.onKey f).wdg = b.wdg := by rfl
@[simp] theorem onKey_leg : (b.onKey f).leg = b.leg := by rfl
@[simp] theorem onKey_mon : (b.onKey f).mon = b.mon := by rfl
@[simp] theorem onKey_sb : (b.onKey f).sb = b.sb := by rfl
@[simp] theorem onKey_out : (b.onKey f).out = b.out := by rfl
end

section
variable (f : BbramSt → BbramSt)
@[simp] theorem onBbram_run : (b.onBbram f).run = b.run := by rfl
@[simp] theorem onBbram_time : (b.onBbram f).time = b.time := by rfl
@[simp] theorem onBbram_link : (b.onBbram f).link = b.link := by rfl
@[simp] theorem onBbram_q : (b.onBbram f).q = b.q := by rfl
@[simp] theorem onBbram_work : (b.onBbram f).work = b.work := by rfl
@[simp] theorem onBbram_vlt : (b.onBbram f).vlt = b.vlt := by rfl
@[simp] theorem onBbram_ste : (b.onBbram f).ste = b.ste := by rfl
@[simp] theorem onBbram_sce : (b.onBbram f).sce = b.sce := by rfl
@[simp] theorem onBbram_dge : (b.onBbram f).dge = b.dge := by rfl
@[simp] theorem onBbram_pke : (b.onBbram f).pke = b.pke := by rfl
@[simp] theorem onBbram_rng : (b.onBbram f).rng = b.rng := by rfl
@[simp] theorem onBbram_key : (b.onBbram f).key = b.key := by rfl
@[simp] theorem onBbram_bbram : (b.onBbram f).bbram = f b.bbram := by rfl
@[simp] theorem onBbram_evr : (b.onBbram f).evr = b.evr := by rfl
@[simp] theorem onBbram_dev : (b.onBbram f).dev = b.dev := by rfl
@[simp] theorem onBbram_pins : (b.onBbram f).pins = b.pins := by rfl
@[simp] theorem onBbram_pwr : (b.onBbram f).pwr = b.pwr := by rfl
@[simp] theorem onBbram_kept : (b.onBbram f).kept = b.kept := by rfl
@[simp] theorem onBbram_kpr : (b.onBbram f).kpr = b.kpr := by rfl
@[simp] theorem onBbram_sup : (b.onBbram f).sup = b.sup := by rfl
@[simp] theorem onBbram_tmp : (b.onBbram f).tmp = b.tmp := by rfl
@[simp] theorem onBbram_otp : (b.onBbram f).otp = b.otp := by rfl
@[simp] theorem onBbram_boot : (b.onBbram f).boot = b.boot := by rfl
@[simp] theorem onBbram_flt : (b.onBbram f).flt = b.flt := by rfl
@[simp] theorem onBbram_rcd : (b.onBbram f).rcd = b.rcd := by rfl
@[simp] theorem onBbram_wdg : (b.onBbram f).wdg = b.wdg := by rfl
@[simp] theorem onBbram_leg : (b.onBbram f).leg = b.leg := by rfl
@[simp] theorem onBbram_mon : (b.onBbram f).mon = b.mon := by rfl
@[simp] theorem onBbram_sb : (b.onBbram f).sb = b.sb := by rfl
@[simp] theorem onBbram_out : (b.onBbram f).out = b.out := by rfl
end

section
variable (f : RecorderSt → RecorderSt)
@[simp] theorem onEvr_run : (b.onEvr f).run = b.run := by rfl
@[simp] theorem onEvr_time : (b.onEvr f).time = b.time := by rfl
@[simp] theorem onEvr_link : (b.onEvr f).link = b.link := by rfl
@[simp] theorem onEvr_q : (b.onEvr f).q = b.q := by rfl
@[simp] theorem onEvr_work : (b.onEvr f).work = b.work := by rfl
@[simp] theorem onEvr_vlt : (b.onEvr f).vlt = b.vlt := by rfl
@[simp] theorem onEvr_ste : (b.onEvr f).ste = b.ste := by rfl
@[simp] theorem onEvr_sce : (b.onEvr f).sce = b.sce := by rfl
@[simp] theorem onEvr_dge : (b.onEvr f).dge = b.dge := by rfl
@[simp] theorem onEvr_pke : (b.onEvr f).pke = b.pke := by rfl
@[simp] theorem onEvr_rng : (b.onEvr f).rng = b.rng := by rfl
@[simp] theorem onEvr_key : (b.onEvr f).key = b.key := by rfl
@[simp] theorem onEvr_bbram : (b.onEvr f).bbram = b.bbram := by rfl
@[simp] theorem onEvr_evr : (b.onEvr f).evr = f b.evr := by rfl
@[simp] theorem onEvr_dev : (b.onEvr f).dev = b.dev := by rfl
@[simp] theorem onEvr_pins : (b.onEvr f).pins = b.pins := by rfl
@[simp] theorem onEvr_pwr : (b.onEvr f).pwr = b.pwr := by rfl
@[simp] theorem onEvr_kept : (b.onEvr f).kept = b.kept := by rfl
@[simp] theorem onEvr_kpr : (b.onEvr f).kpr = b.kpr := by rfl
@[simp] theorem onEvr_sup : (b.onEvr f).sup = b.sup := by rfl
@[simp] theorem onEvr_tmp : (b.onEvr f).tmp = b.tmp := by rfl
@[simp] theorem onEvr_otp : (b.onEvr f).otp = b.otp := by rfl
@[simp] theorem onEvr_boot : (b.onEvr f).boot = b.boot := by rfl
@[simp] theorem onEvr_flt : (b.onEvr f).flt = b.flt := by rfl
@[simp] theorem onEvr_rcd : (b.onEvr f).rcd = b.rcd := by rfl
@[simp] theorem onEvr_wdg : (b.onEvr f).wdg = b.wdg := by rfl
@[simp] theorem onEvr_leg : (b.onEvr f).leg = b.leg := by rfl
@[simp] theorem onEvr_mon : (b.onEvr f).mon = b.mon := by rfl
@[simp] theorem onEvr_sb : (b.onEvr f).sb = b.sb := by rfl
@[simp] theorem onEvr_out : (b.onEvr f).out = b.out := by rfl
end

section
variable (f : DevSt → DevSt)
@[simp] theorem onDev_run : (b.onDev f).run = b.run := by rfl
@[simp] theorem onDev_time : (b.onDev f).time = b.time := by rfl
@[simp] theorem onDev_link : (b.onDev f).link = b.link := by rfl
@[simp] theorem onDev_q : (b.onDev f).q = b.q := by rfl
@[simp] theorem onDev_work : (b.onDev f).work = b.work := by rfl
@[simp] theorem onDev_vlt : (b.onDev f).vlt = b.vlt := by rfl
@[simp] theorem onDev_ste : (b.onDev f).ste = b.ste := by rfl
@[simp] theorem onDev_sce : (b.onDev f).sce = b.sce := by rfl
@[simp] theorem onDev_dge : (b.onDev f).dge = b.dge := by rfl
@[simp] theorem onDev_pke : (b.onDev f).pke = b.pke := by rfl
@[simp] theorem onDev_rng : (b.onDev f).rng = b.rng := by rfl
@[simp] theorem onDev_key : (b.onDev f).key = b.key := by rfl
@[simp] theorem onDev_bbram : (b.onDev f).bbram = b.bbram := by rfl
@[simp] theorem onDev_evr : (b.onDev f).evr = b.evr := by rfl
@[simp] theorem onDev_dev : (b.onDev f).dev = f b.dev := by rfl
@[simp] theorem onDev_pins : (b.onDev f).pins = b.pins := by rfl
@[simp] theorem onDev_pwr : (b.onDev f).pwr = b.pwr := by rfl
@[simp] theorem onDev_kept : (b.onDev f).kept = b.kept := by rfl
@[simp] theorem onDev_kpr : (b.onDev f).kpr = b.kpr := by rfl
@[simp] theorem onDev_sup : (b.onDev f).sup = b.sup := by rfl
@[simp] theorem onDev_tmp : (b.onDev f).tmp = b.tmp := by rfl
@[simp] theorem onDev_otp : (b.onDev f).otp = b.otp := by rfl
@[simp] theorem onDev_boot : (b.onDev f).boot = b.boot := by rfl
@[simp] theorem onDev_flt : (b.onDev f).flt = b.flt := by rfl
@[simp] theorem onDev_rcd : (b.onDev f).rcd = b.rcd := by rfl
@[simp] theorem onDev_wdg : (b.onDev f).wdg = b.wdg := by rfl
@[simp] theorem onDev_leg : (b.onDev f).leg = b.leg := by rfl
@[simp] theorem onDev_mon : (b.onDev f).mon = b.mon := by rfl
@[simp] theorem onDev_sb : (b.onDev f).sb = b.sb := by rfl
@[simp] theorem onDev_out : (b.onDev f).out = b.out := by rfl
end

section
variable (f : PinSt → PinSt)
@[simp] theorem onPins_run : (b.onPins f).run = b.run := by rfl
@[simp] theorem onPins_time : (b.onPins f).time = b.time := by rfl
@[simp] theorem onPins_link : (b.onPins f).link = b.link := by rfl
@[simp] theorem onPins_q : (b.onPins f).q = b.q := by rfl
@[simp] theorem onPins_work : (b.onPins f).work = b.work := by rfl
@[simp] theorem onPins_vlt : (b.onPins f).vlt = b.vlt := by rfl
@[simp] theorem onPins_ste : (b.onPins f).ste = b.ste := by rfl
@[simp] theorem onPins_sce : (b.onPins f).sce = b.sce := by rfl
@[simp] theorem onPins_dge : (b.onPins f).dge = b.dge := by rfl
@[simp] theorem onPins_pke : (b.onPins f).pke = b.pke := by rfl
@[simp] theorem onPins_rng : (b.onPins f).rng = b.rng := by rfl
@[simp] theorem onPins_key : (b.onPins f).key = b.key := by rfl
@[simp] theorem onPins_bbram : (b.onPins f).bbram = b.bbram := by rfl
@[simp] theorem onPins_evr : (b.onPins f).evr = b.evr := by rfl
@[simp] theorem onPins_dev : (b.onPins f).dev = b.dev := by rfl
@[simp] theorem onPins_pins : (b.onPins f).pins = f b.pins := by rfl
@[simp] theorem onPins_pwr : (b.onPins f).pwr = b.pwr := by rfl
@[simp] theorem onPins_kept : (b.onPins f).kept = b.kept := by rfl
@[simp] theorem onPins_kpr : (b.onPins f).kpr = b.kpr := by rfl
@[simp] theorem onPins_sup : (b.onPins f).sup = b.sup := by rfl
@[simp] theorem onPins_tmp : (b.onPins f).tmp = b.tmp := by rfl
@[simp] theorem onPins_otp : (b.onPins f).otp = b.otp := by rfl
@[simp] theorem onPins_boot : (b.onPins f).boot = b.boot := by rfl
@[simp] theorem onPins_flt : (b.onPins f).flt = b.flt := by rfl
@[simp] theorem onPins_rcd : (b.onPins f).rcd = b.rcd := by rfl
@[simp] theorem onPins_wdg : (b.onPins f).wdg = b.wdg := by rfl
@[simp] theorem onPins_leg : (b.onPins f).leg = b.leg := by rfl
@[simp] theorem onPins_mon : (b.onPins f).mon = b.mon := by rfl
@[simp] theorem onPins_sb : (b.onPins f).sb = b.sb := by rfl
@[simp] theorem onPins_out : (b.onPins f).out = b.out := by rfl
end

section
variable (f : PowerSt → PowerSt)
@[simp] theorem onPwr_run : (b.onPwr f).run = b.run := by rfl
@[simp] theorem onPwr_time : (b.onPwr f).time = b.time := by rfl
@[simp] theorem onPwr_link : (b.onPwr f).link = b.link := by rfl
@[simp] theorem onPwr_q : (b.onPwr f).q = b.q := by rfl
@[simp] theorem onPwr_work : (b.onPwr f).work = b.work := by rfl
@[simp] theorem onPwr_vlt : (b.onPwr f).vlt = b.vlt := by rfl
@[simp] theorem onPwr_ste : (b.onPwr f).ste = b.ste := by rfl
@[simp] theorem onPwr_sce : (b.onPwr f).sce = b.sce := by rfl
@[simp] theorem onPwr_dge : (b.onPwr f).dge = b.dge := by rfl
@[simp] theorem onPwr_pke : (b.onPwr f).pke = b.pke := by rfl
@[simp] theorem onPwr_rng : (b.onPwr f).rng = b.rng := by rfl
@[simp] theorem onPwr_key : (b.onPwr f).key = b.key := by rfl
@[simp] theorem onPwr_bbram : (b.onPwr f).bbram = b.bbram := by rfl
@[simp] theorem onPwr_evr : (b.onPwr f).evr = b.evr := by rfl
@[simp] theorem onPwr_dev : (b.onPwr f).dev = b.dev := by rfl
@[simp] theorem onPwr_pins : (b.onPwr f).pins = b.pins := by rfl
@[simp] theorem onPwr_pwr : (b.onPwr f).pwr = f b.pwr := by rfl
@[simp] theorem onPwr_kept : (b.onPwr f).kept = b.kept := by rfl
@[simp] theorem onPwr_kpr : (b.onPwr f).kpr = b.kpr := by rfl
@[simp] theorem onPwr_sup : (b.onPwr f).sup = b.sup := by rfl
@[simp] theorem onPwr_tmp : (b.onPwr f).tmp = b.tmp := by rfl
@[simp] theorem onPwr_otp : (b.onPwr f).otp = b.otp := by rfl
@[simp] theorem onPwr_boot : (b.onPwr f).boot = b.boot := by rfl
@[simp] theorem onPwr_flt : (b.onPwr f).flt = b.flt := by rfl
@[simp] theorem onPwr_rcd : (b.onPwr f).rcd = b.rcd := by rfl
@[simp] theorem onPwr_wdg : (b.onPwr f).wdg = b.wdg := by rfl
@[simp] theorem onPwr_leg : (b.onPwr f).leg = b.leg := by rfl
@[simp] theorem onPwr_mon : (b.onPwr f).mon = b.mon := by rfl
@[simp] theorem onPwr_sb : (b.onPwr f).sb = b.sb := by rfl
@[simp] theorem onPwr_out : (b.onPwr f).out = b.out := by rfl
end

section
variable (f : RetainedSt → RetainedSt)
@[simp] theorem onKept_run : (b.onKept f).run = b.run := by rfl
@[simp] theorem onKept_time : (b.onKept f).time = b.time := by rfl
@[simp] theorem onKept_link : (b.onKept f).link = b.link := by rfl
@[simp] theorem onKept_q : (b.onKept f).q = b.q := by rfl
@[simp] theorem onKept_work : (b.onKept f).work = b.work := by rfl
@[simp] theorem onKept_vlt : (b.onKept f).vlt = b.vlt := by rfl
@[simp] theorem onKept_ste : (b.onKept f).ste = b.ste := by rfl
@[simp] theorem onKept_sce : (b.onKept f).sce = b.sce := by rfl
@[simp] theorem onKept_dge : (b.onKept f).dge = b.dge := by rfl
@[simp] theorem onKept_pke : (b.onKept f).pke = b.pke := by rfl
@[simp] theorem onKept_rng : (b.onKept f).rng = b.rng := by rfl
@[simp] theorem onKept_key : (b.onKept f).key = b.key := by rfl
@[simp] theorem onKept_bbram : (b.onKept f).bbram = b.bbram := by rfl
@[simp] theorem onKept_evr : (b.onKept f).evr = b.evr := by rfl
@[simp] theorem onKept_dev : (b.onKept f).dev = b.dev := by rfl
@[simp] theorem onKept_pins : (b.onKept f).pins = b.pins := by rfl
@[simp] theorem onKept_pwr : (b.onKept f).pwr = b.pwr := by rfl
@[simp] theorem onKept_kept : (b.onKept f).kept = f b.kept := by rfl
@[simp] theorem onKept_kpr : (b.onKept f).kpr = b.kpr := by rfl
@[simp] theorem onKept_sup : (b.onKept f).sup = b.sup := by rfl
@[simp] theorem onKept_tmp : (b.onKept f).tmp = b.tmp := by rfl
@[simp] theorem onKept_otp : (b.onKept f).otp = b.otp := by rfl
@[simp] theorem onKept_boot : (b.onKept f).boot = b.boot := by rfl
@[simp] theorem onKept_flt : (b.onKept f).flt = b.flt := by rfl
@[simp] theorem onKept_rcd : (b.onKept f).rcd = b.rcd := by rfl
@[simp] theorem onKept_wdg : (b.onKept f).wdg = b.wdg := by rfl
@[simp] theorem onKept_leg : (b.onKept f).leg = b.leg := by rfl
@[simp] theorem onKept_mon : (b.onKept f).mon = b.mon := by rfl
@[simp] theorem onKept_sb : (b.onKept f).sb = b.sb := by rfl
@[simp] theorem onKept_out : (b.onKept f).out = b.out := by rfl
end

section
variable (f : KeeperSt → KeeperSt)
@[simp] theorem onKpr_run : (b.onKpr f).run = b.run := by rfl
@[simp] theorem onKpr_time : (b.onKpr f).time = b.time := by rfl
@[simp] theorem onKpr_link : (b.onKpr f).link = b.link := by rfl
@[simp] theorem onKpr_q : (b.onKpr f).q = b.q := by rfl
@[simp] theorem onKpr_work : (b.onKpr f).work = b.work := by rfl
@[simp] theorem onKpr_vlt : (b.onKpr f).vlt = b.vlt := by rfl
@[simp] theorem onKpr_ste : (b.onKpr f).ste = b.ste := by rfl
@[simp] theorem onKpr_sce : (b.onKpr f).sce = b.sce := by rfl
@[simp] theorem onKpr_dge : (b.onKpr f).dge = b.dge := by rfl
@[simp] theorem onKpr_pke : (b.onKpr f).pke = b.pke := by rfl
@[simp] theorem onKpr_rng : (b.onKpr f).rng = b.rng := by rfl
@[simp] theorem onKpr_key : (b.onKpr f).key = b.key := by rfl
@[simp] theorem onKpr_bbram : (b.onKpr f).bbram = b.bbram := by rfl
@[simp] theorem onKpr_evr : (b.onKpr f).evr = b.evr := by rfl
@[simp] theorem onKpr_dev : (b.onKpr f).dev = b.dev := by rfl
@[simp] theorem onKpr_pins : (b.onKpr f).pins = b.pins := by rfl
@[simp] theorem onKpr_pwr : (b.onKpr f).pwr = b.pwr := by rfl
@[simp] theorem onKpr_kept : (b.onKpr f).kept = b.kept := by rfl
@[simp] theorem onKpr_kpr : (b.onKpr f).kpr = f b.kpr := by rfl
@[simp] theorem onKpr_sup : (b.onKpr f).sup = b.sup := by rfl
@[simp] theorem onKpr_tmp : (b.onKpr f).tmp = b.tmp := by rfl
@[simp] theorem onKpr_otp : (b.onKpr f).otp = b.otp := by rfl
@[simp] theorem onKpr_boot : (b.onKpr f).boot = b.boot := by rfl
@[simp] theorem onKpr_flt : (b.onKpr f).flt = b.flt := by rfl
@[simp] theorem onKpr_rcd : (b.onKpr f).rcd = b.rcd := by rfl
@[simp] theorem onKpr_wdg : (b.onKpr f).wdg = b.wdg := by rfl
@[simp] theorem onKpr_leg : (b.onKpr f).leg = b.leg := by rfl
@[simp] theorem onKpr_mon : (b.onKpr f).mon = b.mon := by rfl
@[simp] theorem onKpr_sb : (b.onKpr f).sb = b.sb := by rfl
@[simp] theorem onKpr_out : (b.onKpr f).out = b.out := by rfl
end

section
variable (f : SupplySt → SupplySt)
@[simp] theorem onSup_run : (b.onSup f).run = b.run := by rfl
@[simp] theorem onSup_time : (b.onSup f).time = b.time := by rfl
@[simp] theorem onSup_link : (b.onSup f).link = b.link := by rfl
@[simp] theorem onSup_q : (b.onSup f).q = b.q := by rfl
@[simp] theorem onSup_work : (b.onSup f).work = b.work := by rfl
@[simp] theorem onSup_vlt : (b.onSup f).vlt = b.vlt := by rfl
@[simp] theorem onSup_ste : (b.onSup f).ste = b.ste := by rfl
@[simp] theorem onSup_sce : (b.onSup f).sce = b.sce := by rfl
@[simp] theorem onSup_dge : (b.onSup f).dge = b.dge := by rfl
@[simp] theorem onSup_pke : (b.onSup f).pke = b.pke := by rfl
@[simp] theorem onSup_rng : (b.onSup f).rng = b.rng := by rfl
@[simp] theorem onSup_key : (b.onSup f).key = b.key := by rfl
@[simp] theorem onSup_bbram : (b.onSup f).bbram = b.bbram := by rfl
@[simp] theorem onSup_evr : (b.onSup f).evr = b.evr := by rfl
@[simp] theorem onSup_dev : (b.onSup f).dev = b.dev := by rfl
@[simp] theorem onSup_pins : (b.onSup f).pins = b.pins := by rfl
@[simp] theorem onSup_pwr : (b.onSup f).pwr = b.pwr := by rfl
@[simp] theorem onSup_kept : (b.onSup f).kept = b.kept := by rfl
@[simp] theorem onSup_kpr : (b.onSup f).kpr = b.kpr := by rfl
@[simp] theorem onSup_sup : (b.onSup f).sup = f b.sup := by rfl
@[simp] theorem onSup_tmp : (b.onSup f).tmp = b.tmp := by rfl
@[simp] theorem onSup_otp : (b.onSup f).otp = b.otp := by rfl
@[simp] theorem onSup_boot : (b.onSup f).boot = b.boot := by rfl
@[simp] theorem onSup_flt : (b.onSup f).flt = b.flt := by rfl
@[simp] theorem onSup_rcd : (b.onSup f).rcd = b.rcd := by rfl
@[simp] theorem onSup_wdg : (b.onSup f).wdg = b.wdg := by rfl
@[simp] theorem onSup_leg : (b.onSup f).leg = b.leg := by rfl
@[simp] theorem onSup_mon : (b.onSup f).mon = b.mon := by rfl
@[simp] theorem onSup_sb : (b.onSup f).sb = b.sb := by rfl
@[simp] theorem onSup_out : (b.onSup f).out = b.out := by rfl
end

section
variable (f : TamperSt → TamperSt)
@[simp] theorem onTmp_run : (b.onTmp f).run = b.run := by rfl
@[simp] theorem onTmp_time : (b.onTmp f).time = b.time := by rfl
@[simp] theorem onTmp_link : (b.onTmp f).link = b.link := by rfl
@[simp] theorem onTmp_q : (b.onTmp f).q = b.q := by rfl
@[simp] theorem onTmp_work : (b.onTmp f).work = b.work := by rfl
@[simp] theorem onTmp_vlt : (b.onTmp f).vlt = b.vlt := by rfl
@[simp] theorem onTmp_ste : (b.onTmp f).ste = b.ste := by rfl
@[simp] theorem onTmp_sce : (b.onTmp f).sce = b.sce := by rfl
@[simp] theorem onTmp_dge : (b.onTmp f).dge = b.dge := by rfl
@[simp] theorem onTmp_pke : (b.onTmp f).pke = b.pke := by rfl
@[simp] theorem onTmp_rng : (b.onTmp f).rng = b.rng := by rfl
@[simp] theorem onTmp_key : (b.onTmp f).key = b.key := by rfl
@[simp] theorem onTmp_bbram : (b.onTmp f).bbram = b.bbram := by rfl
@[simp] theorem onTmp_evr : (b.onTmp f).evr = b.evr := by rfl
@[simp] theorem onTmp_dev : (b.onTmp f).dev = b.dev := by rfl
@[simp] theorem onTmp_pins : (b.onTmp f).pins = b.pins := by rfl
@[simp] theorem onTmp_pwr : (b.onTmp f).pwr = b.pwr := by rfl
@[simp] theorem onTmp_kept : (b.onTmp f).kept = b.kept := by rfl
@[simp] theorem onTmp_kpr : (b.onTmp f).kpr = b.kpr := by rfl
@[simp] theorem onTmp_sup : (b.onTmp f).sup = b.sup := by rfl
@[simp] theorem onTmp_tmp : (b.onTmp f).tmp = f b.tmp := by rfl
@[simp] theorem onTmp_otp : (b.onTmp f).otp = b.otp := by rfl
@[simp] theorem onTmp_boot : (b.onTmp f).boot = b.boot := by rfl
@[simp] theorem onTmp_flt : (b.onTmp f).flt = b.flt := by rfl
@[simp] theorem onTmp_rcd : (b.onTmp f).rcd = b.rcd := by rfl
@[simp] theorem onTmp_wdg : (b.onTmp f).wdg = b.wdg := by rfl
@[simp] theorem onTmp_leg : (b.onTmp f).leg = b.leg := by rfl
@[simp] theorem onTmp_mon : (b.onTmp f).mon = b.mon := by rfl
@[simp] theorem onTmp_sb : (b.onTmp f).sb = b.sb := by rfl
@[simp] theorem onTmp_out : (b.onTmp f).out = b.out := by rfl
end

section
variable (f : OtpSt → OtpSt)
@[simp] theorem onOtp_run : (b.onOtp f).run = b.run := by rfl
@[simp] theorem onOtp_time : (b.onOtp f).time = b.time := by rfl
@[simp] theorem onOtp_link : (b.onOtp f).link = b.link := by rfl
@[simp] theorem onOtp_q : (b.onOtp f).q = b.q := by rfl
@[simp] theorem onOtp_work : (b.onOtp f).work = b.work := by rfl
@[simp] theorem onOtp_vlt : (b.onOtp f).vlt = b.vlt := by rfl
@[simp] theorem onOtp_ste : (b.onOtp f).ste = b.ste := by rfl
@[simp] theorem onOtp_sce : (b.onOtp f).sce = b.sce := by rfl
@[simp] theorem onOtp_dge : (b.onOtp f).dge = b.dge := by rfl
@[simp] theorem onOtp_pke : (b.onOtp f).pke = b.pke := by rfl
@[simp] theorem onOtp_rng : (b.onOtp f).rng = b.rng := by rfl
@[simp] theorem onOtp_key : (b.onOtp f).key = b.key := by rfl
@[simp] theorem onOtp_bbram : (b.onOtp f).bbram = b.bbram := by rfl
@[simp] theorem onOtp_evr : (b.onOtp f).evr = b.evr := by rfl
@[simp] theorem onOtp_dev : (b.onOtp f).dev = b.dev := by rfl
@[simp] theorem onOtp_pins : (b.onOtp f).pins = b.pins := by rfl
@[simp] theorem onOtp_pwr : (b.onOtp f).pwr = b.pwr := by rfl
@[simp] theorem onOtp_kept : (b.onOtp f).kept = b.kept := by rfl
@[simp] theorem onOtp_kpr : (b.onOtp f).kpr = b.kpr := by rfl
@[simp] theorem onOtp_sup : (b.onOtp f).sup = b.sup := by rfl
@[simp] theorem onOtp_tmp : (b.onOtp f).tmp = b.tmp := by rfl
@[simp] theorem onOtp_otp : (b.onOtp f).otp = f b.otp := by rfl
@[simp] theorem onOtp_boot : (b.onOtp f).boot = b.boot := by rfl
@[simp] theorem onOtp_flt : (b.onOtp f).flt = b.flt := by rfl
@[simp] theorem onOtp_rcd : (b.onOtp f).rcd = b.rcd := by rfl
@[simp] theorem onOtp_wdg : (b.onOtp f).wdg = b.wdg := by rfl
@[simp] theorem onOtp_leg : (b.onOtp f).leg = b.leg := by rfl
@[simp] theorem onOtp_mon : (b.onOtp f).mon = b.mon := by rfl
@[simp] theorem onOtp_sb : (b.onOtp f).sb = b.sb := by rfl
@[simp] theorem onOtp_out : (b.onOtp f).out = b.out := by rfl
end

section
variable (f : BootSt → BootSt)
@[simp] theorem onBoot_run : (b.onBoot f).run = b.run := by rfl
@[simp] theorem onBoot_time : (b.onBoot f).time = b.time := by rfl
@[simp] theorem onBoot_link : (b.onBoot f).link = b.link := by rfl
@[simp] theorem onBoot_q : (b.onBoot f).q = b.q := by rfl
@[simp] theorem onBoot_work : (b.onBoot f).work = b.work := by rfl
@[simp] theorem onBoot_vlt : (b.onBoot f).vlt = b.vlt := by rfl
@[simp] theorem onBoot_ste : (b.onBoot f).ste = b.ste := by rfl
@[simp] theorem onBoot_sce : (b.onBoot f).sce = b.sce := by rfl
@[simp] theorem onBoot_dge : (b.onBoot f).dge = b.dge := by rfl
@[simp] theorem onBoot_pke : (b.onBoot f).pke = b.pke := by rfl
@[simp] theorem onBoot_rng : (b.onBoot f).rng = b.rng := by rfl
@[simp] theorem onBoot_key : (b.onBoot f).key = b.key := by rfl
@[simp] theorem onBoot_bbram : (b.onBoot f).bbram = b.bbram := by rfl
@[simp] theorem onBoot_evr : (b.onBoot f).evr = b.evr := by rfl
@[simp] theorem onBoot_dev : (b.onBoot f).dev = b.dev := by rfl
@[simp] theorem onBoot_pins : (b.onBoot f).pins = b.pins := by rfl
@[simp] theorem onBoot_pwr : (b.onBoot f).pwr = b.pwr := by rfl
@[simp] theorem onBoot_kept : (b.onBoot f).kept = b.kept := by rfl
@[simp] theorem onBoot_kpr : (b.onBoot f).kpr = b.kpr := by rfl
@[simp] theorem onBoot_sup : (b.onBoot f).sup = b.sup := by rfl
@[simp] theorem onBoot_tmp : (b.onBoot f).tmp = b.tmp := by rfl
@[simp] theorem onBoot_otp : (b.onBoot f).otp = b.otp := by rfl
@[simp] theorem onBoot_boot : (b.onBoot f).boot = f b.boot := by rfl
@[simp] theorem onBoot_flt : (b.onBoot f).flt = b.flt := by rfl
@[simp] theorem onBoot_rcd : (b.onBoot f).rcd = b.rcd := by rfl
@[simp] theorem onBoot_wdg : (b.onBoot f).wdg = b.wdg := by rfl
@[simp] theorem onBoot_leg : (b.onBoot f).leg = b.leg := by rfl
@[simp] theorem onBoot_mon : (b.onBoot f).mon = b.mon := by rfl
@[simp] theorem onBoot_sb : (b.onBoot f).sb = b.sb := by rfl
@[simp] theorem onBoot_out : (b.onBoot f).out = b.out := by rfl
end

section
variable (f : FlashSt → FlashSt)
@[simp] theorem onFlt_run : (b.onFlt f).run = b.run := by rfl
@[simp] theorem onFlt_time : (b.onFlt f).time = b.time := by rfl
@[simp] theorem onFlt_link : (b.onFlt f).link = b.link := by rfl
@[simp] theorem onFlt_q : (b.onFlt f).q = b.q := by rfl
@[simp] theorem onFlt_work : (b.onFlt f).work = b.work := by rfl
@[simp] theorem onFlt_vlt : (b.onFlt f).vlt = b.vlt := by rfl
@[simp] theorem onFlt_ste : (b.onFlt f).ste = b.ste := by rfl
@[simp] theorem onFlt_sce : (b.onFlt f).sce = b.sce := by rfl
@[simp] theorem onFlt_dge : (b.onFlt f).dge = b.dge := by rfl
@[simp] theorem onFlt_pke : (b.onFlt f).pke = b.pke := by rfl
@[simp] theorem onFlt_rng : (b.onFlt f).rng = b.rng := by rfl
@[simp] theorem onFlt_key : (b.onFlt f).key = b.key := by rfl
@[simp] theorem onFlt_bbram : (b.onFlt f).bbram = b.bbram := by rfl
@[simp] theorem onFlt_evr : (b.onFlt f).evr = b.evr := by rfl
@[simp] theorem onFlt_dev : (b.onFlt f).dev = b.dev := by rfl
@[simp] theorem onFlt_pins : (b.onFlt f).pins = b.pins := by rfl
@[simp] theorem onFlt_pwr : (b.onFlt f).pwr = b.pwr := by rfl
@[simp] theorem onFlt_kept : (b.onFlt f).kept = b.kept := by rfl
@[simp] theorem onFlt_kpr : (b.onFlt f).kpr = b.kpr := by rfl
@[simp] theorem onFlt_sup : (b.onFlt f).sup = b.sup := by rfl
@[simp] theorem onFlt_tmp : (b.onFlt f).tmp = b.tmp := by rfl
@[simp] theorem onFlt_otp : (b.onFlt f).otp = b.otp := by rfl
@[simp] theorem onFlt_boot : (b.onFlt f).boot = b.boot := by rfl
@[simp] theorem onFlt_flt : (b.onFlt f).flt = f b.flt := by rfl
@[simp] theorem onFlt_rcd : (b.onFlt f).rcd = b.rcd := by rfl
@[simp] theorem onFlt_wdg : (b.onFlt f).wdg = b.wdg := by rfl
@[simp] theorem onFlt_leg : (b.onFlt f).leg = b.leg := by rfl
@[simp] theorem onFlt_mon : (b.onFlt f).mon = b.mon := by rfl
@[simp] theorem onFlt_sb : (b.onFlt f).sb = b.sb := by rfl
@[simp] theorem onFlt_out : (b.onFlt f).out = b.out := by rfl
end

section
variable (f : RecordSt → RecordSt)
@[simp] theorem onRcd_run : (b.onRcd f).run = b.run := by rfl
@[simp] theorem onRcd_time : (b.onRcd f).time = b.time := by rfl
@[simp] theorem onRcd_link : (b.onRcd f).link = b.link := by rfl
@[simp] theorem onRcd_q : (b.onRcd f).q = b.q := by rfl
@[simp] theorem onRcd_work : (b.onRcd f).work = b.work := by rfl
@[simp] theorem onRcd_vlt : (b.onRcd f).vlt = b.vlt := by rfl
@[simp] theorem onRcd_ste : (b.onRcd f).ste = b.ste := by rfl
@[simp] theorem onRcd_sce : (b.onRcd f).sce = b.sce := by rfl
@[simp] theorem onRcd_dge : (b.onRcd f).dge = b.dge := by rfl
@[simp] theorem onRcd_pke : (b.onRcd f).pke = b.pke := by rfl
@[simp] theorem onRcd_rng : (b.onRcd f).rng = b.rng := by rfl
@[simp] theorem onRcd_key : (b.onRcd f).key = b.key := by rfl
@[simp] theorem onRcd_bbram : (b.onRcd f).bbram = b.bbram := by rfl
@[simp] theorem onRcd_evr : (b.onRcd f).evr = b.evr := by rfl
@[simp] theorem onRcd_dev : (b.onRcd f).dev = b.dev := by rfl
@[simp] theorem onRcd_pins : (b.onRcd f).pins = b.pins := by rfl
@[simp] theorem onRcd_pwr : (b.onRcd f).pwr = b.pwr := by rfl
@[simp] theorem onRcd_kept : (b.onRcd f).kept = b.kept := by rfl
@[simp] theorem onRcd_kpr : (b.onRcd f).kpr = b.kpr := by rfl
@[simp] theorem onRcd_sup : (b.onRcd f).sup = b.sup := by rfl
@[simp] theorem onRcd_tmp : (b.onRcd f).tmp = b.tmp := by rfl
@[simp] theorem onRcd_otp : (b.onRcd f).otp = b.otp := by rfl
@[simp] theorem onRcd_boot : (b.onRcd f).boot = b.boot := by rfl
@[simp] theorem onRcd_flt : (b.onRcd f).flt = b.flt := by rfl
@[simp] theorem onRcd_rcd : (b.onRcd f).rcd = f b.rcd := by rfl
@[simp] theorem onRcd_wdg : (b.onRcd f).wdg = b.wdg := by rfl
@[simp] theorem onRcd_leg : (b.onRcd f).leg = b.leg := by rfl
@[simp] theorem onRcd_mon : (b.onRcd f).mon = b.mon := by rfl
@[simp] theorem onRcd_sb : (b.onRcd f).sb = b.sb := by rfl
@[simp] theorem onRcd_out : (b.onRcd f).out = b.out := by rfl
end

section
variable (f : WdgSt → WdgSt)
@[simp] theorem onWdg_run : (b.onWdg f).run = b.run := by rfl
@[simp] theorem onWdg_time : (b.onWdg f).time = b.time := by rfl
@[simp] theorem onWdg_link : (b.onWdg f).link = b.link := by rfl
@[simp] theorem onWdg_q : (b.onWdg f).q = b.q := by rfl
@[simp] theorem onWdg_work : (b.onWdg f).work = b.work := by rfl
@[simp] theorem onWdg_vlt : (b.onWdg f).vlt = b.vlt := by rfl
@[simp] theorem onWdg_ste : (b.onWdg f).ste = b.ste := by rfl
@[simp] theorem onWdg_sce : (b.onWdg f).sce = b.sce := by rfl
@[simp] theorem onWdg_dge : (b.onWdg f).dge = b.dge := by rfl
@[simp] theorem onWdg_pke : (b.onWdg f).pke = b.pke := by rfl
@[simp] theorem onWdg_rng : (b.onWdg f).rng = b.rng := by rfl
@[simp] theorem onWdg_key : (b.onWdg f).key = b.key := by rfl
@[simp] theorem onWdg_bbram : (b.onWdg f).bbram = b.bbram := by rfl
@[simp] theorem onWdg_evr : (b.onWdg f).evr = b.evr := by rfl
@[simp] theorem onWdg_dev : (b.onWdg f).dev = b.dev := by rfl
@[simp] theorem onWdg_pins : (b.onWdg f).pins = b.pins := by rfl
@[simp] theorem onWdg_pwr : (b.onWdg f).pwr = b.pwr := by rfl
@[simp] theorem onWdg_kept : (b.onWdg f).kept = b.kept := by rfl
@[simp] theorem onWdg_kpr : (b.onWdg f).kpr = b.kpr := by rfl
@[simp] theorem onWdg_sup : (b.onWdg f).sup = b.sup := by rfl
@[simp] theorem onWdg_tmp : (b.onWdg f).tmp = b.tmp := by rfl
@[simp] theorem onWdg_otp : (b.onWdg f).otp = b.otp := by rfl
@[simp] theorem onWdg_boot : (b.onWdg f).boot = b.boot := by rfl
@[simp] theorem onWdg_flt : (b.onWdg f).flt = b.flt := by rfl
@[simp] theorem onWdg_rcd : (b.onWdg f).rcd = b.rcd := by rfl
@[simp] theorem onWdg_wdg : (b.onWdg f).wdg = f b.wdg := by rfl
@[simp] theorem onWdg_leg : (b.onWdg f).leg = b.leg := by rfl
@[simp] theorem onWdg_mon : (b.onWdg f).mon = b.mon := by rfl
@[simp] theorem onWdg_sb : (b.onWdg f).sb = b.sb := by rfl
@[simp] theorem onWdg_out : (b.onWdg f).out = b.out := by rfl
end

section
variable (f : BasicSt → BasicSt)
@[simp] theorem onLeg_run : (b.onLeg f).run = b.run := by rfl
@[simp] theorem onLeg_time : (b.onLeg f).time = b.time := by rfl
@[simp] theorem onLeg_link : (b.onLeg f).link = b.link := by rfl
@[simp] theorem onLeg_q : (b.onLeg f).q = b.q := by rfl
@[simp] theorem onLeg_work : (b.onLeg f).work = b.work := by rfl
@[simp] theorem onLeg_vlt : (b.onLeg f).vlt = b.vlt := by rfl
@[simp] theorem onLeg_ste : (b.onLeg f).ste = b.ste := by rfl
@[simp] theorem onLeg_sce : (b.onLeg f).sce = b.sce := by rfl
@[simp] theorem onLeg_dge : (b.onLeg f).dge = b.dge := by rfl
@[simp] theorem onLeg_pke : (b.onLeg f).pke = b.pke := by rfl
@[simp] theorem onLeg_rng : (b.onLeg f).rng = b.rng := by rfl
@[simp] theorem onLeg_key : (b.onLeg f).key = b.key := by rfl
@[simp] theorem onLeg_bbram : (b.onLeg f).bbram = b.bbram := by rfl
@[simp] theorem onLeg_evr : (b.onLeg f).evr = b.evr := by rfl
@[simp] theorem onLeg_dev : (b.onLeg f).dev = b.dev := by rfl
@[simp] theorem onLeg_pins : (b.onLeg f).pins = b.pins := by rfl
@[simp] theorem onLeg_pwr : (b.onLeg f).pwr = b.pwr := by rfl
@[simp] theorem onLeg_kept : (b.onLeg f).kept = b.kept := by rfl
@[simp] theorem onLeg_kpr : (b.onLeg f).kpr = b.kpr := by rfl
@[simp] theorem onLeg_sup : (b.onLeg f).sup = b.sup := by rfl
@[simp] theorem onLeg_tmp : (b.onLeg f).tmp = b.tmp := by rfl
@[simp] theorem onLeg_otp : (b.onLeg f).otp = b.otp := by rfl
@[simp] theorem onLeg_boot : (b.onLeg f).boot = b.boot := by rfl
@[simp] theorem onLeg_flt : (b.onLeg f).flt = b.flt := by rfl
@[simp] theorem onLeg_rcd : (b.onLeg f).rcd = b.rcd := by rfl
@[simp] theorem onLeg_wdg : (b.onLeg f).wdg = b.wdg := by rfl
@[simp] theorem onLeg_leg : (b.onLeg f).leg = f b.leg := by rfl
@[simp] theorem onLeg_mon : (b.onLeg f).mon = b.mon := by rfl
@[simp] theorem onLeg_sb : (b.onLeg f).sb = b.sb := by rfl
@[simp] theorem onLeg_out : (b.onLeg f).out = b.out := by rfl
end

section
variable (f : MonSt → MonSt)
@[simp] theorem onMon_run : (b.onMon f).run = b.run := by rfl
@[simp] theorem onMon_time : (b.onMon f).time = b.time := by rfl
@[simp] theorem onMon_link : (b.onMon f).link = b.link := by rfl
@[simp] theorem onMon_q : (b.onMon f).q = b.q := by rfl
@[simp] theorem onMon_work : (b.onMon f).work = b.work := by rfl
@[simp] theorem onMon_vlt : (b.onMon f).vlt = b.vlt := by rfl
@[simp] theorem onMon_ste : (b.onMon f).ste = b.ste := by rfl
@[simp] theorem onMon_sce : (b.onMon f).sce = b.sce := by rfl
@[simp] theorem onMon_dge : (b.onMon f).dge = b.dge := by rfl
@[simp] theorem onMon_pke : (b.onMon f).pke = b.pke := by rfl
@[simp] theorem onMon_rng : (b.onMon f).rng = b.rng := by rfl
@[simp] theorem onMon_key : (b.onMon f).key = b.key := by rfl
@[simp] theorem onMon_bbram : (b.onMon f).bbram = b.bbram := by rfl
@[simp] theorem onMon_evr : (b.onMon f).evr = b.evr := by rfl
@[simp] theorem onMon_dev : (b.onMon f).dev = b.dev := by rfl
@[simp] theorem onMon_pins : (b.onMon f).pins = b.pins := by rfl
@[simp] theorem onMon_pwr : (b.onMon f).pwr = b.pwr := by rfl
@[simp] theorem onMon_kept : (b.onMon f).kept = b.kept := by rfl
@[simp] theorem onMon_kpr : (b.onMon f).kpr = b.kpr := by rfl
@[simp] theorem onMon_sup : (b.onMon f).sup = b.sup := by rfl
@[simp] theorem onMon_tmp : (b.onMon f).tmp = b.tmp := by rfl
@[simp] theorem onMon_otp : (b.onMon f).otp = b.otp := by rfl
@[simp] theorem onMon_boot : (b.onMon f).boot = b.boot := by rfl
@[simp] theorem onMon_flt : (b.onMon f).flt = b.flt := by rfl
@[simp] theorem onMon_rcd : (b.onMon f).rcd = b.rcd := by rfl
@[simp] theorem onMon_wdg : (b.onMon f).wdg = b.wdg := by rfl
@[simp] theorem onMon_leg : (b.onMon f).leg = b.leg := by rfl
@[simp] theorem onMon_mon : (b.onMon f).mon = f b.mon := by rfl
@[simp] theorem onMon_sb : (b.onMon f).sb = b.sb := by rfl
@[simp] theorem onMon_out : (b.onMon f).out = b.out := by rfl
end

section
variable (f : SidebandSt → SidebandSt)
@[simp] theorem onSb_run : (b.onSb f).run = b.run := by rfl
@[simp] theorem onSb_time : (b.onSb f).time = b.time := by rfl
@[simp] theorem onSb_link : (b.onSb f).link = b.link := by rfl
@[simp] theorem onSb_q : (b.onSb f).q = b.q := by rfl
@[simp] theorem onSb_work : (b.onSb f).work = b.work := by rfl
@[simp] theorem onSb_vlt : (b.onSb f).vlt = b.vlt := by rfl
@[simp] theorem onSb_ste : (b.onSb f).ste = b.ste := by rfl
@[simp] theorem onSb_sce : (b.onSb f).sce = b.sce := by rfl
@[simp] theorem onSb_dge : (b.onSb f).dge = b.dge := by rfl
@[simp] theorem onSb_pke : (b.onSb f).pke = b.pke := by rfl
@[simp] theorem onSb_rng : (b.onSb f).rng = b.rng := by rfl
@[simp] theorem onSb_key : (b.onSb f).key = b.key := by rfl
@[simp] theorem onSb_bbram : (b.onSb f).bbram = b.bbram := by rfl
@[simp] theorem onSb_evr : (b.onSb f).evr = b.evr := by rfl
@[simp] theorem onSb_dev : (b.onSb f).dev = b.dev := by rfl
@[simp] theorem onSb_pins : (b.onSb f).pins = b.pins := by rfl
@[simp] theorem onSb_pwr : (b.onSb f).pwr = b.pwr := by rfl
@[simp] theorem onSb_kept : (b.onSb f).kept = b.kept := by rfl
@[simp] theorem onSb_kpr : (b.onSb f).kpr = b.kpr := by rfl
@[simp] theorem onSb_sup : (b.onSb f).sup = b.sup := by rfl
@[simp] theorem onSb_tmp : (b.onSb f).tmp = b.tmp := by rfl
@[simp] theorem onSb_otp : (b.onSb f).otp = b.otp := by rfl
@[simp] theorem onSb_boot : (b.onSb f).boot = b.boot := by rfl
@[simp] theorem onSb_flt : (b.onSb f).flt = b.flt := by rfl
@[simp] theorem onSb_rcd : (b.onSb f).rcd = b.rcd := by rfl
@[simp] theorem onSb_wdg : (b.onSb f).wdg = b.wdg := by rfl
@[simp] theorem onSb_leg : (b.onSb f).leg = b.leg := by rfl
@[simp] theorem onSb_mon : (b.onSb f).mon = b.mon := by rfl
@[simp] theorem onSb_sb : (b.onSb f).sb = f b.sb := by rfl
@[simp] theorem onSb_out : (b.onSb f).out = b.out := by rfl
end

section
variable (f : (List Out) → (List Out))
@[simp] theorem onOut_run : (b.onOut f).run = b.run := by rfl
@[simp] theorem onOut_time : (b.onOut f).time = b.time := by rfl
@[simp] theorem onOut_link : (b.onOut f).link = b.link := by rfl
@[simp] theorem onOut_q : (b.onOut f).q = b.q := by rfl
@[simp] theorem onOut_work : (b.onOut f).work = b.work := by rfl
@[simp] theorem onOut_vlt : (b.onOut f).vlt = b.vlt := by rfl
@[simp] theorem onOut_ste : (b.onOut f).ste = b.ste := by rfl
@[simp] theorem onOut_sce : (b.onOut f).sce = b.sce := by rfl
@[simp] theorem onOut_dge : (b.onOut f).dge = b.dge := by rfl
@[simp] theorem onOut_pke : (b.onOut f).pke = b.pke := by rfl
@[simp] theorem onOut_rng : (b.onOut f).rng = b.rng := by rfl
@[simp] theorem onOut_key : (b.onOut f).key = b.key := by rfl
@[simp] theorem onOut_bbram : (b.onOut f).bbram = b.bbram := by rfl
@[simp] theorem onOut_evr : (b.onOut f).evr = b.evr := by rfl
@[simp] theorem onOut_dev : (b.onOut f).dev = b.dev := by rfl
@[simp] theorem onOut_pins : (b.onOut f).pins = b.pins := by rfl
@[simp] theorem onOut_pwr : (b.onOut f).pwr = b.pwr := by rfl
@[simp] theorem onOut_kept : (b.onOut f).kept = b.kept := by rfl
@[simp] theorem onOut_kpr : (b.onOut f).kpr = b.kpr := by rfl
@[simp] theorem onOut_sup : (b.onOut f).sup = b.sup := by rfl
@[simp] theorem onOut_tmp : (b.onOut f).tmp = b.tmp := by rfl
@[simp] theorem onOut_otp : (b.onOut f).otp = b.otp := by rfl
@[simp] theorem onOut_boot : (b.onOut f).boot = b.boot := by rfl
@[simp] theorem onOut_flt : (b.onOut f).flt = b.flt := by rfl
@[simp] theorem onOut_rcd : (b.onOut f).rcd = b.rcd := by rfl
@[simp] theorem onOut_wdg : (b.onOut f).wdg = b.wdg := by rfl
@[simp] theorem onOut_leg : (b.onOut f).leg = b.leg := by rfl
@[simp] theorem onOut_mon : (b.onOut f).mon = b.mon := by rfl
@[simp] theorem onOut_sb : (b.onOut f).sb = b.sb := by rfl
@[simp] theorem onOut_out : (b.onOut f).out = f b.out := by rfl
end

end Sys2Proof.Machine
end

