-- ==== Sys2Proof/Laws/Commands.lean ====
section
/-! SUPPORT. What the shared entries of commands do once their conditions hold: a descriptor that starts, an admin command, an HSM command,
a register access; and the descriptors in flight, queues and functions after a change of one. -/

namespace Sys2Proof.Machine

/-! ### Descriptors in flight -/

theorem find_map_id (l : List Job) (id : Nat) (f : Job → Job) (hf : ∀ k, (f k).id = k.id) :
    (l.map (fun k => if k.id = id then f k else k)).find? (fun k => k.id == id) = (l.find? (fun k => k.id == id)).map f := by
  induction l with
  | nil => rfl
  | cons k r ih =>
    by_cases h : k.id = id
    · simp [h, hf]
    · simp [h, ih]

/-- The descriptor after a change of it that keeps its id. -/
theorem jobOf_onJob (b : Block) (id : Nat) (f : Job → Job) (hf : ∀ k, (f k).id = k.id) : jobOf (onJob b id f) id = (jobOf b id).map f :=
  find_map_id b.work.jobs id f hf

theorem jobOf_onJob_of_ne (b : Block) {id i : Nat} (f : Job → Job) (hf : ∀ k, (f k).id = k.id) (h : i ≠ id) :
    jobOf (onJob b id f) i = jobOf b i := by
  show (b.work.jobs.map (fun k => if k.id = id then f k else k)).find? (fun k => k.id == i) = b.work.jobs.find? (fun k => k.id == i)
  induction b.work.jobs with
  | nil => rfl
  | cons k r ih =>
    rw [List.map_cons, List.find?_cons, List.find?_cons, ih]
    by_cases e : k.id = id
    · have hne : (k.id == i) = false := by simpa [e] using Ne.symm h
      simp [e, hf]
      rw [← e, hne]
    · simp [e]

/-- A descriptor taken out of flight is there no more. -/
theorem jobOf_removeJob (b : Block) (id : Nat) : jobOf (removeJob id b) id = none := by
  simp [jobOf, removeJob, dropReads, Block.onWork, List.find?_eq_none]

theorem jobOf_id {b : Block} {id : Nat} {j : Job} (h : jobOf b id = some j) : j.id = id := by
  have := List.find?_some h; simpa using this

@[simp] theorem onJob_run (b : Block) (i : Nat) (f : Job → Job) : (onJob b i f).run = b.run := rfl
@[simp] theorem onJob_link (b : Block) (i : Nat) (f : Job → Job) : (onJob b i f).link = b.link := rfl
@[simp] theorem onJob_q (b : Block) (i : Nat) (f : Job → Job) : (onJob b i f).q = b.q := rfl
@[simp] theorem onJob_vlt (b : Block) (i : Nat) (f : Job → Job) : (onJob b i f).vlt = b.vlt := rfl
@[simp] theorem onJob_ste (b : Block) (i : Nat) (f : Job → Job) : (onJob b i f).ste = b.ste := rfl
@[simp] theorem onJob_sce (b : Block) (i : Nat) (f : Job → Job) : (onJob b i f).sce = b.sce := rfl
@[simp] theorem onJob_dge (b : Block) (i : Nat) (f : Job → Job) : (onJob b i f).dge = b.dge := rfl
@[simp] theorem onJob_kpr (b : Block) (i : Nat) (f : Job → Job) : (onJob b i f).kpr = b.kpr := rfl
@[simp] theorem onJob_out (b : Block) (i : Nat) (f : Job → Job) : (onJob b i f).out = b.out := rfl

/-! ### Queues and functions -/

theorem sqOf_onSq (b : Block) (n m : Nat) (f : Sq → Sq) : sqOf (onSq n f b) m = if m = n then f (sqOf b n) else sqOf b m :=
  tgetD_tmod _ _ _ _ _

theorem cqOf_onCq (b : Block) (n m : Nat) (f : Cq → Cq) : cqOf (onCq n f b) m = if m = n then f (cqOf b n) else cqOf b m :=
  tgetD_tmod _ _ _ _ _

@[simp] theorem cqOf_onSq (b : Block) (n m : Nat) (f : Sq → Sq) : cqOf (onSq n f b) m = cqOf b m := rfl
@[simp] theorem sqOf_onCq (b : Block) (n m : Nat) (f : Cq → Cq) : sqOf (onCq n f b) m = sqOf b m := rfl

theorem fnOf_onFn (b : Block) (n m : Nat) (f : FnState → FnState) : fnOf (onFn b n f) m = if m = n then f (fnOf b n) else fnOf b m :=
  tgetD_tmod _ _ _ _ _

/-! ### Entries of commands -/

/-- A descriptor of an opcode that has its turn, and that checks 1 to 4 accept, goes on. -/
theorem startOp_go {b : Block} {j : Job} {op : Nat} (go : Job → Block → Block) (hj : jobOf b j.id = some j) (hs : j.stage = .arrived)
    (ho : dOp j.desc = op) (hd : opcodeDefined (decide (j.dqn < 256)) op = true) (hg : j.dqn ≠ ghostQueue) (hc : canStart b j = true)
    (hk : ownChecks b.run.variant j.desc = none) :
    startOp op j.id go b = settleAll (go j (onJob b j.id (fun k => { k with started := true }))) := by
  unfold startOp; simp [hj, hs, ho, hd, hg, hc, hk]

/-- An admin command that has its turn and that no refusal meets acts. -/
theorem adminRun_go {b : Block} {j : Job} {op : Nat} (act : Job → Block → Block) (hj : jobOf b j.id = some j) (hs : j.stage = .arrived)
    (ho : dOp j.desc = op) (hd : j.dqn < 256) (hc : canStart b j = true) (hf : b.run.state ≠ .frozen)
    (hr : adminRefusal (onJob b j.id (fun k => { k with started := true })) j = none) :
    adminRun op j.id act b = settleAll (act j (onJob b j.id (fun k => { k with started := true }))) := by
  unfold adminRun; simp [hj, hs, ho, hd, hc, hf, hr]

/-- An HSM command that has its turn, whose session checks pass, and that finds the random source READY runs. -/
theorem hsmRun_go {b : Block} {h : HsmJob} {code : Nat} {session : Option EqxSession} (rule : HsmJob → Block → HsmRule)
    (rnd : HsmJob → Randomness) (own : HsmJob → Option EqxSession → Block → Block) (hr : hsmReady b code h.id = some h)
    (ho : hsmOrphan b h = false) (hg : hsmGate b h (rule h b) = .passed session) (hs : b.rng.state = .ready) :
    hsmRun code h.id rule rnd own b = settleAll (own h session (match session with
      | some s => dropSession s.sid b
      | none => b)) := by
  unfold hsmRun; simp only [hr, ho, hg, hs]; simp; cases session <;> rfl

/-- An HSM command whose turn has not come changes nothing. -/
theorem hsmRun_waits {b : Block} {code id : Nat} (rule : HsmJob → Block → HsmRule) (rnd : HsmJob → Randomness)
    (own : HsmJob → Option EqxSession → Block → Block) (hr : hsmReady b code id = none) : hsmRun code id rule rnd own b = b := by
  unfold hsmRun; simp only [hr]

/-- A write of a PF0 register in D0, outside FROZEN, that sets no reserved bit. -/
theorem pf0Write_go {b : Block} {resv : Nat} {v : Word} (f : Block → Block) (he : fnEnabled b 0 = true) (hd : (fnOf b 0).d3hot = false)
    (hf : b.run.state ≠ .frozen) (hr : v.toNat &&& resv = 0) : pf0Write resv v f b = f b := by
  unfold pf0Write barWrite; simp [he, hd, hf, hr]

/-- A read of a PF0 register in D0, outside FROZEN. -/
theorem pf0Read_go {b : Block} (i : Bool) (f : Block → Nat × Block) (hd : (fnOf b 0).d3hot = false) (hf : b.run.state ≠ .frozen) :
    pf0Read i f b = reply 0 .success (lePut 4 (f b).1) (f b).2 := by
  unfold pf0Read; simp [hd, hf]

/-- A write of a data register of a sub-window whose lock is held renews the lease, then takes its effect. -/
theorem legWrite_go {b : Block} {w resv : Nat} {v : Word} (f : Block → Block) (he : fnEnabled b 0 = true) (hd : (fnOf b 0).d3hot = false)
    (hf : b.run.state ≠ .frozen) (hw : windowAbsent b w = false) (hl : (lockOf b w).holder.isSome = true) (hr : v.toNat &&& resv = 0) :
    legWrite w resv v f b = f (renew w b) := by
  have hn : (lockOf b w).holder.isNone = false := by cases h : (lockOf b w).holder <;> simp_all
  unfold legWrite; rw [pf0Write_go _ he hd hf (by simp)]; simp [hw, hn, hr]

/-- A read of a data register of a sub-window whose lock is held. -/
theorem legRead_go {b : Block} {w : Nat} (f : Block → Nat × Block) (hd : (fnOf b 0).d3hot = false) (hf : b.run.state ≠ .frozen)
    (hw : windowAbsent b w = false) (hl : (lockOf b w).holder.isSome = true) :
    legRead w f b = reply 0 .success (lePut 4 (f (renew w b)).1) (f (renew w b)).2 := by
  have hn : (lockOf b w).holder.isNone = false := by cases h : (lockOf b w).holder <;> simp_all
  unfold legRead; rw [pf0Read_go _ _ hd hf]; simp [legData, hw, hn]

end Sys2Proof.Machine
end

