-- ==== Sys2Proof/Laws/Touch.lean ====
section
/-! SUPPORT. What each operation of the block leaves alone: `hide W b` replaces the units that `W` names, and an operation that
writes only those units makes no difference under it. One lemma per operation, each from those of the operations it calls. -/

namespace Sys2Proof.Machine

/-- What may be looked away from: one switch per unit, and switches for three facts that outlive most commands. -/
structure Touch where
  (run variant lcs time link q work vlt ste sce dge : Bool)
  (pke rng key bbram evr dev pins pwr kept kpr sup : Bool)
  (tmp otp cells boot flt rcd wdg leg mon sb out : Bool)

/-- The block with what is looked away from replaced. -/
def hide (W : Touch) (b : Block) : Block :=
  { run := if W.run then { Block.reset.run with variant := if W.variant then .jtH48F else b.run.variant, lcs := if W.lcs then 0 else b.run.lcs } else b.run
    time := if W.time then Block.reset.time else b.time
    link := if W.link then Block.reset.link else b.link
    q := if W.q then Block.reset.q else b.q
    work := if W.work then Block.reset.work else b.work
    vlt := if W.vlt then Block.reset.vlt else b.vlt
    ste := if W.ste then Block.reset.ste else b.ste
    sce := if W.sce then Block.reset.sce else b.sce
    dge := if W.dge then Block.reset.dge else b.dge
    pke := if W.pke then Block.reset.pke else b.pke
    rng := if W.rng then Block.reset.rng else b.rng
    key := if W.key then Block.reset.key else b.key
    bbram := if W.bbram then Block.reset.bbram else b.bbram
    evr := if W.evr then Block.reset.evr else b.evr
    dev := if W.dev then Block.reset.dev else b.dev
    pins := if W.pins then Block.reset.pins else b.pins
    pwr := if W.pwr then Block.reset.pwr else b.pwr
    kept := if W.kept then Block.reset.kept else b.kept
    kpr := if W.kpr then Block.reset.kpr else b.kpr
    sup := if W.sup then Block.reset.sup else b.sup
    tmp := if W.tmp then Block.reset.tmp else b.tmp
    otp := if W.otp then { OtpSt.shipped with cells := if W.cells then [] else b.otp.cells } else b.otp
    boot := if W.boot then Block.reset.boot else b.boot
    flt := if W.flt then Block.reset.flt else b.flt
    rcd := if W.rcd then Block.reset.rcd else b.rcd
    wdg := if W.wdg then Block.reset.wdg else b.wdg
    leg := if W.leg then Block.reset.leg else b.leg
    mon := if W.mon then Block.reset.mon else b.mon
    sb := if W.sb then Block.reset.sb else b.sb
    out := if W.out then Block.reset.out else b.out }

@[simp] theorem hide_onTime (W : Touch) (b : Block) (f) (h : W.time) : hide W (b.onTime f) = hide W b := by simp [hide, Block.onTime, h]
@[simp] theorem hide_onLink (W : Touch) (b : Block) (f) (h : W.link) : hide W (b.onLink f) = hide W b := by simp [hide, Block.onLink, h]
@[simp] theorem hide_onQ (W : Touch) (b : Block) (f) (h : W.q) : hide W (b.onQ f) = hide W b := by simp [hide, Block.onQ, h]
@[simp] theorem hide_onWork (W : Touch) (b : Block) (f) (h : W.work) : hide W (b.onWork f) = hide W b := by simp [hide, Block.onWork, h]
@[simp] theorem hide_onVlt (W : Touch) (b : Block) (f) (h : W.vlt) : hide W (b.onVlt f) = hide W b := by simp [hide, Block.onVlt, h]
@[simp] theorem hide_onSte (W : Touch) (b : Block) (f) (h : W.ste) : hide W (b.onSte f) = hide W b := by simp [hide, Block.onSte, h]
@[simp] theorem hide_onSce (W : Touch) (b : Block) (f) (h : W.sce) : hide W (b.onSce f) = hide W b := by simp [hide, Block.onSce, h]
@[simp] theorem hide_onDge (W : Touch) (b : Block) (f) (h : W.dge) : hide W (b.onDge f) = hide W b := by simp [hide, Block.onDge, h]
@[simp] theorem hide_onPke (W : Touch) (b : Block) (f) (h : W.pke) : hide W (b.onPke f) = hide W b := by simp [hide, Block.onPke, h]
@[simp] theorem hide_onRng (W : Touch) (b : Block) (f) (h : W.rng) : hide W (b.onRng f) = hide W b := by simp [hide, Block.onRng, h]
@[simp] theorem hide_onKey (W : Touch) (b : Block) (f) (h : W.key) : hide W (b.onKey f) = hide W b := by simp [hide, Block.onKey, h]
@[simp] theorem hide_onBbram (W : Touch) (b : Block) (f) (h : W.bbram) : hide W (b.onBbram f) = hide W b := by simp [hide, Block.onBbram, h]
@[simp] theorem hide_onEvr (W : Touch) (b : Block) (f) (h : W.evr) : hide W (b.onEvr f) = hide W b := by simp [hide, Block.onEvr, h]
@[simp] theorem hide_onDev (W : Touch) (b : Block) (f) (h : W.dev) : hide W (b.onDev f) = hide W b := by simp [hide, Block.onDev, h]
@[simp] theorem hide_onPins (W : Touch) (b : Block) (f) (h : W.pins) : hide W (b.onPins f) = hide W b := by simp [hide, Block.onPins, h]
@[simp] theorem hide_onPwr (W : Touch) (b : Block) (f) (h : W.pwr) : hide W (b.onPwr f) = hide W b := by simp [hide, Block.onPwr, h]
@[simp] theorem hide_onKept (W : Touch) (b : Block) (f) (h : W.kept) : hide W (b.onKept f) = hide W b := by simp [hide, Block.onKept, h]
@[simp] theorem hide_onKpr (W : Touch) (b : Block) (f) (h : W.kpr) : hide W (b.onKpr f) = hide W b := by simp [hide, Block.onKpr, h]
@[simp] theorem hide_onSup (W : Touch) (b : Block) (f) (h : W.sup) : hide W (b.onSup f) = hide W b := by simp [hide, Block.onSup, h]
@[simp] theorem hide_onTmp (W : Touch) (b : Block) (f) (h : W.tmp) : hide W (b.onTmp f) = hide W b := by simp [hide, Block.onTmp, h]
@[simp] theorem hide_onBoot (W : Touch) (b : Block) (f) (h : W.boot) : hide W (b.onBoot f) = hide W b := by simp [hide, Block.onBoot, h]
@[simp] theorem hide_onFlt (W : Touch) (b : Block) (f) (h : W.flt) : hide W (b.onFlt f) = hide W b := by simp [hide, Block.onFlt, h]
@[simp] theorem hide_onRcd (W : Touch) (b : Block) (f) (h : W.rcd) : hide W (b.onRcd f) = hide W b := by simp [hide, Block.onRcd, h]
@[simp] theorem hide_onWdg (W : Touch) (b : Block) (f) (h : W.wdg) : hide W (b.onWdg f) = hide W b := by simp [hide, Block.onWdg, h]
@[simp] theorem hide_onLeg (W : Touch) (b : Block) (f) (h : W.leg) : hide W (b.onLeg f) = hide W b := by simp [hide, Block.onLeg, h]
@[simp] theorem hide_onMon (W : Touch) (b : Block) (f) (h : W.mon) : hide W (b.onMon f) = hide W b := by simp [hide, Block.onMon, h]
@[simp] theorem hide_onSb (W : Touch) (b : Block) (f) (h : W.sb) : hide W (b.onSb f) = hide W b := by simp [hide, Block.onSb, h]
@[simp] theorem hide_onOut (W : Touch) (b : Block) (f) (h : W.out) : hide W (b.onOut f) = hide W b := by simp [hide, Block.onOut, h]
@[simp] theorem hide_onRun (W : Touch) (b : Block) (f : RunSt → RunSt) (h : W.run) (hv : (f b.run).variant = b.run.variant)
    (hl : W.lcs = true ∨ (f b.run).lcs = b.run.lcs) :
    hide W (b.onRun f) = hide W b := by cases hl with | _ hl => simp [hide, Block.onRun, h, hv, hl]
@[simp] theorem hide_onOtp (W : Touch) (b : Block) (f : OtpSt → OtpSt) (h : W.otp) (hv : W.cells = true ∨ (f b.otp).cells = b.otp.cells) :
    hide W (b.onOtp f) = hide W b := by cases hv with | _ hv => simp [hide, Block.onOtp, h, hv]
@[simp] theorem hide_foldl {α : Type} (W : Touch) (g : Block → α → Block) (h : ∀ c x, hide W (g c x) = hide W c) (l : List α) (b : Block) :
    hide W (l.foldl g b) = hide W b := by
  induction l generalizing b with
  | nil => rfl
  | cons a r ih => rw [List.foldl_cons, ih, h]
@[simp] theorem hide_foldl_fst {α β : Type} (W : Touch) (g : Block × β → α → Block × β) (h : ∀ c x, hide W (g c x).1 = hide W c.1) (l : List α)
    (b : Block × β) : hide W (l.foldl g b).1 = hide W b.1 := by
  induction l generalizing b with
  | nil => rfl
  | cons a r ih => rw [List.foldl_cons, ih, h]
@[simp] theorem hide_foldl_snd {α β : Type} (W : Touch) (g : β × Block → α → β × Block) (h : ∀ c x, hide W (g c x).2 = hide W c.2) (l : List α)
    (b : β × Block) : hide W (l.foldl g b).2 = hide W b.2 := by
  induction l generalizing b with
  | nil => rfl
  | cons a r ih => rw [List.foldl_cons, ih, h]
theorem hide_ite (W : Touch) (p : Prop) [Decidable p] (b c : Block) :
    hide W (if p then b else c) = if p then hide W b else hide W c := apply_ite (hide W) p b c

@[simp] theorem hide_tick (W : Touch) (b : Block) (hW : W.time) :
    hide W (tick b) = hide W b := by
  unfold tick; simp [hide_ite, *]

@[simp] theorem hide_bumpClock (W : Touch) (b : Block) (hW : W.work) :
    hide W (bumpClock b) = hide W b := by
  unfold bumpClock; simp [hide_ite, *]

@[simp] theorem hide_onFn (W : Touch) (b : Block) (fn : Nat) (f : FnState → FnState) (hW : W.link ∧ W.out) :
    hide W (onFn b fn f) = hide W b := by
  unfold onFn; simp [hide_ite, *]

@[simp] theorem hide_emit (W : Touch) (fn : Nat) (o : Out) (b : Block) (hW : W.link ∧ W.out) :
    hide W (emit fn o b) = hide W b := by
  unfold emit
  try dsimp only
  repeat' first | (simp (maxDischargeDepth := 6) [hide_ite, *]; done) | (simp [hide, *]; done) | split

@[simp] theorem hide_send (W : Touch) (o : Out) (b : Block) (hW : W.out) :
    hide W (send o b) = hide W b := by
  unfold send
  try dsimp only
  repeat' first | (simp (maxDischargeDepth := 6) [hide_ite, *]; done) | (simp [hide, *]; done) | split

@[simp] theorem hide_mctpSend (W : Touch) (type : Nat) (body : Bytes) (b : Block) (hW : W.out) :
    hide W (mctpSend type body b) = hide W b := by
  unfold mctpSend
  try dsimp only
  repeat' first | (simp (maxDischargeDepth := 6) [hide_ite, *]; done) | (simp [hide, *]; done) | split

theorem hide_out (W : Touch) (b : Block) (o : List Out) (h : W.out = true) : hide W { b with out := o } = hide W b := by
  simp [hide, h]
@[simp] theorem hide_sendPiece (W : Touch) (b : Block) (p : ReadPiece) (hW : W.link ∧ W.work ∧ W.out) :
    hide W (sendPiece b p) = hide W b := by
  unfold sendPiece
  dsimp only
  split
  · split
    · rw [hide_out W _ _ (by simp [hW])]; simp [hW]
    · simp [hW]
  · simp [hW]

@[simp] theorem hide_pumpReads (W : Touch) (b : Block) (hW : W.link ∧ W.work ∧ W.out) :
    hide W (pumpReads b) = hide W b := by
  unfold pumpReads; simp [hide_ite, *]

@[simp] theorem hide_flushHeld (W : Touch) (b : Block) (hW : W.link ∧ W.work ∧ W.out) :
    hide W (flushHeld b) = hide W b := by
  unfold flushHeld
  dsimp only
  rw [hide_pumpReads W _ (by simp [hW]), hide_out W _ _ (by simp [hW])]
  simp [hW]

@[simp] theorem hide_dropHeld (W : Touch) (fns : Nat → Bool) (b : Block) (hW : W.link) :
    hide W (dropHeld fns b) = hide W b := by
  unfold dropHeld; simp [hide_ite, *]

@[simp] theorem hide_reply (W : Touch) (fn : Nat) (st : CplStatus) (data : Bytes) (b : Block) (hW : W.link ∧ W.out) :
    hide W (reply fn st data b) = hide W b := by
  unfold reply; simp [hide_ite, *]

@[simp] theorem hide_msixSend (W : Touch) (fn : Nat) (vec : Nat) (b : Block) (hW : W.link ∧ W.out) :
    hide W (msixSend fn vec b) = hide W b := by
  unfold msixSend; simp [hide_ite, *]

@[simp] theorem hide_msixOwe (W : Touch) (fn : Nat) (vec : Nat) (b : Block) (hW : W.link ∧ W.out) :
    hide W (msixOwe fn vec b) = hide W b := by
  unfold msixOwe; simp [hide_ite, *]

@[simp] theorem hide_msixRelease (W : Touch) (fn : Nat) (vec : Nat) (b : Block) (hW : W.link ∧ W.out) :
    hide W (msixRelease fn vec b) = hide W b := by
  unfold msixRelease; simp [hide_ite, *]

@[simp] theorem hide_raiseIrq (W : Touch) (i : Nat) (b : Block) (hW : W.link ∧ W.dev ∧ W.out) :
    hide W (raiseIrq i b) = hide W b := by
  unfold raiseIrq; simp [hide_ite, *]

@[simp] theorem hide_rsvdWrite (W : Touch) (b : Block) (hW : W.link ∧ W.dev ∧ W.out) :
    hide W (rsvdWrite b) = hide W b := by
  unfold rsvdWrite; simp [hide_ite, *]

@[simp] theorem hide_discard (W : Touch) (n : Nat) (b : Block) (hW : W.dev) :
    hide W (discard n b) = hide W b := by
  unfold discard; simp [hide_ite, *]

@[simp] theorem hide_noteAer (W : Touch) (fn : Nat) (f : Aer → Aer) (b : Block) (hW : W.link ∧ W.out) :
    hide W (noteAer fn f b) = hide W b := by
  unfold noteAer; simp [hide_ite, *]

@[simp] theorem hide_advise (W : Touch) (fn : Nat) (i : Nat) (b : Block) (hW : W.link ∧ W.out) :
    hide W (advise fn i b) = hide W b := by
  unfold advise; simp [hide_ite, *]

@[simp] theorem hide_correctable (W : Touch) (fn : Nat) (i : Nat) (b : Block) (hW : W.link ∧ W.out) :
    hide W (correctable fn i b) = hide W b := by
  unfold correctable; simp [hide_ite, *]

@[simp] theorem hide_issueRead (W : Touch) (fn : Nat) (world : Bool) (kind : ReadKind) (segs : List (Nat × Nat)) (b : Block) (hW : W.link ∧ W.q ∧ W.work ∧ W.vlt ∧ W.sce ∧ W.key ∧ W.bbram ∧ W.evr ∧ W.dev ∧ W.pins ∧ W.out) :
    hide W (issueRead fn world kind segs b) = hide W b := by
  unfold issueRead; simp [hide_ite, *]

@[simp] theorem hide_onJob (W : Touch) (b : Block) (id : Nat) (f : Job → Job) (hW : W.work) :
    hide W (onJob b id f) = hide W b := by
  unfold onJob; simp [hide_ite, *]

@[simp] theorem hide_dropReads (W : Touch) (p : ReadReq → Bool) (b : Block) (hW : W.work) :
    hide W (dropReads p b) = hide W b := by
  unfold dropReads; simp [hide_ite, *]

@[simp] theorem hide_countCommit (W : Touch) (b : Block) (hW : W.key) :
    hide W (countCommit b) = hide W b := by
  unfold countCommit; simp [hide_ite, *]

@[simp] theorem hide_commitAs (W : Touch) (n : Nat) (f : Pair) (put : Pair → Block → Block) (b : Block) (hW : W.key) (hf0 : ∀ y0 y1, hide W (put y0 y1) = hide W y1) :
    hide W (commitAs n f put b) = hide W b := by
  unfold commitAs; simp [hide_ite, *]

@[simp] theorem hide_commitAlone (W : Touch) (f : Block → Block) (b : Block) (hW : W.key) (hf0 : ∀ y0, hide W (f y0) = hide W y0) :
    hide W (commitAlone f b) = hide W b := by
  unfold commitAlone; simp [hide_ite, *]

@[simp] theorem hide_commitRec (W : Touch) (i : Nat) (payload : Bytes) (b : Block) (hW : W.key ∧ W.bbram) :
    hide W (commitRec i payload b) = hide W b := by
  unfold commitRec; simp [hide_ite, *]

@[simp] theorem hide_commitSlot (W : Touch) (i : Nat) (key : Bytes) (attr : Bytes) (b : Block) (hW : W.key ∧ W.bbram) :
    hide W (commitSlot i key attr b) = hide W b := by
  unfold commitSlot; simp [hide_ite, *]

@[simp] theorem hide_eraseSlot (W : Touch) (i : Nat) (b : Block) (hW : W.key ∧ W.bbram) :
    hide W (eraseSlot i b) = hide W b := by
  unfold eraseSlot; simp [hide_ite, *]

@[simp] theorem hide_eraseRec (W : Touch) (i : Nat) (b : Block) (hW : W.bbram) :
    hide W (eraseRec i b) = hide W b := by
  unfold eraseRec; simp [hide_ite, *]

@[simp] theorem hide_commitDom (W : Touch) (d : Bytes) (b : Block) (hW : W.key ∧ W.bbram) :
    hide W (commitDom d b) = hide W b := by
  unfold commitDom; simp [hide_ite, *]

@[simp] theorem hide_setRevoked (W : Touch) (i : Nat) (b : Block) (hW : W.key ∧ W.bbram) :
    hide W (setRevoked i b) = hide W b := by
  unfold setRevoked; simp [hide_ite, *]

@[simp] theorem hide_zeroBitmap (W : Touch) (d : Bytes) (b : Block) (hW : W.key ∧ W.bbram) :
    hide W (zeroBitmap d b) = hide W b := by
  unfold zeroBitmap; simp [hide_ite, *]

@[simp] theorem hide_refreshDomain (W : Touch) (b : Block) (hW : W.key) :
    hide W (refreshDomain b) = hide W b := by
  unfold refreshDomain
  try dsimp only
  repeat' first | (simp [hide_ite, *]; done) | split

@[simp] theorem hide_copySlot (W : Touch) (src : Nat) (dst : Nat) (b : Block) (hW : W.key ∧ W.bbram) :
    hide W (copySlot src dst b) = hide W b := by
  unfold copySlot
  try dsimp only
  repeat' first | (simp [hide_ite, *]; done) | split

@[simp] theorem hide_adoptRest (W : Touch) (b : Block) (hW : W.key ∧ W.bbram) :
    hide W (adoptRest b) = hide W b := by
  unfold adoptRest; simp [hide_ite, *]

@[simp] theorem hide_adoptRoots (W : Touch) (d : Bytes) (root : Bytes) (prev : Option Bytes) (b : Block) (hW : W.key ∧ W.bbram) :
    hide W (adoptRoots d root prev b) = hide W b := by
  unfold adoptRoots
  try dsimp only
  repeat' first | (simp [hide_ite, *]; done) | split

@[simp] theorem hide_putCell (W : Touch) (i : Nat) (c : EvCell) (b : Block) (hW : W.evr) :
    hide W (putCell i c b) = hide W b := by
  unfold putCell; simp [hide_ite, *]

@[simp] theorem hide_oweNotice (W : Touch) (sev : Nat) (b : Block) (hW : W.link ∧ W.evr ∧ W.dev ∧ W.pins ∧ W.out) :
    hide W (oweNotice sev b) = hide W b := by
  unfold oweNotice; simp [hide_ite, *]

@[simp] theorem hide_foldCell (W : Touch) (i : Nat) (code : Nat) (v : Nat) (b : Block) (hW : W.link ∧ W.evr ∧ W.dev ∧ W.pins ∧ W.out) :
    hide W (foldCell i code v b) = hide W b := by
  unfold foldCell; simp [hide_ite, *]

@[simp] theorem hide_takeCell (W : Touch) (i : Nat) (code : Nat) (b : Block) (hW : W.evr) :
    hide W (takeCell i code b) = hide W b := by
  unfold takeCell; simp [hide_ite, *]

@[simp] theorem hide_commitCounts (W : Touch) (b : Block) (hW : W.key ∧ W.bbram ∧ W.evr) :
    hide W (commitCounts b) = hide W b := by
  unfold commitCounts; simp [hide_ite, *]

@[simp] theorem hide_tallyEvent (W : Touch) (code : Nat) (b : Block) (hW : W.key ∧ W.bbram ∧ W.evr) :
    hide W (tallyEvent code b) = hide W b := by
  unfold tallyEvent; simp [hide_ite, *]

@[simp] theorem hide_countEvent (W : Touch) (code : Nat) (b : Block) (hW : W.key ∧ W.bbram ∧ W.evr) :
    hide W (countEvent code b) = hide W b := by
  unfold countEvent; simp [hide_ite, *]

@[simp] theorem hide_event (W : Touch) (code : Nat) (v : Nat) (b : Block) (hW : W.link ∧ W.key ∧ W.bbram ∧ W.evr ∧ W.dev ∧ W.pins ∧ W.out) :
    hide W (event code v b) = hide W b := by
  unfold event
  try dsimp only
  repeat' first | (simp [hide_ite, *]; done) | split

@[simp] theorem hide_noteCorrupt (W : Touch) (n : Nat) (b : Block) (hW : W.link ∧ W.key ∧ W.bbram ∧ W.evr ∧ W.dev ∧ W.pins ∧ W.out) :
    hide W (noteCorrupt n b) = hide W b := by
  unfold noteCorrupt; simp [hide_ite, *]

@[simp] theorem hide_onSq (W : Touch) (n : Nat) (f : Sq → Sq) (b : Block) (hW : W.q) :
    hide W (onSq n f b) = hide W b := by
  unfold onSq; simp [hide_ite, *]

@[simp] theorem hide_onCq (W : Touch) (n : Nat) (f : Cq → Cq) (b : Block) (hW : W.q) :
    hide W (onCq n f b) = hide W b := by
  unfold onCq; simp [hide_ite, *]

@[simp] theorem hide_reserve (W : Touch) (n : Nat) (b : Block) (hW : W.q) :
    hide W (reserve n b) = hide W b := by
  unfold reserve; simp [hide_ite, *]

@[simp] theorem hide_writeEntry (W : Touch) (dqn : Nat) (cmd : Nat) (status : Nat) (cflags : Nat) (detail : Nat) (bytes : Nat) (result : Nat) (quiet : Bool) (b : Block) (hW : W.link ∧ W.q ∧ W.out) :
    hide W (writeEntry dqn cmd status cflags detail bytes result quiet b) = hide W b := by
  unfold writeEntry; simp [hide_ite, *]

@[simp] theorem hide_onMsg (W : Touch) (dqn : Nat) (mid : Nat) (f : Msg → Msg) (b : Block) (hW : W.sce) :
    hide W (onMsg dqn mid f b) = hide W b := by
  unfold onMsg; simp [hide_ite, *]

@[simp] theorem hide_onCore (W : Touch) (n : Nat) (f : CoreU → CoreU) (b : Block) (hW : W.sce) :
    hide W (onCore n f b) = hide W b := by
  unfold onCore; simp [hide_ite, *]

@[simp] theorem hide_closeMsg (W : Touch) (dqn : Nat) (mid : Nat) (b : Block) (hW : W.sce) :
    hide W (closeMsg dqn mid b) = hide W b := by
  unfold closeMsg
  try dsimp only
  repeat' first | (simp [hide_ite, *]; done) | split

@[simp] theorem hide_emitZeros (W : Touch) (fn : Nat) (world : Bool) (rs : List (Nat × Nat)) (b : Block) (hW : W.link ∧ W.out) :
    hide W (emitZeros fn world rs b) = hide W b := by
  unfold emitZeros; simp [hide_ite, *]

@[simp] theorem hide_abandonMsg (W : Touch) (dqn : Nat) (mid : Nat) (b : Block) (hW : W.link ∧ W.q ∧ W.work ∧ W.vlt ∧ W.sce ∧ W.key ∧ W.bbram ∧ W.evr ∧ W.dev ∧ W.pins ∧ W.out) :
    hide W (abandonMsg dqn mid b) = hide W b := by
  unfold abandonMsg
  try dsimp only
  repeat' first | (simp [hide_ite, *]; done) | split

@[simp] theorem hide_abandonWhere (W : Touch) (p : Msg → Bool) (b : Block) (hW : W.link ∧ W.q ∧ W.work ∧ W.vlt ∧ W.sce ∧ W.key ∧ W.bbram ∧ W.evr ∧ W.dev ∧ W.pins ∧ W.out) :
    hide W (abandonWhere p b) = hide W b := by
  unfold abandonWhere; simp [hide_ite, *]

@[simp] theorem hide_parkMsg (W : Touch) (dqn : Nat) (mid : Nat) (b : Block) (hW : W.sce) :
    hide W (parkMsg dqn mid b) = hide W b := by
  unfold parkMsg
  try dsimp only
  repeat' first | (simp [hide_ite, *]; done) | split

@[simp] theorem hide_rebind (W : Touch) (dqn : Nat) (mid : Nat) (c : Nat) (b : Block) (hW : W.link ∧ W.q ∧ W.work ∧ W.vlt ∧ W.sce ∧ W.key ∧ W.bbram ∧ W.evr ∧ W.dev ∧ W.pins ∧ W.out) :
    hide W (rebind dqn mid c b) = hide W b := by
  unfold rebind
  try dsimp only
  repeat' first | (simp [hide_ite, *]; done) | split

@[simp] theorem hide_endPart (W : Touch) (j : Job) (v : Verdict) (b : Block) (hW : W.link ∧ W.q ∧ W.work ∧ W.vlt ∧ W.sce ∧ W.key ∧ W.bbram ∧ W.evr ∧ W.dev ∧ W.pins ∧ W.out) :
    hide W (endPart j v b) = hide W b := by
  unfold endPart
  try dsimp only
  repeat' first | (simp [hide_ite, *]; done) | split

@[simp] theorem hide_removeJob (W : Touch) (id : Nat) (b : Block) (hW : W.work) :
    hide W (removeJob id b) = hide W b := by
  unfold removeJob; simp [hide_ite, *]

@[simp] theorem hide_noteStatus (W : Touch) (j : Job) (v : Verdict) (b : Block) (hW : W.link ∧ W.vlt ∧ W.sce ∧ W.key ∧ W.bbram ∧ W.evr ∧ W.dev ∧ W.pins ∧ W.out) :
    hide W (noteStatus j v b) = hide W b := by
  unfold noteStatus; simp [hide_ite, *]

@[simp] theorem hide_entryOut (W : Touch) (j : Job) (v : Verdict) (zeroed : Bool) (b : Block) (hW : W.link ∧ W.q ∧ W.work ∧ W.vlt ∧ W.sce ∧ W.key ∧ W.bbram ∧ W.evr ∧ W.dev ∧ W.pins ∧ W.out) :
    hide W (entryOut j v zeroed b) = hide W b := by
  unfold entryOut; simp [hide_ite, *]

@[simp] theorem hide_finishEntry (W : Touch) (j : Job) (v : Verdict) (zeroed : Bool) (b : Block) (hW : W.link ∧ W.q ∧ W.work ∧ W.vlt ∧ W.sce ∧ W.key ∧ W.bbram ∧ W.evr ∧ W.dev ∧ W.pins ∧ W.out) :
    hide W (finishEntry j v zeroed b) = hide W b := by
  unfold finishEntry; simp [hide_ite, *]

@[simp] theorem hide_resumeEnded (W : Touch) (b : Block) (hW : W.link ∧ W.q ∧ W.work ∧ W.vlt ∧ W.sce ∧ W.key ∧ W.bbram ∧ W.evr ∧ W.dev ∧ W.pins ∧ W.out) :
    hide W (resumeEnded b) = hide W b := by
  unfold resumeEnded
  first
  | (simp (maxDischargeDepth := 6) [hide_ite, *]; done)
  | ((try dsimp only)
     repeat' first
      | (simp (maxDischargeDepth := 6) [hide_ite, *]; done)
      | (simp [hide, *]; done)
      | split
      | (refine hide_foldl W _ ?_ _ _; intro c x)
      | (refine (hide_foldl W _ ?_ _ _).trans ?_; focus intro c x))

@[simp] theorem hide_resumeHeld (W : Touch) (b : Block) (hW : W.link ∧ W.q ∧ W.work ∧ W.vlt ∧ W.sce ∧ W.key ∧ W.bbram ∧ W.evr ∧ W.dev ∧ W.pins ∧ W.out) :
    hide W (resumeHeld b) = hide W b := by
  unfold resumeHeld; simp [hide_ite, *]

@[simp] theorem hide_zeroThen (W : Touch) (j : Job) (v : Verdict) (b : Block) (hW : W.link ∧ W.q ∧ W.work ∧ W.vlt ∧ W.sce ∧ W.key ∧ W.bbram ∧ W.evr ∧ W.dev ∧ W.pins ∧ W.out) :
    hide W (zeroThen j v b) = hide W b := by
  unfold zeroThen
  try dsimp only
  repeat' first | (simp [hide_ite, *]; done) | split

@[simp] theorem hide_concludeCore (W : Touch) (id : Nat) (v : Verdict) (b : Block) (hW : W.link ∧ W.q ∧ W.work ∧ W.vlt ∧ W.sce ∧ W.key ∧ W.bbram ∧ W.evr ∧ W.dev ∧ W.pins ∧ W.out) :
    hide W (concludeCore id v b) = hide W b := by
  unfold concludeCore
  try dsimp only
  repeat' first | (simp [hide_ite, *]; done) | split

@[simp] theorem hide_drainDone (W : Touch) (n : Nat) (b : Block) (hW : W.link ∧ W.q ∧ W.work ∧ W.vlt ∧ W.sce ∧ W.key ∧ W.bbram ∧ W.evr ∧ W.dev ∧ W.pins ∧ W.out) :
    hide W (drainDone n b) = hide W b := by
  unfold drainDone; simp [hide_ite, *]

@[simp] theorem hide_startRowless (W : Touch) (check : Bytes → Option (Nat × Nat)) (j : Job) (b : Block) (hW : W.link ∧ W.q ∧ W.work ∧ W.vlt ∧ W.sce ∧ W.key ∧ W.bbram ∧ W.evr ∧ W.dev ∧ W.pins ∧ W.out) :
    hide W (startRowless check j b) = hide W b := by
  unfold startRowless
  try dsimp only
  repeat' first | (simp [hide_ite, *]; done) | split

@[simp] theorem hide_settleJob (W : Touch) (check : Bytes → Option (Nat × Nat)) (b : Block) (id : Nat) (hW : W.link ∧ W.q ∧ W.work ∧ W.vlt ∧ W.sce ∧ W.key ∧ W.bbram ∧ W.evr ∧ W.dev ∧ W.pins ∧ W.out) :
    hide W (settleJob check b id) = hide W b := by
  unfold settleJob
  try dsimp only
  repeat' first | (simp [hide_ite, *]; done) | split

@[simp] theorem hide_parkWaiting (W : Touch) (b : Block) (hW : W.sce) :
    hide W (parkWaiting b) = hide W b := by
  unfold parkWaiting; simp [hide_ite, *]

@[simp] theorem hide_settleWith (W : Touch) (check : Bytes → Option (Nat × Nat)) (b : Block) (hW : W.link ∧ W.q ∧ W.work ∧ W.vlt ∧ W.sce ∧ W.key ∧ W.bbram ∧ W.evr ∧ W.dev ∧ W.pins ∧ W.out) :
    hide W (settleWith check b) = hide W b := by
  unfold settleWith; simp (maxDischargeDepth := 6) [hide_ite, *]

@[simp] theorem hide_settle (W : Touch) (b : Block) (hW : W.link ∧ W.q ∧ W.work ∧ W.vlt ∧ W.sce ∧ W.key ∧ W.bbram ∧ W.evr ∧ W.dev ∧ W.pins ∧ W.out) :
    hide W (settle b) = hide W b := by
  unfold settle; simp [hide_ite, *]

@[simp] theorem hide_conclude (W : Touch) (id : Nat) (v : Verdict) (b : Block) (hW : W.link ∧ W.q ∧ W.work ∧ W.vlt ∧ W.sce ∧ W.key ∧ W.bbram ∧ W.evr ∧ W.dev ∧ W.pins ∧ W.out) :
    hide W (conclude id v b) = hide W b := by
  unfold conclude; simp [hide_ite, *]

@[simp] theorem hide_reseed (W : Touch) (i : Nat) (b : Block) (hW : W.rng) :
    hide W (reseed i b) = hide W b := by
  unfold reseed; simp [hide_ite, *]

@[simp] theorem hide_generate (W : Touch) (i : Nat) (n : Nat) (b : Block) (hW : W.rng) :
    hide W (generate i n b) = hide W b := by
  unfold generate; simp [hide_ite, *]

@[simp] theorem hide_draw1 (W : Touch) (n : Nat) (b : Block) (hW : W.rng) :
    hide W (draw1 n b).2 = hide W b := by
  unfold draw1; simp [hide_ite, *]

@[simp] theorem hide_draw0 (W : Touch) (n : Nat) (b : Block) (hW : W.rng) :
    hide W (draw0 n b).2 = hide W b := by
  unfold draw0; simp [hide_ite, *]

@[simp] theorem hide_drawSeed (W : Touch) (n : Nat) (b : Block) (hW : W.rng) :
    hide W (drawSeed n b).2 = hide W b := by
  unfold drawSeed; simp [hide_ite, *]

@[simp] theorem hide_holdKek (W : Touch) (owner : Nat) (e : Nat) (b : Block) (hW : W.key) :
    hide W (holdKek owner e b) = hide W b := by
  unfold holdKek
  try dsimp only
  repeat' first | (simp [hide_ite, *]; done) | split

@[simp] theorem hide_reserveBlobs (W : Touch) (b : Block) (hW : W.key ∧ W.bbram) :
    hide W (reserveBlobs b) = hide W b := by
  unfold reserveBlobs; simp [hide_ite, *]

@[simp] theorem hide_makeBlob (W : Touch) (template : Bytes) (key : Bytes) (b : Block) (hW : W.rng ∧ W.key ∧ W.bbram) :
    hide W (makeBlob template key b).2 = hide W b := by
  unfold makeBlob; simp [hide_ite, *]

@[simp] theorem hide_onSlot (W : Touch) (s : Nat) (f : VSlot → VSlot) (b : Block) (hW : W.vlt) :
    hide W (onSlot s f b) = hide W b := by
  unfold onSlot; simp [hide_ite, *]

@[simp] theorem hide_pinSlot (W : Touch) (s : Nat) (p : Bool) (b : Block) (hW : W.vlt) :
    hide W (pinSlot s p b) = hide W b := by
  unfold pinSlot; simp [hide_ite, *]

@[simp] theorem hide_purgeBanks (W : Touch) (b : Block) (hW : W.ste ∧ W.sce) :
    hide W (purgeBanks b) = hide W b := by
  unfold purgeBanks; simp [hide_ite, *]

@[simp] theorem hide_freeSlot (W : Touch) (s : Nat) (b : Block) (hW : W.vlt) :
    hide W (freeSlot s b) = hide W b := by
  unfold freeSlot; simp [hide_ite, *]

@[simp] theorem hide_eraseCtx (W : Touch) (s : Nat) (b : Block) (hW : W.vlt ∧ W.ste ∧ W.sce) :
    hide W (eraseCtx s b) = hide W b := by
  unfold eraseCtx; simp [hide_ite, *]

@[simp] theorem hide_evictLru (W : Touch) (b : Block) (hW : W.vlt ∧ W.ste ∧ W.sce) :
    hide W (evictLru b) = hide W b := by
  unfold evictLru
  try dsimp only
  repeat' first | (simp [hide_ite, *]; done) | split

@[simp] theorem hide_keepReserve (W : Touch) (x0 : Nat) (x1 : Block) (hW : W.link ∧ W.vlt ∧ W.ste ∧ W.sce ∧ W.out) :
    hide W (keepReserve x0 x1) = hide W x1 := by
  induction x0 generalizing x1 with
  | zero => rfl
  | succ n ih => rw [keepReserve]; split <;> simp [ih, hW]

@[simp] theorem hide_setStage (W : Touch) (id : Nat) (st : Stage) (b : Block) (hW : W.work) :
    hide W (setStage id st b) = hide W b := by
  unfold setStage; simp [hide_ite, *]

theorem hide_takeFree (W : Touch) (b c : Block) (n : Nat) (hW : W.vlt = true) (h : takeFree b = some (n, c)) : hide W c = hide W b := by
  unfold takeFree at h
  split at h
  · cases h; simp [hW]
  · split at h <;> cases h; simp [hW]
theorem hide_claimSlot (W : Touch) (handle : Nat) (blob : Bytes) (b c : Block) (n : Nat) (hW : W.link = true ∧ W.work = true ∧ W.vlt = true ∧ W.ste = true ∧ W.sce = true ∧ W.out = true)
    (h : claimSlot handle blob b = some (n, c)) : hide W c = hide W b := by
  unfold claimSlot at h
  dsimp only at h
  split at h
  · cases h; simp [hW]
  · obtain ⟨p, hp, h⟩ := Option.map_eq_some_iff.mp h
    cases h
    rw [hide_keepReserve W _ _ (by simp [hW]), hide_onSlot W _ _ _ (by simp [hW]), hide_takeFree W _ _ _ (by simp [hW]) hp]
    split <;> simp [hW]
@[simp] theorem hide_claimFor (W : Touch) (id : Nat) (b : Block) (hW : W.link ∧ W.work ∧ W.vlt ∧ W.ste ∧ W.sce ∧ W.out) :
    hide W (claimFor id b) = hide W b := by
  unfold claimFor
  split
  · rfl
  · split
    · rename_i h; simp [hW, hide_claimSlot W _ _ _ _ _ (by simp [hW]) h]
    · simp [hW]

@[simp] theorem hide_startBlob (W : Touch) (id : Nat) (b : Block) (hW : W.link ∧ W.q ∧ W.work ∧ W.vlt ∧ W.sce ∧ W.key ∧ W.bbram ∧ W.evr ∧ W.dev ∧ W.pins ∧ W.out) :
    hide W (startBlob id b) = hide W b := by
  unfold startBlob
  try dsimp only
  repeat' first | (simp [hide_ite, *]; done) | split

@[simp] theorem hide_readBlob (W : Touch) (id : Nat) (b : Block) (hW : W.link ∧ W.q ∧ W.work ∧ W.vlt ∧ W.sce ∧ W.key ∧ W.bbram ∧ W.evr ∧ W.dev ∧ W.pins ∧ W.out) :
    hide W (readBlob id b) = hide W b := by
  unfold readBlob
  try dsimp only
  repeat' first | (simp [hide_ite, *]; done) | split

@[simp] theorem hide_nextLoads (W : Touch) (b : Block) (hW : W.link ∧ W.q ∧ W.work ∧ W.vlt ∧ W.sce ∧ W.key ∧ W.bbram ∧ W.evr ∧ W.dev ∧ W.pins ∧ W.out) :
    hide W (nextLoads b) = hide W b := by
  unfold nextLoads
  first
  | (simp (maxDischargeDepth := 6) [hide_ite, *]; done)
  | ((try dsimp only)
     repeat' first
      | (simp (maxDischargeDepth := 6) [hide_ite, *]; done)
      | (simp [hide, *]; done)
      | split
      | (refine hide_foldl W _ ?_ _ _; intro c x)
      | (refine (hide_foldl W _ ?_ _ _).trans ?_; focus intro c x))

@[simp] theorem hide_enqueue (W : Touch) (id : Nat) (b : Block) (hW : W.link ∧ W.q ∧ W.work ∧ W.vlt ∧ W.ste ∧ W.sce ∧ W.dge ∧ W.key ∧ W.bbram ∧ W.evr ∧ W.dev ∧ W.pins ∧ W.out) :
    hide W (enqueue id b) = hide W b := by
  unfold enqueue
  try dsimp only
  repeat' first | (simp [hide_ite, *]; done) | split

@[simp] theorem hide_touch (W : Touch) (s : Nat) (b : Block) (hW : W.vlt) :
    hide W (touch s b) = hide W b := by
  unfold touch; simp [hide_ite, *]

@[simp] theorem hide_resolved (W : Touch) (id : Nat) (slot : Nat) (b : Block) (hW : W.link ∧ W.q ∧ W.work ∧ W.vlt ∧ W.ste ∧ W.sce ∧ W.dge ∧ W.key ∧ W.bbram ∧ W.evr ∧ W.dev ∧ W.pins ∧ W.out) :
    hide W (resolved id slot b) = hide W b := by
  unfold resolved
  try dsimp only
  repeat' first | (simp [hide_ite, *]; done) | split

@[simp] theorem hide_startResolve (W : Touch) (id : Nat) (b : Block) (hW : W.link ∧ W.q ∧ W.work ∧ W.vlt ∧ W.ste ∧ W.sce ∧ W.dge ∧ W.key ∧ W.bbram ∧ W.evr ∧ W.dev ∧ W.pins ∧ W.out) :
    hide W (startResolve id b) = hide W b := by
  unfold startResolve
  try dsimp only
  repeat' first | (simp [hide_ite, *]; done) | split

@[simp] theorem hide_indexLookup (W : Touch) (id : Nat) (b : Block) (hW : W.link ∧ W.q ∧ W.work ∧ W.vlt ∧ W.ste ∧ W.sce ∧ W.dge ∧ W.key ∧ W.bbram ∧ W.evr ∧ W.dev ∧ W.pins ∧ W.out) :
    hide W (indexLookup id b) = hide W b := by
  unfold indexLookup
  try dsimp only
  repeat' first | (simp [hide_ite, *]; done) | split

@[simp] theorem hide_retryClaims (W : Touch) (b : Block) (hW : W.link ∧ W.q ∧ W.work ∧ W.vlt ∧ W.ste ∧ W.sce ∧ W.dge ∧ W.key ∧ W.bbram ∧ W.evr ∧ W.dev ∧ W.pins ∧ W.out) :
    hide W (retryClaims b) = hide W b := by
  unfold retryClaims; simp [hide_ite, *]

@[simp] theorem hide_blobArrived (W : Touch) (id : Nat) (blob : Bytes) (b : Block) (hW : W.link ∧ W.q ∧ W.work ∧ W.vlt ∧ W.ste ∧ W.sce ∧ W.dge ∧ W.key ∧ W.bbram ∧ W.evr ∧ W.dev ∧ W.pins ∧ W.out) :
    hide W (blobArrived id blob b) = hide W b := by
  unfold blobArrived
  try dsimp only
  repeat' first | (simp [hide_ite, *]; done) | split

@[simp] theorem hide_loadFailed (W : Touch) (id : Nat) (slot : Nat) (status : Nat) (detail : Nat) (b : Block) (hW : W.link ∧ W.q ∧ W.work ∧ W.vlt ∧ W.ste ∧ W.sce ∧ W.dge ∧ W.key ∧ W.bbram ∧ W.evr ∧ W.dev ∧ W.pins ∧ W.out) :
    hide W (loadFailed id slot status detail b) = hide W b := by
  unfold loadFailed; simp [hide_ite, *]

@[simp] theorem hide_unwrapDone (W : Touch) (id : Nat) (slot : Nat) (b : Block) (hW : W.link ∧ W.q ∧ W.work ∧ W.vlt ∧ W.ste ∧ W.sce ∧ W.dge ∧ W.key ∧ W.bbram ∧ W.evr ∧ W.dev ∧ W.pins ∧ W.out) :
    hide W (unwrapDone id slot b) = hide W b := by
  unfold unwrapDone
  try dsimp only
  repeat' first | (simp [hide_ite, *]; done) | split

@[simp] theorem hide_useEnded (W : Touch) (slot : Nat) (b : Block) (hW : W.link ∧ W.q ∧ W.work ∧ W.vlt ∧ W.ste ∧ W.sce ∧ W.key ∧ W.bbram ∧ W.evr ∧ W.dev ∧ W.pins ∧ W.out) :
    hide W (useEnded slot b) = hide W b := by
  unfold useEnded; simp [hide_ite, *]

@[simp] theorem hide_eraseWhere (W : Touch) (p : VSlot → Bool) (b : Block) (hW : W.vlt ∧ W.ste ∧ W.sce) :
    hide W (eraseWhere p b) = hide W b := by
  unfold eraseWhere; simp [hide_ite, *]

@[simp] theorem hide_stopFetch (W : Touch) (status : Nat) (detail : Nat) (id : Nat) (b : Block) (hW : W.link ∧ W.q ∧ W.work ∧ W.vlt ∧ W.sce ∧ W.key ∧ W.bbram ∧ W.evr ∧ W.dev ∧ W.pins ∧ W.out) :
    hide W (stopFetch status detail id b) = hide W b := by
  unfold stopFetch
  try dsimp only
  repeat' first | (simp [hide_ite, *]; done) | split

@[simp] theorem hide_stopUnwrap (W : Touch) (status : Nat) (detail : Nat) (id : Nat) (b : Block) (hW : W.link ∧ W.q ∧ W.work ∧ W.vlt ∧ W.ste ∧ W.sce ∧ W.dge ∧ W.key ∧ W.bbram ∧ W.evr ∧ W.dev ∧ W.pins ∧ W.out) :
    hide W (stopUnwrap status detail id b) = hide W b := by
  unfold stopUnwrap
  try dsimp only
  repeat' first | (simp [hide_ite, *]; done) | split

@[simp] theorem hide_stopLoads (W : Touch) (p : Job → Bool) (status : Nat) (detail : Nat) (b : Block) (hW : W.link ∧ W.q ∧ W.work ∧ W.vlt ∧ W.ste ∧ W.sce ∧ W.dge ∧ W.key ∧ W.bbram ∧ W.evr ∧ W.dev ∧ W.pins ∧ W.out) :
    hide W (stopLoads p status detail b) = hide W b := by
  unfold stopLoads
  first
  | (simp (maxDischargeDepth := 6) [hide_ite, *]; done)
  | ((try dsimp only)
     repeat' first
      | (simp (maxDischargeDepth := 6) [hide_ite, *]; done)
      | (simp [hide, *]; done)
      | split
      | (refine hide_foldl W _ ?_ _ _; intro c x)
      | (refine (hide_foldl W _ ?_ _ _).trans ?_; focus intro c x))

@[simp] theorem hide_emitData (W : Touch) (fn : Nat) (world : Bool) (rs : List (Nat × Nat)) (data : Bytes) (b : Block) (hW : W.link ∧ W.out) :
    hide W (emitData fn world rs data b) = hide W b := by
  unfold emitData; simp [hide_ite, *]

@[simp] theorem hide_freeBytes (W : Touch) (n : Nat) (b : Block) (hW : W.work) :
    hide W (freeBytes n b).2 = hide W b := by
  unfold freeBytes; simp [hide_ite, *]

@[simp] theorem hide_writeOut (W : Touch) (j : Job) (data : Bytes) (b : Block) (hW : W.link ∧ W.work ∧ W.out) :
    hide W (writeOut j data b) = hide W b := by
  unfold writeOut
  try dsimp only
  repeat' first | (simp [hide_ite, *]; done) | split

@[simp] theorem hide_countLane (W : Touch) (id : Nat) (b : Block) (hW : W.ste) :
    hide W (countLane id b) = hide W b := by
  unfold countLane
  try dsimp only
  repeat' first | (simp [hide_ite, *]; done) | split

@[simp] theorem hide_failOnUnit (W : Touch) (id : Nat) (progress : Nat) (status : Nat) (detail : Nat) (result : Nat) (b : Block) (hW : W.link ∧ W.q ∧ W.work ∧ W.vlt ∧ W.ste ∧ W.sce ∧ W.key ∧ W.bbram ∧ W.evr ∧ W.dev ∧ W.pins ∧ W.out) :
    hide W (failOnUnit id progress status detail result b) = hide W b := by
  unfold failOnUnit
  try dsimp only
  repeat' first | (simp [hide_ite, *]; done) | split

@[simp] theorem hide_dueEnds (W : Touch) (id : Nat) (b : Block) (hW : W.link ∧ W.q ∧ W.work ∧ W.vlt ∧ W.sce ∧ W.key ∧ W.bbram ∧ W.evr ∧ W.dev ∧ W.pins ∧ W.out) :
    hide W (dueEnds id b) = hide W b := by
  unfold dueEnds
  try dsimp only
  repeat' first | (simp [hide_ite, *]; done) | split

@[simp] theorem hide_flushLane (W : Touch) (id : Nat) (b : Block) (hW : W.link ∧ W.work ∧ W.out) :
    hide W (flushLane id b) = hide W b := by
  unfold flushLane
  try dsimp only
  repeat' first | (simp [hide_ite, *]; done) | split

@[simp] theorem hide_nextRead (W : Touch) (id : Nat) (b : Block) (hW : W.link ∧ W.q ∧ W.work ∧ W.vlt ∧ W.sce ∧ W.key ∧ W.bbram ∧ W.evr ∧ W.dev ∧ W.pins ∧ W.out) :
    hide W (nextRead id b) = hide W b := by
  unfold nextRead
  try dsimp only
  repeat' first | (simp [hide_ite, *]; done) | split

@[simp] theorem hide_beginOnUnit (W : Touch) (id : Nat) (b : Block) (hW : W.link ∧ W.q ∧ W.work ∧ W.vlt ∧ W.sce ∧ W.key ∧ W.bbram ∧ W.evr ∧ W.dev ∧ W.pins ∧ W.out) :
    hide W (beginOnUnit id b) = hide W b := by
  unfold beginOnUnit; simp [hide_ite, *]

@[simp] theorem hide_keyArrived (W : Touch) (id : Nat) (res : HostData) (b : Block) (hW : W.link ∧ W.q ∧ W.work ∧ W.vlt ∧ W.sce ∧ W.key ∧ W.bbram ∧ W.evr ∧ W.dev ∧ W.pins ∧ W.out) :
    hide W (keyArrived id res b) = hide W b := by
  unfold keyArrived
  try dsimp only
  repeat' first | (simp [hide_ite, *]; done) | split

@[simp] theorem hide_ivArrived (W : Touch) (id : Nat) (len : Nat) (res : HostData) (b : Block) (hW : W.link ∧ W.q ∧ W.work ∧ W.vlt ∧ W.ste ∧ W.sce ∧ W.key ∧ W.bbram ∧ W.evr ∧ W.dev ∧ W.pins ∧ W.out) :
    hide W (ivArrived id len res b) = hide W b := by
  unfold ivArrived
  try dsimp only
  repeat' first | (simp [hide_ite, *]; done) | split

@[simp] theorem hide_listFailed (W : Touch) (id : Nat) (progress : Nat) (output : Bool) (r : PieceResult) (b : Block) (hW : W.link ∧ W.q ∧ W.work ∧ W.vlt ∧ W.ste ∧ W.sce ∧ W.key ∧ W.bbram ∧ W.evr ∧ W.dev ∧ W.pins ∧ W.out) :
    hide W (listFailed id progress output r b) = hide W b := by
  unfold listFailed
  try dsimp only
  repeat' first | (simp [hide_ite, *]; done) | split

@[simp] theorem hide_srcPieceArrived (W : Touch) (id : Nat) (progress : Nat) (res : HostData) (b : Block) (hW : W.link ∧ W.q ∧ W.work ∧ W.vlt ∧ W.ste ∧ W.sce ∧ W.key ∧ W.bbram ∧ W.evr ∧ W.dev ∧ W.pins ∧ W.out) :
    hide W (srcPieceArrived id progress res b) = hide W b := by
  unfold srcPieceArrived
  try dsimp only
  repeat' first | (simp [hide_ite, *]; done) | split

@[simp] theorem hide_dstPieceArrived (W : Touch) (id : Nat) (progress : Nat) (res : HostData) (b : Block) (hW : W.link ∧ W.q ∧ W.work ∧ W.vlt ∧ W.ste ∧ W.sce ∧ W.key ∧ W.bbram ∧ W.evr ∧ W.dev ∧ W.pins ∧ W.out) :
    hide W (dstPieceArrived id progress res b) = hide W b := by
  unfold dstPieceArrived
  try dsimp only
  repeat' first | (simp [hide_ite, *]; done) | split

@[simp] theorem hide_sourceArrived (W : Touch) (id : Nat) (progress : Nat) (len : Nat) (res : HostData) (b : Block) (hW : W.link ∧ W.q ∧ W.work ∧ W.vlt ∧ W.ste ∧ W.sce ∧ W.key ∧ W.bbram ∧ W.evr ∧ W.dev ∧ W.pins ∧ W.out) :
    hide W (sourceArrived id progress len res b) = hide W b := by
  unfold sourceArrived
  try dsimp only
  repeat' first | (simp [hide_ite, *]; done) | split

@[simp] theorem hide_dataChecked (W : Touch) (id : Nat) (v : Verdict) (res : HostData) (b : Block) (hW : W.link ∧ W.q ∧ W.work ∧ W.vlt ∧ W.sce ∧ W.key ∧ W.bbram ∧ W.evr ∧ W.dev ∧ W.pins ∧ W.out) :
    hide W (dataChecked id v res b) = hide W b := by
  unfold dataChecked
  try dsimp only
  repeat' first | (simp [hide_ite, *]; done) | split

@[simp] theorem hide_zeroChecked (W : Touch) (id : Nat) (v : Verdict) (res : HostData) (b : Block) (hW : W.link ∧ W.q ∧ W.work ∧ W.vlt ∧ W.sce ∧ W.key ∧ W.bbram ∧ W.evr ∧ W.dev ∧ W.pins ∧ W.out) :
    hide W (zeroChecked id v res b) = hide W b := by
  unfold zeroChecked
  try dsimp only
  repeat' first | (simp [hide_ite, *]; done) | split

@[simp] theorem hide_tombChecked (W : Touch) (dqn : Nat) (mid : Nat) (res : HostData) (b : Block) (hW : W.sce) :
    hide W (tombChecked dqn mid res b) = hide W b := by
  unfold tombChecked; simp [hide_ite, *]

@[simp] theorem hide_onPipe (W : Touch) (n : Nat) (f : Pipe → Pipe) (b : Block) (hW : W.dge) :
    hide W (onPipe n f b) = hide W b := by
  unfold onPipe; simp [hide_ite, *]

@[simp] theorem hide_pipeTake (W : Touch) (b : Block) (hW : W.link ∧ W.q ∧ W.work ∧ W.vlt ∧ W.ste ∧ W.sce ∧ W.dge ∧ W.key ∧ W.bbram ∧ W.evr ∧ W.dev ∧ W.pins ∧ W.out) :
    hide W (pipeTake b) = hide W b := by
  unfold pipeTake
  try dsimp only
  repeat' first | (simp [hide_ite, *]; done) | split

@[simp] theorem hide_rngServe (W : Touch) (b : Block) (id : Nat) (hW : W.link ∧ W.q ∧ W.work ∧ W.vlt ∧ W.sce ∧ W.rng ∧ W.key ∧ W.bbram ∧ W.evr ∧ W.dev ∧ W.pins ∧ W.out) :
    hide W (rngServe b id) = hide W b := by
  unfold rngServe
  try dsimp only
  repeat' first | (simp [hide_ite, *]; done) | split

@[simp] theorem hide_settleAll (W : Touch) (b : Block) (hW : W.link ∧ W.q ∧ W.work ∧ W.vlt ∧ W.ste ∧ W.sce ∧ W.dge ∧ W.rng ∧ W.key ∧ W.bbram ∧ W.evr ∧ W.dev ∧ W.pins ∧ W.out) :
    hide W (settleAll b) = hide W b := by
  unfold settleAll; simp [hide_ite, *]

@[simp] theorem hide_queueError (W : Touch) (kind : Nat) (dqn : Nat) (b : Block) (hW : W.link ∧ W.q ∧ W.dev ∧ W.out) :
    hide W (queueError kind dqn b) = hide W b := by
  unfold queueError; simp [hide_ite, *]

@[simp] theorem hide_loseTurn (W : Touch) (n : Nat) (b : Block) (hW : W.q) :
    hide W (loseTurn n b) = hide W b := by
  unfold loseTurn; simp [hide_ite, *]

@[simp] theorem hide_doorbell (W : Touch) (n : Nat) (v : Word) (b : Block) (hW : W.link ∧ W.q ∧ W.key ∧ W.bbram ∧ W.evr ∧ W.dev ∧ W.pins ∧ W.out) :
    hide W (doorbell n v b) = hide W b := by
  unfold doorbell; simp [hide_ite, *]

@[simp] theorem hide_returnCredits (W : Touch) (os : List (Option Nat)) (b : Block) (hW : W.q) :
    hide W (returnCredits os b) = hide W b := by
  unfold returnCredits
  first
  | (simp (maxDischargeDepth := 6) [hide_ite, *]; done)
  | ((try dsimp only)
     repeat' first
      | (simp (maxDischargeDepth := 6) [hide_ite, *]; done)
      | (simp [hide, *]; done)
      | split
      | (refine hide_foldl W _ ?_ _ _; intro c x)
      | (refine (hide_foldl W _ ?_ _ _).trans ?_; focus intro c x))

@[simp] theorem hide_releaseTo (W : Touch) (n : Nat) (v : Word) (b : Block) (hW : W.link ∧ W.q ∧ W.key ∧ W.bbram ∧ W.evr ∧ W.dev ∧ W.pins ∧ W.out) :
    hide W (releaseTo n v b) = hide W b := by
  unfold releaseTo; simp [hide_ite, *]

@[simp] theorem hide_barWrite (W : Touch) (fn : Nat) (f : Block → Block) (b : Block) (hW : W.link ∧ W.out) (hf0 : ∀ y0, hide W (f y0) = hide W y0) :
    hide W (barWrite fn f b) = hide W b := by
  unfold barWrite; simp [hide_ite, *]

@[simp] theorem hide_tailWrite (W : Touch) (fn : Nat) (page : Nat) (v : Word) (b : Block) (hW : W.link ∧ W.q ∧ W.work ∧ W.vlt ∧ W.ste ∧ W.sce ∧ W.dge ∧ W.rng ∧ W.key ∧ W.bbram ∧ W.evr ∧ W.dev ∧ W.pins ∧ W.out) :
    hide W (tailWrite fn page v b) = hide W b := by
  unfold tailWrite
  try dsimp only
  repeat' first | (simp [hide_ite, *]; done) | split

@[simp] theorem hide_sqDoorbell (W : Touch) (fn : Nat) (page : Nat) (v : Word) (b : Block) (hW : W.link ∧ W.q ∧ W.work ∧ W.vlt ∧ W.ste ∧ W.sce ∧ W.dge ∧ W.rng ∧ W.key ∧ W.bbram ∧ W.evr ∧ W.dev ∧ W.pins ∧ W.out) :
    hide W (sqDoorbell fn page v b) = hide W b := by
  unfold sqDoorbell
  split
  · simp [hW]
  · exact hide_barWrite W _ _ _ (by simp [hW]) (by intro c; simp [hW])

@[simp] theorem hide_cqHeadWrite (W : Touch) (fn : Nat) (page : Nat) (v : Word) (b : Block) (hW : W.link ∧ W.q ∧ W.work ∧ W.vlt ∧ W.ste ∧ W.sce ∧ W.dge ∧ W.rng ∧ W.key ∧ W.bbram ∧ W.evr ∧ W.dev ∧ W.pins ∧ W.out) :
    hide W (cqHeadWrite fn page v b) = hide W b := by
  unfold cqHeadWrite
  apply hide_barWrite
  · simp [hW]
  · intro c
    (try dsimp only)
    repeat' first
      | (simp (maxDischargeDepth := 6) [hide_ite, *]; done)
      | (simp [hide, *]; done)
      | split

@[simp] theorem hide_yieldTurn (W : Touch) (b : Block) (hW : W.q) :
    hide W (yieldTurn b) = hide W b := by
  unfold yieldTurn; simp [hide_ite, *]

@[simp] theorem hide_reserveUpTo (W : Touch) (n : Nat) (x0 : Nat) (x1 : Block) (hW : W.q) :
    hide W (reserveUpTo n x0 x1).2 = hide W x1 := by
  induction x0 generalizing x1 with
  | zero => rfl
  | succ n ih => rw [reserveUpTo]; split <;> simp [ih, hW]

@[simp] theorem hide_descriptorFetch (W : Touch) (b : Block) (hW : W.link ∧ W.q ∧ W.work ∧ W.vlt ∧ W.sce ∧ W.key ∧ W.bbram ∧ W.evr ∧ W.dev ∧ W.pins ∧ W.out) :
    hide W (descriptorFetch b) = hide W b := by
  unfold descriptorFetch
  try dsimp only
  repeat' first | (simp [hide_ite, *]; done) | split

@[simp] theorem hide_advanceHead (W : Touch) (n : Nat) (k : Nat) (b : Block) (hW : W.link ∧ W.q ∧ W.out) :
    hide W (advanceHead n k b) = hide W b := by
  unfold advanceHead; simp [hide_ite, *]

@[simp] theorem hide_takeDescriptor (W : Touch) (n : Nat) (world : Bool) (res : HostData) (b : Block) (i : Nat) (hW : W.link ∧ W.q ∧ W.work ∧ W.out) :
    hide W (takeDescriptor n world res b i) = hide W b := by
  unfold takeDescriptor; simp [hide_ite, *]

@[simp] theorem hide_descsArrived (W : Touch) (n : Nat) (k : Nat) (world : Bool) (res : HostData) (b : Block) (hW : W.link ∧ W.q ∧ W.work ∧ W.vlt ∧ W.sce ∧ W.key ∧ W.bbram ∧ W.evr ∧ W.dev ∧ W.pins ∧ W.out) :
    hide W (descsArrived n k world res b) = hide W b := by
  unfold descsArrived; simp [hide_ite, *]

@[simp] theorem hide_drainEntry (W : Touch) (n : Nat) (b : Block) (hW : W.link ∧ W.q ∧ W.work ∧ W.vlt ∧ W.ste ∧ W.sce ∧ W.dge ∧ W.rng ∧ W.key ∧ W.bbram ∧ W.evr ∧ W.dev ∧ W.pins ∧ W.out) :
    hide W (drainEntry n b) = hide W b := by
  unfold drainEntry; simp [hide_ite, *]

@[simp] theorem hide_drainArrived (W : Touch) (n : Nat) (res : HostData) (b : Block) (hW : W.link ∧ W.q ∧ W.out) :
    hide W (drainArrived n res b) = hide W b := by
  unfold drainArrived; simp [hide_ite, *]

@[simp] theorem hide_createCq (W : Touch) (n : Nat) (fn : Nat) (qid : Nat) (base : Nat) (sizeLog2 : Nat) (vector : Nat) (irqEn : Bool) (b : Block) (hW : W.q) :
    hide W (createCq n fn qid base sizeLog2 vector irqEn b) = hide W b := by
  unfold createCq; simp [hide_ite, *]

@[simp] theorem hide_createSq (W : Touch) (n : Nat) (fn : Nat) (qid : Nat) (cq : Nat) (base : Nat) (sizeLog2 : Nat) (minCred : Nat) (weight : Nat) (shadow : Nat) (b : Block) (hW : W.q) :
    hide W (createSq n fn qid cq base sizeLog2 minCred weight shadow b) = hide W b := by
  unfold createSq; simp [hide_ite, *]

@[simp] theorem hide_adminEnable (W : Touch) (b : Block) (hW : W.link ∧ W.q ∧ W.dev ∧ W.out) :
    hide W (adminEnable b) = hide W b := by
  unfold adminEnable; simp [hide_ite, *]

@[simp] theorem hide_adminRun (W : Touch) (op : Nat) (id : Nat) (act : Job → Block → Block) (b : Block) (hW : W.link ∧ W.q ∧ W.work ∧ W.vlt ∧ W.ste ∧ W.sce ∧ W.dge ∧ W.rng ∧ W.key ∧ W.bbram ∧ W.evr ∧ W.dev ∧ W.pins ∧ W.out) (hf0 : ∀ y0 y1, hide W (act y0 y1) = hide W y1) :
    hide W (adminRun op id act b) = hide W b := by
  unfold adminRun
  try dsimp only
  repeat' first | (simp [hide_ite, *]; done) | split

@[simp] theorem hide_createSqCmd (W : Touch) (id : Nat) (x0 : Block) (hW : W.link ∧ W.q ∧ W.work ∧ W.vlt ∧ W.ste ∧ W.sce ∧ W.dge ∧ W.rng ∧ W.key ∧ W.bbram ∧ W.evr ∧ W.dev ∧ W.pins ∧ W.out) :
    hide W (createSqCmd id x0) = hide W x0 := by
  unfold createSqCmd; simp [hide_ite, *]

@[simp] theorem hide_createCqCmd (W : Touch) (id : Nat) (x0 : Block) (hW : W.link ∧ W.q ∧ W.work ∧ W.vlt ∧ W.ste ∧ W.sce ∧ W.dge ∧ W.rng ∧ W.key ∧ W.bbram ∧ W.evr ∧ W.dev ∧ W.pins ∧ W.out) :
    hide W (createCqCmd id x0) = hide W x0 := by
  unfold createCqCmd; simp [hide_ite, *]

@[simp] theorem hide_disableSqCmd (W : Touch) (id : Nat) (x0 : Block) (hW : W.link ∧ W.q ∧ W.work ∧ W.vlt ∧ W.ste ∧ W.sce ∧ W.dge ∧ W.rng ∧ W.key ∧ W.bbram ∧ W.evr ∧ W.dev ∧ W.pins ∧ W.out) :
    hide W (disableSqCmd id x0) = hide W x0 := by
  unfold disableSqCmd; simp [hide_ite, *]

@[simp] theorem hide_dropSq (W : Touch) (n : Nat) (b : Block) (hW : W.q ∧ W.sce) :
    hide W (dropSq n b) = hide W b := by
  unfold dropSq; simp [hide_ite, *]

@[simp] theorem hide_deleteSqCmd (W : Touch) (id : Nat) (x0 : Block) (hW : W.link ∧ W.q ∧ W.work ∧ W.vlt ∧ W.ste ∧ W.sce ∧ W.dge ∧ W.rng ∧ W.key ∧ W.bbram ∧ W.evr ∧ W.dev ∧ W.pins ∧ W.out) :
    hide W (deleteSqCmd id x0) = hide W x0 := by
  unfold deleteSqCmd; simp [hide_ite, *]

@[simp] theorem hide_deleteCqCmd (W : Touch) (id : Nat) (x0 : Block) (hW : W.link ∧ W.q ∧ W.work ∧ W.vlt ∧ W.ste ∧ W.sce ∧ W.dge ∧ W.rng ∧ W.key ∧ W.bbram ∧ W.evr ∧ W.dev ∧ W.pins ∧ W.out) :
    hide W (deleteCqCmd id x0) = hide W x0 := by
  unfold deleteCqCmd; simp [hide_ite, *]

@[simp] theorem hide_adminWrite (W : Touch) (j : Job) (parts : List (Nat × Bytes)) (total : Nat) (b : Block) (hW : W.link ∧ W.work ∧ W.out) :
    hide W (adminWrite j parts total b) = hide W b := by
  unfold adminWrite; simp [hide_ite, *]

@[simp] theorem hide_queryQueueCmd (W : Touch) (id : Nat) (x0 : Block) (hW : W.link ∧ W.q ∧ W.work ∧ W.vlt ∧ W.ste ∧ W.sce ∧ W.dge ∧ W.rng ∧ W.key ∧ W.bbram ∧ W.evr ∧ W.dev ∧ W.pins ∧ W.out) :
    hide W (queryQueueCmd id x0) = hide W x0 := by
  unfold queryQueueCmd; simp [hide_ite, *]

@[simp] theorem hide_setWeightCmd (W : Touch) (id : Nat) (x0 : Block) (hW : W.link ∧ W.q ∧ W.work ∧ W.vlt ∧ W.ste ∧ W.sce ∧ W.dge ∧ W.rng ∧ W.key ∧ W.bbram ∧ W.evr ∧ W.dev ∧ W.pins ∧ W.out) :
    hide W (setWeightCmd id x0) = hide W x0 := by
  unfold setWeightCmd; simp [hide_ite, *]

@[simp] theorem hide_fenceAllCmd (W : Touch) (id : Nat) (x0 : Block) (hW : W.link ∧ W.q ∧ W.work ∧ W.vlt ∧ W.ste ∧ W.sce ∧ W.dge ∧ W.rng ∧ W.key ∧ W.bbram ∧ W.evr ∧ W.dev ∧ W.pins ∧ W.out) :
    hide W (fenceAllCmd id x0) = hide W x0 := by
  unfold fenceAllCmd; simp [hide_ite, *]

@[simp] theorem hide_wdgBootPhase (W : Touch) (b : Block) (hW : W.wdg) :
    hide W (wdgBootPhase b) = hide W b := by
  unfold wdgBootPhase; simp [hide_ite, *]

@[simp] theorem hide_onHostReset (W : Touch) (f : PinSt → PinSt) (b : Block) (hW : W.link ∧ W.pins ∧ W.wdg ∧ W.out) :
    hide W (onHostReset f b) = hide W b := by
  unfold onHostReset; simp [hide_ite, *]

@[simp] theorem hide_pullFromUnits (W : Touch) (gone : Nat → Bool) (b : Block) (hW : W.vlt ∧ W.ste ∧ W.sce ∧ W.dge) :
    hide W (pullFromUnits gone b) = hide W b := by
  unfold pullFromUnits; simp [hide_ite, *]

@[simp] theorem hide_dropJobs (W : Touch) (p : Job → Bool) (b : Block) (hW : W.work ∧ W.vlt ∧ W.ste ∧ W.sce ∧ W.dge) :
    hide W (dropJobs p b) = hide W b := by
  unfold dropJobs; simp [hide_ite, *]

@[simp] theorem hide_dropMsgs (W : Touch) (p : Msg → Bool) (b : Block) (hW : W.sce) :
    hide W (dropMsgs p b) = hide W b := by
  unfold dropMsgs; simp [hide_ite, *]

@[simp] theorem hide_endQueues (W : Touch) (p : Nat → Bool) (b : Block) (hW : W.link ∧ W.q ∧ W.work ∧ W.vlt ∧ W.ste ∧ W.sce ∧ W.dge ∧ W.dev) :
    hide W (endQueues p b) = hide W b := by
  unfold endQueues; simp [hide_ite, *]

@[simp] theorem hide_tdiError (W : Touch) (fn : Nat) (b : Block) (hW : W.link ∧ W.q ∧ W.work ∧ W.vlt ∧ W.ste ∧ W.sce ∧ W.dge ∧ W.dev ∧ W.out) :
    hide W (tdiError fn b) = hide W b := by
  unfold tdiError; simp [hide_ite, *]

@[simp] theorem hide_tdiUnlock (W : Touch) (fn : Nat) (b : Block) (hW : W.link ∧ W.rcd ∧ W.out) :
    hide W (tdiUnlock fn b) = hide W b := by
  unfold tdiUnlock; simp [hide_ite, *]

@[simp] theorem hide_tdiViolation (W : Touch) (fn : Nat) (b : Block) (hW : W.link ∧ W.q ∧ W.work ∧ W.vlt ∧ W.ste ∧ W.sce ∧ W.dge ∧ W.dev ∧ W.out) :
    hide W (tdiViolation fn b) = hide W b := by
  unfold tdiViolation
  try dsimp only
  repeat' first | (simp [hide_ite, *]; done) | split

@[simp] theorem hide_vfReset (W : Touch) (fn : Nat) (b : Block) (hW : W.link ∧ W.q ∧ W.work ∧ W.vlt ∧ W.ste ∧ W.sce ∧ W.dge ∧ W.dev ∧ W.rcd ∧ W.out) :
    hide W (vfReset fn b) = hide W b := by
  unfold vfReset; simp [hide_ite, *]

@[simp] theorem hide_legFree (W : Touch) (b : Block) (hW : W.sce ∧ W.dge ∧ W.leg) :
    hide W (legFree b) = hide W b := by
  unfold legFree
  try dsimp only
  repeat' first | (simp [hide_ite, *]; done) | split

@[simp] theorem hide_legEnd (W : Touch) (status : Nat) (detail : Nat) (b : Block) (hW : W.leg) :
    hide W (legEnd status detail b) = hide W b := by
  unfold legEnd; simp [hide_ite, *]

@[simp] theorem hide_legReset (W : Touch) (b : Block) (hW : W.sce ∧ W.dge ∧ W.leg) :
    hide W (legReset b) = hide W b := by
  unfold legReset; simp [hide_ite, *]

@[simp] theorem hide_resetAdmin (W : Touch) (b : Block) (hW : W.q) :
    hide W (resetAdmin b) = hide W b := by
  unfold resetAdmin; simp [hide_ite, *]

@[simp] theorem hide_pf0Reset (W : Touch) (b : Block) (hW : W.link ∧ W.q ∧ W.work ∧ W.vlt ∧ W.ste ∧ W.sce ∧ W.dge ∧ W.dev ∧ W.rcd ∧ W.leg ∧ W.out) :
    hide W (pf0Reset b) = hide W b := by
  unfold pf0Reset; simp [hide_ite, *]

@[simp] theorem hide_dropLinkReads (W : Touch) (b : Block) (hW : W.work) :
    hide W (dropLinkReads b) = hide W b := by
  unfold dropLinkReads; simp [hide_ite, *]

@[simp] theorem hide_linkReset (W : Touch) (b : Block) (hW : W.link ∧ W.q ∧ W.work ∧ W.vlt ∧ W.ste ∧ W.sce ∧ W.dge ∧ W.dev ∧ W.rcd ∧ W.leg ∧ W.out) :
    hide W (linkReset b) = hide W b := by
  unfold linkReset; simp [hide_ite, *]

@[simp] theorem hide_linkDown (W : Touch) (b : Block) (hW : W.link ∧ W.q ∧ W.work ∧ W.vlt ∧ W.ste ∧ W.sce ∧ W.dge ∧ W.dev ∧ W.rcd ∧ W.leg ∧ W.out) :
    hide W (linkDown b) = hide W b := by
  unfold linkDown; simp [hide_ite, *]

@[simp] theorem hide_holdHost (W : Touch) (f : PinSt → PinSt) (b : Block) (hW : W.link ∧ W.q ∧ W.work ∧ W.vlt ∧ W.ste ∧ W.sce ∧ W.dge ∧ W.dev ∧ W.pins ∧ W.rcd ∧ W.wdg ∧ W.leg ∧ W.out) :
    hide W (holdHost f b) = hide W b := by
  unfold holdHost; simp [hide_ite, *]

@[simp] theorem hide_chipReset (W : Touch) (kind : Nat) (b : Block) (hW : W.run ∧ W.link ∧ W.q ∧ W.work ∧ W.vlt ∧ W.ste ∧ W.sce ∧ W.dge ∧ W.pke ∧ W.rng ∧ W.key ∧ W.bbram ∧ W.evr ∧ W.dev ∧ W.pins ∧ W.pwr ∧ W.kpr ∧ W.tmp ∧ W.otp ∧ W.boot ∧ W.flt ∧ W.rcd ∧ W.wdg ∧ W.leg ∧ W.mon ∧ W.sb ∧ W.out) :
    hide W (chipReset kind b) = hide W b := by
  unfold chipReset
  try dsimp only
  repeat' first | (simp (maxDischargeDepth := 6) [hide_ite, *]; done) | (simp [hide, *]; done) | split

@[simp] theorem hide_monitorHsmDone (W : Touch) (id : Nat) (status : Nat) (detail : Nat) (result : Nat) (output : Bytes) (b : Block) (hW : W.link ∧ W.mon ∧ W.out) :
    hide W (monitorHsmDone id status detail result output b) = hide W b := by
  unfold monitorHsmDone
  try dsimp only
  repeat' first | (simp [hide_ite, *]; done) | split

@[simp] theorem hide_monitorUnitDone (W : Touch) (b : Block) (hW : W.link ∧ W.mon ∧ W.out) :
    hide W (monitorUnitDone b) = hide W b := by
  unfold monitorUnitDone
  try dsimp only
  repeat' first | (simp [hide_ite, *]; done) | split

@[simp] theorem hide_zeroBbram (W : Touch) (b : Block) (hW : W.bbram) :
    hide W (zeroBbram b) = hide W b := by
  unfold zeroBbram; simp [hide_ite, *]

@[simp] theorem hide_eraseKeys (W : Touch) (b : Block) (hW : W.ste ∧ W.sce ∧ W.pke ∧ W.rng ∧ W.key ∧ W.kpr ∧ W.otp) :
    hide W (eraseKeys b) = hide W b := by
  unfold eraseKeys; simp [hide_ite, *]

@[simp] theorem hide_flashWaitersDie (W : Touch) (ops : List FlashOp) (b : Block) (hW : W.link ∧ W.out) :
    hide W (flashWaitersDie ops b) = hide W b := by
  unfold flashWaitersDie
  first
  | (simp (maxDischargeDepth := 6) [hide_ite, *]; done)
  | ((try dsimp only)
     repeat' first
      | (simp (maxDischargeDepth := 6) [hide_ite, *]; done)
      | (simp [hide, *]; done)
      | split
      | (refine hide_foldl W _ ?_ _ _; intro c x)
      | (refine (hide_foldl W _ ?_ _ _).trans ?_; focus intro c x))

@[simp] theorem hide_flashFrost (W : Touch) (b : Block) (hW : W.link ∧ W.dev ∧ W.pins ∧ W.flt ∧ W.out) :
    hide W (flashFrost b) = hide W b := by
  unfold flashFrost; simp [hide_ite, *]

@[simp] theorem hide_sweepStores (W : Touch) (b : Block) (hW : W.link ∧ W.vlt ∧ W.sce ∧ W.dge ∧ W.dev ∧ W.pins ∧ W.boot ∧ W.flt ∧ W.leg ∧ W.out) :
    hide W (sweepStores b) = hide W b := by
  unfold sweepStores; simp [hide_ite, *]

@[simp] theorem hide_frostJob (W : Touch) (b : Block) (id : Nat) (hW : W.link ∧ W.q ∧ W.work ∧ W.vlt ∧ W.sce ∧ W.key ∧ W.bbram ∧ W.evr ∧ W.dev ∧ W.pins ∧ W.out) :
    hide W (frostJob b id) = hide W b := by
  unfold frostJob
  try dsimp only
  repeat' first | (simp [hide_ite, *]; done) | split

@[simp] theorem hide_frostWork (W : Touch) (b : Block) (hW : W.link ∧ W.q ∧ W.work ∧ W.vlt ∧ W.ste ∧ W.sce ∧ W.dge ∧ W.key ∧ W.bbram ∧ W.evr ∧ W.dev ∧ W.pins ∧ W.out) :
    hide W (frostWork b) = hide W b := by
  unfold frostWork; simp [hide_ite, *]

@[simp] theorem hide_latchFrost (W : Touch) (t : Nat) (b : Block) (hW : W.tmp) :
    hide W (latchFrost t b) = hide W b := by
  unfold latchFrost; simp [hide_ite, *]

@[simp] theorem hide_frost (W : Touch) (t : Nat) (b : Block) (hW : W.run ∧ W.link ∧ W.q ∧ W.work ∧ W.vlt ∧ W.ste ∧ W.sce ∧ W.dge ∧ W.pke ∧ W.rng ∧ W.key ∧ W.bbram ∧ W.evr ∧ W.dev ∧ W.pins ∧ W.pwr ∧ W.kpr ∧ W.tmp ∧ W.otp ∧ W.boot ∧ W.flt ∧ W.wdg ∧ W.leg ∧ W.mon ∧ W.out) :
    hide W (frost t b) = hide W b := by
  unfold frost; simp [hide_ite, *]

@[simp] theorem hide_escalate (W : Touch) (b : Block) (hW : W.run ∧ W.link ∧ W.q ∧ W.work ∧ W.vlt ∧ W.ste ∧ W.sce ∧ W.dge ∧ W.pke ∧ W.rng ∧ W.key ∧ W.bbram ∧ W.evr ∧ W.dev ∧ W.pins ∧ W.pwr ∧ W.kpr ∧ W.tmp ∧ W.otp ∧ W.boot ∧ W.flt ∧ W.rcd ∧ W.wdg ∧ W.leg ∧ W.mon ∧ W.sb ∧ W.out) :
    hide W (escalate b) = hide W b := by
  unfold escalate; simp [hide_ite, *]

@[simp] theorem hide_stampAlarm (W : Touch) (b : Block) (hW : W.run ∧ W.link ∧ W.q ∧ W.work ∧ W.vlt ∧ W.ste ∧ W.sce ∧ W.dge ∧ W.pke ∧ W.rng ∧ W.key ∧ W.bbram ∧ W.evr ∧ W.dev ∧ W.pins ∧ W.pwr ∧ W.kpr ∧ W.tmp ∧ W.otp ∧ W.boot ∧ W.flt ∧ W.rcd ∧ W.wdg ∧ W.leg ∧ W.mon ∧ W.sb ∧ W.out) :
    hide W (stampAlarm b) = hide W b := by
  unfold stampAlarm; simp [hide_ite, *]

@[simp] theorem hide_putRail (W : Touch) (u : Supply) (r : Rail) (b : Block) (hW : W.sup) :
    hide W (putRail u r b) = hide W b := by
  unfold putRail; simp [hide_ite, *]

@[simp] theorem hide_orderFault (W : Touch) (code : Nat) (b : Block) (hW : W.sup) :
    hide W (orderFault code b) = hide W b := by
  unfold orderFault; simp [hide_ite, *]

@[simp] theorem hide_vbatLoss (W : Touch) (b : Block) (hW : W.run ∧ W.link ∧ W.q ∧ W.work ∧ W.vlt ∧ W.ste ∧ W.sce ∧ W.dge ∧ W.pke ∧ W.rng ∧ W.key ∧ W.bbram ∧ W.evr ∧ W.dev ∧ W.pins ∧ W.pwr ∧ W.kpr ∧ W.tmp ∧ W.otp ∧ W.boot ∧ W.flt ∧ W.wdg ∧ W.leg ∧ W.mon ∧ W.out) :
    hide W (vbatLoss b) = hide W b := by
  unfold vbatLoss; simp [hide_ite, *]

@[simp] theorem hide_vbatWeak (W : Touch) (b : Block) (hW : W.run ∧ W.link ∧ W.q ∧ W.work ∧ W.vlt ∧ W.ste ∧ W.sce ∧ W.dge ∧ W.pke ∧ W.rng ∧ W.key ∧ W.bbram ∧ W.evr ∧ W.dev ∧ W.pins ∧ W.pwr ∧ W.kpr ∧ W.sup ∧ W.tmp ∧ W.otp ∧ W.boot ∧ W.flt ∧ W.wdg ∧ W.leg ∧ W.mon ∧ W.out) :
    hide W (vbatWeak b) = hide W b := by
  unfold vbatWeak; simp [hide_ite, *]

@[simp] theorem hide_supplyStarts (W : Touch) (u : Supply) (b : Block) (hW : W.sup) :
    hide W (supplyStarts u b) = hide W b := by
  unfold supplyStarts; simp [hide_ite, *]

@[simp] theorem hide_supplyGood (W : Touch) (u : Supply) (b : Block) (hW : W.sup) :
    hide W (supplyGood u b) = hide W b := by
  unfold supplyGood
  try dsimp only
  repeat' first | (simp [hide_ite, *]; done) | split

@[simp] theorem hide_supplyLost (W : Touch) (u : Supply) (b : Block) (hW : W.run ∧ W.link ∧ W.q ∧ W.work ∧ W.vlt ∧ W.ste ∧ W.sce ∧ W.dge ∧ W.pke ∧ W.rng ∧ W.key ∧ W.bbram ∧ W.evr ∧ W.dev ∧ W.pins ∧ W.pwr ∧ W.kpr ∧ W.sup ∧ W.tmp ∧ W.otp ∧ W.boot ∧ W.flt ∧ W.wdg ∧ W.leg ∧ W.mon ∧ W.out) :
    hide W (supplyLost u b) = hide W b := by
  unfold supplyLost
  try dsimp only
  repeat' first | (simp [hide_ite, *]; done) | split

@[simp] theorem hide_supplyEmpties (W : Touch) (u : Supply) (b : Block) (hW : W.run ∧ W.link ∧ W.q ∧ W.work ∧ W.vlt ∧ W.ste ∧ W.sce ∧ W.dge ∧ W.pke ∧ W.rng ∧ W.key ∧ W.bbram ∧ W.evr ∧ W.dev ∧ W.pins ∧ W.pwr ∧ W.kpr ∧ W.sup ∧ W.tmp ∧ W.otp ∧ W.boot ∧ W.flt ∧ W.wdg ∧ W.leg ∧ W.mon ∧ W.out) :
    hide W (supplyEmpties u b) = hide W b := by
  unfold supplyEmpties; simp [hide_ite, *]

@[simp] theorem hide_supplySagged (W : Touch) (u : Supply) (b : Block) (hW : W.sup) :
    hide W (supplySagged u b) = hide W b := by
  unfold supplySagged; simp [hide_ite, *]

@[simp] theorem hide_supplyCross (W : Touch) (u : Supply) (c : Crossing) (b : Block) (hW : W.run ∧ W.link ∧ W.q ∧ W.work ∧ W.vlt ∧ W.ste ∧ W.sce ∧ W.dge ∧ W.pke ∧ W.rng ∧ W.key ∧ W.bbram ∧ W.evr ∧ W.dev ∧ W.pins ∧ W.pwr ∧ W.kpr ∧ W.sup ∧ W.tmp ∧ W.otp ∧ W.boot ∧ W.flt ∧ W.wdg ∧ W.leg ∧ W.mon ∧ W.out) :
    hide W (supplyCross u c b) = hide W b := by
  unfold supplyCross
  try dsimp only
  repeat' first | (simp [hide_ite, *]; done) | split

@[simp] theorem hide_powerGoodFall (W : Touch) (b : Block) (hW : W.run ∧ W.link ∧ W.q ∧ W.work ∧ W.vlt ∧ W.ste ∧ W.sce ∧ W.dge ∧ W.pke ∧ W.rng ∧ W.key ∧ W.bbram ∧ W.evr ∧ W.dev ∧ W.pins ∧ W.pwr ∧ W.kpr ∧ W.sup ∧ W.tmp ∧ W.otp ∧ W.boot ∧ W.flt ∧ W.rcd ∧ W.wdg ∧ W.leg ∧ W.mon ∧ W.sb ∧ W.out) :
    hide W (powerGoodFall b) = hide W b := by
  unfold powerGoodFall; simp [hide_ite, *]

@[simp] theorem hide_vbatLow (W : Touch) (mv : Nat) (b : Block) (hW : W.run ∧ W.link ∧ W.q ∧ W.work ∧ W.vlt ∧ W.ste ∧ W.sce ∧ W.dge ∧ W.pke ∧ W.rng ∧ W.key ∧ W.bbram ∧ W.evr ∧ W.dev ∧ W.pins ∧ W.pwr ∧ W.kpr ∧ W.sup ∧ W.tmp ∧ W.otp ∧ W.boot ∧ W.flt ∧ W.wdg ∧ W.leg ∧ W.mon ∧ W.out) :
    hide W (vbatLow mv b) = hide W b := by
  unfold vbatLow; simp [hide_ite, *]

@[simp] theorem hide_crystalWait (W : Touch) (b : Block) (hW : W.tmp) :
    hide W (crystalWait b) = hide W b := by
  unfold crystalWait; simp [hide_ite, *]

@[simp] theorem hide_vbatReturn (W : Touch) (mv : Nat) (b : Block) (hW : W.sup) :
    hide W (vbatReturn mv b) = hide W b := by
  unfold vbatReturn; simp [hide_ite, *]

@[simp] theorem hide_batteryUp (W : Touch) (mv : Nat) (b : Block) (hW : W.time ∧ W.bbram ∧ W.sup ∧ W.tmp) :
    hide W (batteryUp mv b) = hide W b := by
  unfold batteryUp; simp [hide_ite, *]

@[simp] theorem hide_startOp (W : Touch) (op : Nat) (id : Nat) (go : Job → Block → Block) (b : Block) (hW : W.link ∧ W.q ∧ W.work ∧ W.vlt ∧ W.ste ∧ W.sce ∧ W.dge ∧ W.rng ∧ W.key ∧ W.bbram ∧ W.evr ∧ W.dev ∧ W.pins ∧ W.out) (hf0 : ∀ y0 y1, hide W (go y0 y1) = hide W y1) :
    hide W (startOp op id go b) = hide W b := by
  unfold startOp
  try dsimp only
  repeat' first | (simp [hide_ite, *]; done) | split

@[simp] theorem hide_resumeResolves (W : Touch) (b : Block) (hW : W.link ∧ W.q ∧ W.work ∧ W.vlt ∧ W.ste ∧ W.sce ∧ W.dge ∧ W.key ∧ W.bbram ∧ W.evr ∧ W.dev ∧ W.pins ∧ W.out) :
    hide W (resumeResolves b) = hide W b := by
  unfold resumeResolves; simp [hide_ite, *]

@[simp] theorem hide_pf0Write (W : Touch) (resv : Nat) (v : Word) (f : Block → Block) (b : Block) (hW : W.link ∧ W.dev ∧ W.out) (hf0 : ∀ y0, hide W (f y0) = hide W y0) :
    hide W (pf0Write resv v f b) = hide W b := by
  unfold pf0Write; simp [hide_ite, *]

@[simp] theorem hide_pf0Read (W : Touch) (inFrozen : Bool) (f : Block → Nat × Block) (b : Block) (hW : W.link ∧ W.out) (hf0 : ∀ y0, hide W (f y0).2 = hide W y0) :
    hide W (pf0Read inFrozen f b) = hide W b := by
  unfold pf0Read; simp [hide_ite, *]

@[simp] theorem hide_onLane (W : Touch) (n : Nat) (f : Lane → Lane) (b : Block) (hW : W.ste) :
    hide W (onLane n f b) = hide W b := by
  unfold onLane; simp [hide_ite, *]

@[simp] theorem hide_loadBank (W : Touch) (n : Nat) (k : Bank) (b : Block) (hW : W.ste) :
    hide W (loadBank n k b) = hide W b := by
  unfold loadBank; simp [hide_ite, *]

@[simp] theorem hide_countEnd (W : Touch) (b : Block) (hW : W.ste) :
    hide W (countEnd b) = hide W b := by
  unfold countEnd; simp [hide_ite, *]

@[simp] theorem hide_laneRun (W : Touch) (n : Nat) (id : Nat) (key : Bytes) (b : Block) (hW : W.link ∧ W.q ∧ W.work ∧ W.vlt ∧ W.ste ∧ W.sce ∧ W.key ∧ W.bbram ∧ W.evr ∧ W.dev ∧ W.pins ∧ W.out) :
    hide W (laneRun n id key b) = hide W b := by
  unfold laneRun; simp [hide_ite, *]

@[simp] theorem hide_resolveAfresh (W : Touch) (id : Nat) (b : Block) (hW : W.link ∧ W.q ∧ W.work ∧ W.vlt ∧ W.ste ∧ W.sce ∧ W.dge ∧ W.key ∧ W.bbram ∧ W.evr ∧ W.dev ∧ W.pins ∧ W.out) :
    hide W (resolveAfresh id b) = hide W b := by
  unfold resolveAfresh; simp [hide_ite, *]

@[simp] theorem hide_laneTake (W : Touch) (n : Nat) (id : Nat) (b : Block) (hW : W.link ∧ W.q ∧ W.work ∧ W.vlt ∧ W.ste ∧ W.sce ∧ W.dge ∧ W.key ∧ W.bbram ∧ W.evr ∧ W.dev ∧ W.pins ∧ W.out) :
    hide W (laneTake n id b) = hide W b := by
  unfold laneTake
  try dsimp only
  repeat' first | (simp [hide_ite, *]; done) | split

@[simp] theorem hide_laneAssign (W : Touch) (b : Block) (hW : W.link ∧ W.q ∧ W.work ∧ W.vlt ∧ W.ste ∧ W.sce ∧ W.dge ∧ W.rng ∧ W.key ∧ W.bbram ∧ W.evr ∧ W.dev ∧ W.pins ∧ W.out) :
    hide W (laneAssign b) = hide W b := by
  unfold laneAssign
  try dsimp only
  repeat' first | (simp [hide_ite, *]; done) | split

@[simp] theorem hide_laneGiveBack (W : Touch) (n : Nat) (b : Block) (hW : W.work ∧ W.ste) :
    hide W (laneGiveBack n b) = hide W b := by
  unfold laneGiveBack
  try dsimp only
  repeat' first | (simp [hide_ite, *]; done) | split

@[simp] theorem hide_lanePromote (W : Touch) (n : Nat) (b : Block) (hW : W.link ∧ W.q ∧ W.work ∧ W.vlt ∧ W.ste ∧ W.sce ∧ W.dge ∧ W.key ∧ W.bbram ∧ W.evr ∧ W.dev ∧ W.pins ∧ W.out) :
    hide W (lanePromote n b) = hide W b := by
  unfold lanePromote
  try dsimp only
  repeat' first | (simp [hide_ite, *]; done) | split

@[simp] theorem hide_reapUnits (W : Touch) (b : Block) (hW : W.link ∧ W.q ∧ W.work ∧ W.vlt ∧ W.ste ∧ W.sce ∧ W.dge ∧ W.key ∧ W.bbram ∧ W.evr ∧ W.dev ∧ W.pins ∧ W.out) :
    hide W (reapUnits b) = hide W b := by
  unfold reapUnits; simp [hide_ite, *]

@[simp] theorem hide_laneEnd (W : Touch) (n : Nat) (b : Block) (hW : W.link ∧ W.q ∧ W.work ∧ W.vlt ∧ W.ste ∧ W.sce ∧ W.dge ∧ W.rng ∧ W.key ∧ W.bbram ∧ W.evr ∧ W.dev ∧ W.pins ∧ W.out) :
    hide W (laneEnd n b) = hide W b := by
  unfold laneEnd
  try dsimp only
  repeat' first | (simp [hide_ite, *]; done) | split

@[simp] theorem hide_bankExpiry (W : Touch) (n : Nat) (spare : Bool) (b : Block) (hW : W.ste) :
    hide W (bankExpiry n spare b) = hide W b := by
  unfold bankExpiry; simp [hide_ite, *]

@[simp] theorem hide_flushStream (W : Touch) (b : Block) (hW : W.link ∧ W.q ∧ W.work ∧ W.vlt ∧ W.ste ∧ W.sce ∧ W.key ∧ W.bbram ∧ W.evr ∧ W.dev ∧ W.pins ∧ W.out) :
    hide W (flushStream b) = hide W b := by
  unfold flushStream; simp [hide_ite, *]

@[simp] theorem hide_laneFence (W : Touch) (v : Word) (b : Block) (hW : W.link ∧ W.q ∧ W.work ∧ W.vlt ∧ W.ste ∧ W.sce ∧ W.dge ∧ W.rng ∧ W.key ∧ W.bbram ∧ W.evr ∧ W.dev ∧ W.pins ∧ W.out) :
    hide W (laneFence v b) = hide W b := by
  unfold laneFence; simp (maxDischargeDepth := 6) [hide_ite, *]

@[simp] theorem hide_dropTomb (W : Touch) (dqn : Nat) (mid : Nat) (b : Block) (hW : W.sce) :
    hide W (dropTomb dqn mid b) = hide W b := by
  unfold dropTomb; simp [hide_ite, *]

@[simp] theorem hide_noMessage (W : Touch) (j : Job) (b : Block) (hW : W.link ∧ W.q ∧ W.work ∧ W.vlt ∧ W.sce ∧ W.key ∧ W.bbram ∧ W.evr ∧ W.dev ∧ W.pins ∧ W.out) :
    hide W (noMessage j b) = hide W b := by
  unfold noMessage
  try dsimp only
  repeat' first | (simp [hide_ite, *]; done) | split

@[simp] theorem hide_sessionCheck (W : Touch) (j : Job) (b : Block) (hW : W.link ∧ W.q ∧ W.work ∧ W.vlt ∧ W.ste ∧ W.sce ∧ W.dge ∧ W.key ∧ W.bbram ∧ W.evr ∧ W.dev ∧ W.pins ∧ W.out) :
    hide W (sessionCheck j b) = hide W b := by
  unfold sessionCheck
  try dsimp only
  repeat' first | (simp [hide_ite, *]; done) | split

@[simp] theorem hide_sessionCmd (W : Touch) (op : Nat) (id : Nat) (b : Block) (hW : W.link ∧ W.q ∧ W.work ∧ W.vlt ∧ W.ste ∧ W.sce ∧ W.dge ∧ W.rng ∧ W.key ∧ W.bbram ∧ W.evr ∧ W.dev ∧ W.pins ∧ W.out) :
    hide W (sessionCmd op id b) = hide W b := by
  unfold sessionCmd
  apply hide_startOp
  · simp [hW]
  · intro j c
    (try dsimp only)
    repeat' first
      | (simp (maxDischargeDepth := 6) [hide_ite, *]; done)
      | (simp [hide, *]; done)
      | split

@[simp] theorem hide_partRun (W : Touch) (n : Nat) (j : Job) (ctx : Nat × Nat) (hold : Bool) (resumed : Bool) (b : Block) (hW : W.link ∧ W.q ∧ W.work ∧ W.vlt ∧ W.sce ∧ W.key ∧ W.bbram ∧ W.evr ∧ W.dev ∧ W.pins ∧ W.out) :
    hide W (partRun n j ctx hold resumed b) = hide W b := by
  unfold partRun; simp [hide_ite, *]

@[simp] theorem hide_holdEnds (W : Touch) (j : Job) (m : Option Msg) (b : Block) (hW : W.link ∧ W.q ∧ W.work ∧ W.vlt ∧ W.sce ∧ W.key ∧ W.bbram ∧ W.evr ∧ W.dev ∧ W.pins ∧ W.out) :
    hide W (holdEnds j m b) = hide W b := by
  unfold holdEnds; simp [hide_ite, *]

theorem hide_partStartOn (W : Touch) (n : Nat) (j : Job) (m : Option Msg) (x : Nat × Nat) (p r : Bool) (b c : Block) (hW : W.link = true ∧ W.q = true ∧ W.work = true ∧ W.vlt = true ∧ W.ste = true ∧ W.sce = true ∧ W.dge = true ∧ W.rng = true ∧ W.key = true ∧ W.bbram = true ∧ W.evr = true ∧ W.dev = true ∧ W.pins = true ∧ W.out = true)
    (h : partStartOn n j m x p r b = some c) : hide W c = hide W b := by
  unfold partStartOn at h
  repeat' first
    | (cases h; done)
    | (injection h with h; subst h; simp [hW]; done)
    | split at h
theorem hide_tryDispatch (W : Touch) (b c : Block) (id : Nat) (hW : W.link = true ∧ W.q = true ∧ W.work = true ∧ W.vlt = true ∧ W.ste = true ∧ W.sce = true ∧ W.dge = true ∧ W.rng = true ∧ W.key = true ∧ W.bbram = true ∧ W.evr = true ∧ W.dev = true ∧ W.pins = true ∧ W.out = true) (h : tryDispatch b id = some c) : hide W c = hide W b := by
  unfold tryDispatch at h
  dsimp only at h
  generalize hu : b.onSce (fun s => { s with pending := s.pending.filter (· != id) }) = u at h
  have hub : hide W u = hide W b := by subst hu; simp [hW]
  repeat' first
    | (cases h; done)
    | (injection h with h; subst h; first | exact hub | (simp [hW, hub]; done))
    | exact hide_partStartOn W _ _ _ _ _ _ _ _ hW h
    | (obtain ⟨_, _, h⟩ := Option.bind_eq_some_iff.mp h; exact hide_partStartOn W _ _ _ _ _ _ _ _ hW h)
    | split at h
theorem hide_firstDispatch (W : Touch) (b c : Block) (l : List Nat) (hW : W.link = true ∧ W.q = true ∧ W.work = true ∧ W.vlt = true ∧ W.ste = true ∧ W.sce = true ∧ W.dge = true ∧ W.rng = true ∧ W.key = true ∧ W.bbram = true ∧ W.evr = true ∧ W.dev = true ∧ W.pins = true ∧ W.out = true) (h : firstDispatch b l = some c) : hide W c = hide W b := by
  induction l with
  | nil => cases h
  | cons i r ih =>
    rw [firstDispatch] at h
    split at h
    · cases h; exact hide_tryDispatch W _ _ _ hW ‹_›
    · exact ih h
@[simp] theorem hide_sessionDispatch (W : Touch) (b : Block) (hW : W.link ∧ W.q ∧ W.work ∧ W.vlt ∧ W.ste ∧ W.sce ∧ W.dge ∧ W.rng ∧ W.key ∧ W.bbram ∧ W.evr ∧ W.dev ∧ W.pins ∧ W.out) :
    hide W (sessionDispatch b) = hide W b := by
  unfold sessionDispatch
  split
  · simp [hW, hide_firstDispatch W _ _ _ (by simp [hW]) ‹_›]
  · rfl

@[simp] theorem hide_releaseHeld (W : Touch) (m : Msg) (b : Block) (hW : W.link ∧ W.work ∧ W.sce ∧ W.out) :
    hide W (releaseHeld m b) = hide W b := by
  unfold releaseHeld
  dsimp only
  rw [hide_onMsg W _ _ _ _ (by simp [hW])]
  rw [hide_foldl_fst W _ (by intro c x; dsimp only; rw [hide_emitData W _ _ _ _ _ (by simp [hW])]; split <;> simp [hW])]

@[simp] theorem hide_endHeld (W : Touch) (j : Job) (m : Option Msg) (r : PartOut) (b : Block) (hW : W.link ∧ W.q ∧ W.work ∧ W.vlt ∧ W.sce ∧ W.key ∧ W.bbram ∧ W.evr ∧ W.dev ∧ W.pins ∧ W.out) :
    hide W (endHeld j m r b) = hide W b := by
  unfold endHeld
  try dsimp only
  repeat' first | (simp [hide_ite, *]; done) | split

@[simp] theorem hide_endWith (W : Touch) (j : Job) (m : Option Msg) (hold : Bool) (r : PartOut) (b : Block) (hW : W.link ∧ W.q ∧ W.work ∧ W.vlt ∧ W.sce ∧ W.key ∧ W.bbram ∧ W.evr ∧ W.dev ∧ W.pins ∧ W.out) :
    hide W (endWith j m hold r b) = hide W b := by
  unfold endWith; simp [hide_ite, *]

@[simp] theorem hide_partDone (W : Touch) (n : Nat) (b : Block) (hW : W.link ∧ W.q ∧ W.work ∧ W.vlt ∧ W.ste ∧ W.sce ∧ W.dge ∧ W.rng ∧ W.key ∧ W.bbram ∧ W.evr ∧ W.dev ∧ W.pins ∧ W.out) :
    hide W (partDone n b) = hide W b := by
  unfold partDone
  try dsimp only
  repeat' first | (simp [hide_ite, *]; done) | split

@[simp] theorem hide_parkTimeout (W : Touch) (n : Nat) (b : Block) (hW : W.link ∧ W.q ∧ W.work ∧ W.vlt ∧ W.ste ∧ W.sce ∧ W.dge ∧ W.rng ∧ W.key ∧ W.bbram ∧ W.evr ∧ W.dev ∧ W.pins ∧ W.out) :
    hide W (parkTimeout n b) = hide W b := by
  unfold parkTimeout
  try dsimp only
  repeat' first | (simp [hide_ite, *]; done) | split

@[simp] theorem hide_pendingPark (W : Touch) (b : Block) (hW : W.link ∧ W.q ∧ W.work ∧ W.vlt ∧ W.ste ∧ W.sce ∧ W.dge ∧ W.rng ∧ W.key ∧ W.bbram ∧ W.evr ∧ W.dev ∧ W.pins ∧ W.out) :
    hide W (pendingPark b) = hide W b := by
  unfold pendingPark
  try dsimp only
  repeat' first | (simp [hide_ite, *]; done) | split

@[simp] theorem hide_messageAbandon (W : Touch) (dqn : Nat) (mid : Nat) (b : Block) (hW : W.link ∧ W.q ∧ W.work ∧ W.vlt ∧ W.ste ∧ W.sce ∧ W.dge ∧ W.rng ∧ W.key ∧ W.bbram ∧ W.evr ∧ W.dev ∧ W.pins ∧ W.out) :
    hide W (messageAbandon dqn mid b) = hide W b := by
  unfold messageAbandon; simp [hide_ite, *]

@[simp] theorem hide_holdWaitTimeout (W : Touch) (id : Nat) (b : Block) (hW : W.link ∧ W.q ∧ W.work ∧ W.vlt ∧ W.ste ∧ W.sce ∧ W.dge ∧ W.rng ∧ W.key ∧ W.bbram ∧ W.evr ∧ W.dev ∧ W.pins ∧ W.out) :
    hide W (holdWaitTimeout id b) = hide W b := by
  unfold holdWaitTimeout
  try dsimp only
  repeat' first | (simp [hide_ite, *]; done) | split

@[simp] theorem hide_coreKeyExpiry (W : Touch) (n : Nat) (b : Block) (hW : W.sce) :
    hide W (coreKeyExpiry n b) = hide W b := by
  unfold coreKeyExpiry; simp [hide_ite, *]

@[simp] theorem hide_flushSession (W : Touch) (b : Block) (hW : W.link ∧ W.q ∧ W.work ∧ W.vlt ∧ W.sce ∧ W.key ∧ W.bbram ∧ W.evr ∧ W.dev ∧ W.pins ∧ W.out) :
    hide W (flushSession b) = hide W b := by
  unfold flushSession; simp [hide_ite, *]

@[simp] theorem hide_coreFence (W : Touch) (k : Nat) (v : Word) (b : Block) (hW : W.link ∧ W.q ∧ W.work ∧ W.vlt ∧ W.ste ∧ W.sce ∧ W.dge ∧ W.rng ∧ W.key ∧ W.bbram ∧ W.evr ∧ W.dev ∧ W.pins ∧ W.out) :
    hide W (coreFence k v b) = hide W b := by
  unfold coreFence; simp [hide_ite, *]

@[simp] theorem hide_parkTimeoutWrite (W : Touch) (v : Word) (b : Block) (hW : W.link ∧ W.sce ∧ W.dev ∧ W.out) :
    hide W (parkTimeoutWrite v b) = hide W b := by
  unfold parkTimeoutWrite; simp [hide_ite, *]

@[simp] theorem hide_abandonTimeoutWrite (W : Touch) (v : Word) (b : Block) (hW : W.link ∧ W.sce ∧ W.dev ∧ W.out) :
    hide W (abandonTimeoutWrite v b) = hide W b := by
  unfold abandonTimeoutWrite; simp [hide_ite, *]

@[simp] theorem hide_digestCmd (W : Touch) (op : Nat) (id : Nat) (b : Block) (hW : W.link ∧ W.q ∧ W.work ∧ W.vlt ∧ W.ste ∧ W.sce ∧ W.dge ∧ W.rng ∧ W.key ∧ W.bbram ∧ W.evr ∧ W.dev ∧ W.pins ∧ W.out) :
    hide W (digestCmd op id b) = hide W b := by
  unfold digestCmd; simp [hide_ite, *]

@[simp] theorem hide_digestEnd (W : Touch) (n : Nat) (b : Block) (hW : W.link ∧ W.q ∧ W.work ∧ W.vlt ∧ W.ste ∧ W.sce ∧ W.dge ∧ W.rng ∧ W.key ∧ W.bbram ∧ W.evr ∧ W.dev ∧ W.pins ∧ W.out) :
    hide W (digestEnd n b) = hide W b := by
  unfold digestEnd
  try dsimp only
  repeat' first | (simp [hide_ite, *]; done) | split

@[simp] theorem hide_rmAccess (W : Touch) (leg : Bool) (f : Block → Block) (b : Block) (hW : W.leg) (hf0 : ∀ y0, hide W (f y0) = hide W y0) :
    hide W (rmAccess leg f b) = hide W b := by
  unfold rmAccess
  try dsimp only
  repeat' first | (simp [hide_ite, *]; done) | split

@[simp] theorem hide_onRm (W : Touch) (f : RegDigest → RegDigest) (b : Block) (hW : W.dge) :
    hide W (onRm f b) = hide W b := by
  unfold onRm; simp [hide_ite, *]

@[simp] theorem hide_rmAbort (W : Touch) (b : Block) (hW : W.dge) :
    hide W (rmAbort b) = hide W b := by
  unfold rmAbort; simp [hide_ite, *]

@[simp] theorem hide_rmStart (W : Touch) (b : Block) (hW : W.dge) :
    hide W (rmStart b) = hide W b := by
  unfold rmStart; simp [hide_ite, *]

@[simp] theorem hide_rmFinal (W : Touch) (b : Block) (hW : W.dge) :
    hide W (rmFinal b) = hide W b := by
  unfold rmFinal; simp [hide_ite, *]

@[simp] theorem hide_rmCtrl (W : Touch) (v : Nat) (b : Block) (hW : W.dge) :
    hide W (rmCtrl v b) = hide W b := by
  unfold rmCtrl; simp [hide_ite, *]

@[simp] theorem hide_rmData (W : Touch) (v : Word) (b : Block) (hW : W.dge) :
    hide W (rmData v b) = hide W b := by
  unfold rmData; simp [hide_ite, *]

@[simp] theorem hide_rmDone (W : Touch) (b : Block) (hW : W.work ∧ W.dge) :
    hide W (rmDone b) = hide W b := by
  unfold rmDone
  try dsimp only
  repeat' first | (simp [hide_ite, *]; done) | split

@[simp] theorem hide_rmRead (W : Touch) (n : Nat) (b : Block) (hW : W.dge) :
    hide W (rmRead n b).2 = hide W b := by
  unfold rmRead
  try dsimp only
  repeat' first | (simp [hide_ite, *]; done) | split

@[simp] theorem hide_rmResult (W : Touch) (leg : Bool) (n : Nat) (b : Block) (hW : W.dge ∧ W.leg) :
    hide W (rmResult leg n b).2 = hide W b := by
  unfold rmResult
  try dsimp only
  repeat' first | (simp [hide_ite, *]; done) | split

@[simp] theorem hide_rmResultRead (W : Touch) (leg : Bool) (n : Nat) (b : Block) (hW : W.link ∧ W.dge ∧ W.leg ∧ W.out) :
    hide W (rmResultRead leg n b) = hide W b := by
  unfold rmResultRead; simp [hide_ite, *]

@[simp] theorem hide_vaultCmd (W : Touch) (op : Nat) (id : Nat) (b : Block) (hW : W.link ∧ W.q ∧ W.work ∧ W.vlt ∧ W.ste ∧ W.sce ∧ W.dge ∧ W.rng ∧ W.key ∧ W.bbram ∧ W.evr ∧ W.dev ∧ W.pins ∧ W.out) :
    hide W (vaultCmd op id b) = hide W b := by
  unfold vaultCmd; simp [hide_ite, *]

@[simp] theorem hide_unwrapEvent (W : Touch) (id : Nat) (b : Block) (hW : W.link ∧ W.q ∧ W.work ∧ W.vlt ∧ W.ste ∧ W.sce ∧ W.dge ∧ W.rng ∧ W.key ∧ W.bbram ∧ W.evr ∧ W.dev ∧ W.pins ∧ W.out) :
    hide W (unwrapEvent id b) = hide W b := by
  unfold unwrapEvent
  try dsimp only
  repeat' first | (simp [hide_ite, *]; done) | split

@[simp] theorem hide_plainCmd (W : Touch) (op : Nat) (id : Nat) (b : Block) (hW : W.link ∧ W.q ∧ W.work ∧ W.vlt ∧ W.ste ∧ W.sce ∧ W.dge ∧ W.rng ∧ W.key ∧ W.bbram ∧ W.evr ∧ W.dev ∧ W.pins ∧ W.out) :
    hide W (plainCmd op id b) = hide W b := by
  unfold plainCmd; simp [hide_ite, *]

@[simp] theorem hide_rngFill (W : Touch) (id : Nat) (b : Block) (hW : W.link ∧ W.q ∧ W.work ∧ W.vlt ∧ W.ste ∧ W.sce ∧ W.dge ∧ W.rng ∧ W.key ∧ W.bbram ∧ W.evr ∧ W.dev ∧ W.pins ∧ W.out) :
    hide W (rngFill id b) = hide W b := by
  unfold rngFill; simp [hide_ite, *]

@[simp] theorem hide_drawUnitKeys (W : Touch) (b : Block) (hW : W.vlt ∧ W.sce ∧ W.rng) :
    hide W (drawUnitKeys b) = hide W b := by
  unfold drawUnitKeys; simp [hide_ite, *]

@[simp] theorem hide_unitResetEnded (W : Touch) (u : UnitId) (result : Nat) (b : Block) (hW : W.link ∧ W.dev ∧ W.pwr ∧ W.mon ∧ W.out) :
    hide W (unitResetEnded u result b) = hide W b := by
  unfold unitResetEnded; simp [hide_ite, *]

@[simp] theorem hide_rngPassed (W : Touch) (b : Block) (hW : W.link ∧ W.q ∧ W.work ∧ W.vlt ∧ W.ste ∧ W.sce ∧ W.dge ∧ W.rng ∧ W.key ∧ W.bbram ∧ W.evr ∧ W.dev ∧ W.pins ∧ W.pwr ∧ W.mon ∧ W.out) :
    hide W (rngPassed b) = hide W b := by
  unfold rngPassed; simp [hide_ite, *]

@[simp] theorem hide_rngAlarm (W : Touch) (b : Block) (hW : W.run ∧ W.link ∧ W.q ∧ W.work ∧ W.vlt ∧ W.ste ∧ W.sce ∧ W.dge ∧ W.pke ∧ W.rng ∧ W.key ∧ W.bbram ∧ W.evr ∧ W.dev ∧ W.pins ∧ W.pwr ∧ W.kpr ∧ W.tmp ∧ W.otp ∧ W.boot ∧ W.flt ∧ W.rcd ∧ W.wdg ∧ W.leg ∧ W.mon ∧ W.sb ∧ W.out) :
    hide W (rngAlarm b) = hide W b := by
  unfold rngAlarm; simp [hide_ite, *]

@[simp] theorem hide_rngTestFailed (W : Touch) (b : Block) (hW : W.run ∧ W.link ∧ W.q ∧ W.work ∧ W.vlt ∧ W.ste ∧ W.sce ∧ W.dge ∧ W.pke ∧ W.rng ∧ W.key ∧ W.bbram ∧ W.evr ∧ W.dev ∧ W.pins ∧ W.pwr ∧ W.kpr ∧ W.tmp ∧ W.otp ∧ W.boot ∧ W.flt ∧ W.rcd ∧ W.wdg ∧ W.leg ∧ W.mon ∧ W.sb ∧ W.out) :
    hide W (rngTestFailed b) = hide W b := by
  unfold rngTestFailed; simp [hide_ite, *]

@[simp] theorem hide_rngTested (W : Touch) (pass : Bool) (b : Block) (hW : W.run ∧ W.link ∧ W.q ∧ W.work ∧ W.vlt ∧ W.ste ∧ W.sce ∧ W.dge ∧ W.pke ∧ W.rng ∧ W.key ∧ W.bbram ∧ W.evr ∧ W.dev ∧ W.pins ∧ W.pwr ∧ W.kpr ∧ W.tmp ∧ W.otp ∧ W.boot ∧ W.flt ∧ W.rcd ∧ W.wdg ∧ W.leg ∧ W.mon ∧ W.sb ∧ W.out) :
    hide W (rngTested pass b) = hide W b := by
  unfold rngTested; simp [hide_ite, *]

@[simp] theorem hide_rngHealthFail (W : Touch) (proportion : Bool) (b : Block) (hW : W.run ∧ W.link ∧ W.q ∧ W.work ∧ W.vlt ∧ W.ste ∧ W.sce ∧ W.dge ∧ W.pke ∧ W.rng ∧ W.key ∧ W.bbram ∧ W.evr ∧ W.dev ∧ W.pins ∧ W.pwr ∧ W.kpr ∧ W.tmp ∧ W.otp ∧ W.boot ∧ W.flt ∧ W.rcd ∧ W.wdg ∧ W.leg ∧ W.mon ∧ W.sb ∧ W.out) :
    hide W (rngHealthFail proportion b) = hide W b := by
  unfold rngHealthFail; simp [hide_ite, *]

@[simp] theorem hide_rngReseedTimer (W : Touch) (inst1 : Bool) (b : Block) (hW : W.rng) :
    hide W (rngReseedTimer inst1 b) = hide W b := by
  unfold rngReseedTimer; simp [hide_ite, *]

@[simp] theorem hide_rngRaw (W : Touch) (b : Block) (hW : W.rng) :
    hide W (rngRaw b).2 = hide W b := by
  unfold rngRaw
  try dsimp only
  repeat' first | (simp [hide_ite, *]; done) | split

@[simp] theorem hide_dropKeks (W : Touch) (b : Block) (hW : W.key) :
    hide W (dropKeks b) = hide W b := by
  unfold dropKeks; simp [hide_ite, *]

@[simp] theorem hide_hsmFinish (W : Touch) (h : HsmJob) (status : Nat) (detail : Nat) (result : Nat) (out : Bytes) (b : Block) (hW : W.link ∧ W.q ∧ W.work ∧ W.vlt ∧ W.sce ∧ W.key ∧ W.bbram ∧ W.evr ∧ W.dev ∧ W.pins ∧ W.kpr ∧ W.mon ∧ W.out) :
    hide W (hsmFinish h status detail result out b) = hide W b := by
  unfold hsmFinish
  try dsimp only
  repeat' first | (simp [hide_ite, *]; done) | split

@[simp] theorem hide_hsmOk (W : Touch) (h : HsmJob) (result : Nat) (out : Bytes) (b : Block) (hW : W.link ∧ W.q ∧ W.work ∧ W.vlt ∧ W.sce ∧ W.key ∧ W.bbram ∧ W.evr ∧ W.dev ∧ W.pins ∧ W.kpr ∧ W.mon ∧ W.out) :
    hide W (hsmOk h result out b) = hide W b := by
  unfold hsmOk; simp [hide_ite, *]

@[simp] theorem hide_hsmFail (W : Touch) (h : HsmJob) (reason : Nat) (result : Nat) (b : Block) (hW : W.link ∧ W.q ∧ W.work ∧ W.vlt ∧ W.sce ∧ W.key ∧ W.bbram ∧ W.evr ∧ W.dev ∧ W.pins ∧ W.kpr ∧ W.mon ∧ W.out) :
    hide W (hsmFail h reason result b) = hide W b := by
  unfold hsmFail; simp [hide_ite, *]

@[simp] theorem hide_judgeAgain (W : Touch) (n : Nat) (b : Block) (hW : W.link ∧ W.key ∧ W.bbram ∧ W.evr ∧ W.dev ∧ W.pins ∧ W.out) :
    hide W (judgeAgain n b) = hide W b := by
  unfold judgeAgain; simp [hide_ite, *]

@[simp] theorem hide_hsmCommit (W : Touch) (h : HsmJob) (why result : Nat) (out : Bytes) (after b : Block) (hW : W.link = true ∧ W.q = true ∧ W.work = true ∧ W.vlt = true ∧ W.sce = true ∧ W.key = true ∧ W.bbram = true ∧ W.evr = true ∧ W.dev = true ∧ W.pins = true ∧ W.kpr = true ∧ W.mon = true ∧ W.out = true)
    (ha : hide W after = hide W b) : hide W (hsmCommit h why result out after b) = hide W b := by
  unfold hsmCommit
  have hk : ∀ (x : BbramSt) (y : KeySt), hide W { b with bbram := x, key := y } = hide W b := by intro x y; simp [hide, hW]
  split
  · simp [hW, ha]
  · rw [hide_hsmFail W _ _ _ _ (by simp [hW]), hide_judgeAgain W _ _ (by simp [hW]), hk]

@[simp] theorem hide_takeBlock (W : Touch) (id : Nat) (req : Requester) (world : Bool) (block : Bytes) (b : Block) (hW : W.link ∧ W.q ∧ W.work ∧ W.vlt ∧ W.sce ∧ W.key ∧ W.bbram ∧ W.evr ∧ W.dev ∧ W.pins ∧ W.kpr ∧ W.mon ∧ W.out) :
    hide W (takeBlock id req world block b) = hide W b := by
  unfold takeBlock
  try dsimp only
  repeat' first | (simp [hide_ite, *]; done) | split

@[simp] theorem hide_blockArrived (W : Touch) (id : Nat) (len : Nat) (res : HostData) (b : Block) (hW : W.link ∧ W.q ∧ W.work ∧ W.vlt ∧ W.sce ∧ W.key ∧ W.bbram ∧ W.evr ∧ W.dev ∧ W.pins ∧ W.kpr ∧ W.mon ∧ W.out) :
    hide W (blockArrived id len res b) = hide W b := by
  unfold blockArrived
  try dsimp only
  repeat' first | (simp [hide_ite, *]; done) | split

@[simp] theorem hide_dropSession (W : Touch) (sid : Nat) (b : Block) (hW : W.kpr) :
    hide W (dropSession sid b) = hide W b := by
  unfold dropSession; simp [hide_ite, *]

@[simp] theorem hide_hsmRun (W : Touch) (code : Nat) (id : Nat) (rule : HsmJob → Block → HsmRule) (rnd : HsmJob → Randomness) (own : HsmJob → Option EqxSession → Block → Block) (b : Block) (hW : W.link ∧ W.q ∧ W.work ∧ W.vlt ∧ W.ste ∧ W.sce ∧ W.dge ∧ W.rng ∧ W.key ∧ W.bbram ∧ W.evr ∧ W.dev ∧ W.pins ∧ W.kpr ∧ W.mon ∧ W.out) (hf0 : ∀ y0 y1 y2, hide W (own y0 y1 y2) = hide W y2) :
    hide W (hsmRun code id rule rnd own b) = hide W b := by
  unfold hsmRun
  try dsimp only
  repeat' first | (simp [hide_ite, *]; done) | split

@[simp] theorem hide_rngConsumerTimeout (W : Touch) (id : Nat) (b : Block) (hW : W.link ∧ W.q ∧ W.work ∧ W.vlt ∧ W.ste ∧ W.sce ∧ W.dge ∧ W.rng ∧ W.key ∧ W.bbram ∧ W.evr ∧ W.dev ∧ W.pins ∧ W.kpr ∧ W.mon ∧ W.out) :
    hide W (rngConsumerTimeout id b) = hide W b := by
  unfold rngConsumerTimeout
  try dsimp only
  repeat' first | (simp [hide_ite, *]; done) | split

@[simp] theorem hide_hsmNoKey (W : Touch) (h : HsmJob) (e : NoKey) (b : Block) (hW : W.link ∧ W.q ∧ W.work ∧ W.vlt ∧ W.sce ∧ W.key ∧ W.bbram ∧ W.evr ∧ W.dev ∧ W.pins ∧ W.kpr ∧ W.mon ∧ W.out) :
    hide W (hsmNoKey h e b) = hide W b := by
  unfold hsmNoKey
  try dsimp only
  repeat' first | (simp [hide_ite, *]; done) | split

@[simp] theorem hide_commandKek (W : Touch) (fn : Nat) (world : Bool) (blob : Bytes) (b : Block) (hW : W.key) :
    hide W (commandKek fn world blob b) = hide W b := by
  unfold commandKek
  try dsimp only
  repeat' first | (simp [hide_ite, *]; done) | split

@[simp] theorem hide_onLock (W : Touch) (w : Nat) (f : LegLock → LegLock) (b : Block) (hW : W.leg) :
    hide W (onLock w f b) = hide W b := by
  unfold onLock; simp [hide_ite, *]

@[simp] theorem hide_renew (W : Touch) (w : Nat) (b : Block) (hW : W.leg) :
    hide W (renew w b) = hide W b := by
  unfold renew; simp [hide_ite, *]

@[simp] theorem hide_returnCore (W : Touch) (b : Block) (hW : W.sce ∧ W.leg) :
    hide W (returnCore b) = hide W b := by
  unfold returnCore
  try dsimp only
  repeat' first | (simp [hide_ite, *]; done) | split

@[simp] theorem hide_legAbort (W : Touch) (status : Nat) (detail : Nat) (b : Block) (hW : W.link ∧ W.q ∧ W.work ∧ W.vlt ∧ W.ste ∧ W.sce ∧ W.key ∧ W.bbram ∧ W.evr ∧ W.dev ∧ W.pins ∧ W.leg ∧ W.out) :
    hide W (legAbort status detail b) = hide W b := by
  unfold legAbort
  try dsimp only
  repeat' first | (simp [hide_ite, *]; done) | split

@[simp] theorem hide_endWindow (W : Touch) (w : Nat) (status : Nat) (detail : Nat) (b : Block) (hW : W.link ∧ W.q ∧ W.work ∧ W.vlt ∧ W.ste ∧ W.sce ∧ W.dge ∧ W.key ∧ W.bbram ∧ W.evr ∧ W.dev ∧ W.pins ∧ W.leg ∧ W.out) :
    hide W (endWindow w status detail b) = hide W b := by
  unfold endWindow; simp [hide_ite, *]

@[simp] theorem hide_leaseEnd (W : Touch) (w : Nat) (b : Block) (hW : W.link ∧ W.q ∧ W.work ∧ W.vlt ∧ W.ste ∧ W.sce ∧ W.dge ∧ W.rng ∧ W.key ∧ W.bbram ∧ W.evr ∧ W.dev ∧ W.pins ∧ W.leg ∧ W.out) :
    hide W (leaseEnd w b) = hide W b := by
  unfold leaseEnd; simp [hide_ite, *]

@[simp] theorem hide_legWrite (W : Touch) (w : Nat) (resv : Nat) (v : Word) (f : Block → Block) (b : Block) (hW : W.link ∧ W.dev ∧ W.leg ∧ W.out) (hf0 : ∀ y0, hide W (f y0) = hide W y0) :
    hide W (legWrite w resv v f b) = hide W b := by
  unfold legWrite; simp [hide_ite, *]

@[simp] theorem hide_legData (W : Touch) (w : Nat) (f : Block → Nat × Block) (b : Block) (hW : W.leg) (hf0 : ∀ y0, hide W (f y0).2 = hide W y0) :
    hide W (legData w f b).2 = hide W b := by
  unfold legData
  try dsimp only
  repeat' first | (simp [hide_ite, *]; done) | split

@[simp] theorem hide_legRead (W : Touch) (w : Nat) (f : Block → Nat × Block) (b : Block) (hW : W.link ∧ W.leg ∧ W.out) (hf0 : ∀ y0, hide W (f y0).2 = hide W y0) :
    hide W (legRead w f b) = hide W b := by
  unfold legRead
  apply hide_pf0Read
  · simp [hW]
  · intro c
    (try dsimp only)
    repeat' first
      | (simp (maxDischargeDepth := 6) [hide_ite, *]; done)
      | (simp [hide, *]; done)
      | split

@[simp] theorem hide_lockWrite (W : Touch) (w : Nat) (v : Word) (b : Block) (hW : W.link ∧ W.dev ∧ W.leg ∧ W.out) :
    hide W (lockWrite w v b) = hide W b := by
  unfold lockWrite; simp [hide_ite, *]

@[simp] theorem hide_unlockWrite (W : Touch) (w : Nat) (v : Word) (b : Block) (hW : W.link ∧ W.q ∧ W.work ∧ W.vlt ∧ W.ste ∧ W.sce ∧ W.dge ∧ W.rng ∧ W.key ∧ W.bbram ∧ W.evr ∧ W.dev ∧ W.pins ∧ W.leg ∧ W.out) :
    hide W (unlockWrite w v b) = hide W b := by
  unfold unlockWrite; simp [hide_ite, *]

@[simp] theorem hide_legRefuse (W : Touch) (status : Nat) (detail : Nat) (b : Block) (hW : W.leg) :
    hide W (legRefuse status detail b) = hide W b := by
  unfold legRefuse; simp [hide_ite, *]

@[simp] theorem hide_legDone (W : Touch) (r : PartOut) (b : Block) (hW : W.link ∧ W.q ∧ W.work ∧ W.vlt ∧ W.ste ∧ W.sce ∧ W.key ∧ W.bbram ∧ W.evr ∧ W.dev ∧ W.pins ∧ W.leg ∧ W.out) :
    hide W (legDone r b) = hide W b := by
  unfold legDone
  try dsimp only
  repeat' first | (simp [hide_ite, *]; done) | split

@[simp] theorem hide_legRun (W : Touch) (b : Block) (hW : W.link ∧ W.q ∧ W.work ∧ W.vlt ∧ W.ste ∧ W.sce ∧ W.key ∧ W.bbram ∧ W.evr ∧ W.dev ∧ W.pins ∧ W.leg ∧ W.out) :
    hide W (legRun b) = hide W b := by
  unfold legRun; simp [hide_ite, *]

@[simp] theorem hide_legStart (W : Touch) (b : Block) (hW : W.link ∧ W.q ∧ W.work ∧ W.vlt ∧ W.ste ∧ W.sce ∧ W.key ∧ W.bbram ∧ W.evr ∧ W.dev ∧ W.pins ∧ W.leg ∧ W.out) :
    hide W (legStart b) = hide W b := by
  unfold legStart
  try dsimp only
  repeat' first | (simp [hide_ite, *]; done) | split

@[simp] theorem hide_legCtrl (W : Touch) (v : Nat) (b : Block) (hW : W.link ∧ W.q ∧ W.work ∧ W.vlt ∧ W.ste ∧ W.sce ∧ W.dge ∧ W.rng ∧ W.key ∧ W.bbram ∧ W.evr ∧ W.dev ∧ W.pins ∧ W.leg ∧ W.out) :
    hide W (legCtrl v b) = hide W b := by
  unfold legCtrl; simp [hide_ite, *]

@[simp] theorem hide_legDataIn (W : Touch) (v : Word) (b : Block) (hW : W.link ∧ W.q ∧ W.work ∧ W.vlt ∧ W.ste ∧ W.sce ∧ W.dge ∧ W.rng ∧ W.key ∧ W.bbram ∧ W.evr ∧ W.dev ∧ W.pins ∧ W.leg ∧ W.out) :
    hide W (legDataIn v b) = hide W b := by
  unfold legDataIn; simp [hide_ite, *]

@[simp] theorem hide_legDataOut (W : Touch) (b : Block) (hW : W.link ∧ W.q ∧ W.work ∧ W.vlt ∧ W.ste ∧ W.sce ∧ W.key ∧ W.bbram ∧ W.evr ∧ W.dev ∧ W.pins ∧ W.leg ∧ W.out) :
    hide W (legDataOut b).2 = hide W b := by
  unfold legDataOut
  try dsimp only
  repeat' first | (simp [hide_ite, *]; done) | split

@[simp] theorem hide_reserveCore (W : Touch) (b : Block) (hW : W.link ∧ W.q ∧ W.work ∧ W.vlt ∧ W.ste ∧ W.sce ∧ W.key ∧ W.bbram ∧ W.evr ∧ W.dev ∧ W.pins ∧ W.leg ∧ W.out) :
    hide W (reserveCore b) = hide W b := by
  unfold reserveCore
  try dsimp only
  repeat' first | (simp [hide_ite, *]; done) | split

@[simp] theorem hide_legRng (W : Touch) (b : Block) (hW : W.rng) :
    hide W (legRng b).2 = hide W b := by
  unfold legRng
  try dsimp only
  repeat' first | (simp [hide_ite, *]; done) | split

@[simp] theorem hide_checkPools (W : Touch) (b : Block) (hW : W.run ∧ W.link ∧ W.q ∧ W.work ∧ W.vlt ∧ W.ste ∧ W.sce ∧ W.dge ∧ W.pke ∧ W.rng ∧ W.key ∧ W.bbram ∧ W.evr ∧ W.dev ∧ W.pins ∧ W.pwr ∧ W.kpr ∧ W.tmp ∧ W.otp ∧ W.boot ∧ W.flt ∧ W.rcd ∧ W.wdg ∧ W.leg ∧ W.mon ∧ W.sb ∧ W.out) :
    hide W (checkPools b) = hide W b := by
  unfold checkPools; simp [hide_ite, *]

@[simp] theorem hide_onPk (W : Touch) (u : UnitId) (f : PkUnit → PkUnit) (b : Block) (hW : W.pke) :
    hide W (onPk u f b) = hide W b := by
  unfold onPk; simp [hide_ite, *]

@[simp] theorem hide_stopLane (W : Touch) (n : Nat) (progress : Nat) (status : Nat) (b : Block) (hW : W.link ∧ W.q ∧ W.work ∧ W.vlt ∧ W.ste ∧ W.sce ∧ W.key ∧ W.bbram ∧ W.evr ∧ W.dev ∧ W.pins ∧ W.out) :
    hide W (stopLane n progress status b) = hide W b := by
  unfold stopLane
  try dsimp only
  repeat' first | (simp [hide_ite, *]; done) | split

@[simp] theorem hide_stopPart (W : Touch) (n : Nat) (progress : Nat) (status : Nat) (b : Block) (hW : W.link ∧ W.q ∧ W.work ∧ W.vlt ∧ W.ste ∧ W.sce ∧ W.key ∧ W.bbram ∧ W.evr ∧ W.dev ∧ W.pins ∧ W.out) :
    hide W (stopPart n progress status b) = hide W b := by
  unfold stopPart
  try dsimp only
  repeat' first | (simp [hide_ite, *]; done) | split

@[simp] theorem hide_stopPipe (W : Touch) (n : Nat) (progress : Nat) (status : Nat) (b : Block) (hW : W.link ∧ W.q ∧ W.work ∧ W.vlt ∧ W.ste ∧ W.sce ∧ W.dge ∧ W.key ∧ W.bbram ∧ W.evr ∧ W.dev ∧ W.pins ∧ W.out) :
    hide W (stopPipe n progress status b) = hide W b := by
  unfold stopPipe
  try dsimp only
  repeat' first | (simp [hide_ite, *]; done) | split

@[simp] theorem hide_stopPk (W : Touch) (u : UnitId) (status : Nat) (b : Block) (hW : W.link ∧ W.q ∧ W.work ∧ W.vlt ∧ W.sce ∧ W.pke ∧ W.key ∧ W.bbram ∧ W.evr ∧ W.dev ∧ W.pins ∧ W.kpr ∧ W.mon ∧ W.out) :
    hide W (stopPk u status b) = hide W b := by
  unfold stopPk
  try dsimp only
  repeat' first | (simp [hide_ite, *]; done) | split

@[simp] theorem hide_stopAllLoads (W : Touch) (status : Nat) (b : Block) (hW : W.link ∧ W.q ∧ W.work ∧ W.vlt ∧ W.ste ∧ W.sce ∧ W.dge ∧ W.key ∧ W.bbram ∧ W.evr ∧ W.dev ∧ W.pins ∧ W.out) :
    hide W (stopAllLoads status b) = hide W b := by
  unfold stopAllLoads; simp [hide_ite, *]

@[simp] theorem hide_stopFlight (W : Touch) (status : Nat) (b : Block) (hW : W.link ∧ W.q ∧ W.work ∧ W.vlt ∧ W.ste ∧ W.sce ∧ W.dge ∧ W.key ∧ W.bbram ∧ W.evr ∧ W.dev ∧ W.pins ∧ W.out) :
    hide W (stopFlight status b) = hide W b := by
  unfold stopFlight; simp [hide_ite, *]

@[simp] theorem hide_stopVault (W : Touch) (b : Block) (hW : W.link ∧ W.q ∧ W.work ∧ W.vlt ∧ W.ste ∧ W.sce ∧ W.dge ∧ W.key ∧ W.bbram ∧ W.evr ∧ W.dev ∧ W.pins ∧ W.out) :
    hide W (stopVault b) = hide W b := by
  unfold stopVault; simp [hide_ite, *]

@[simp] theorem hide_stopRng (W : Touch) (status : Nat) (b : Block) (hW : W.link ∧ W.q ∧ W.work ∧ W.vlt ∧ W.ste ∧ W.sce ∧ W.rng ∧ W.key ∧ W.bbram ∧ W.evr ∧ W.dev ∧ W.pins ∧ W.out) :
    hide W (stopRng status b) = hide W b := by
  unfold stopRng; simp [hide_ite, *]

@[simp] theorem hide_startSelfTest (W : Touch) (u : UnitId) (b : Block) (hW : W.vlt ∧ W.ste ∧ W.sce ∧ W.dge ∧ W.pke ∧ W.rng) :
    hide W (startSelfTest u b) = hide W b := by
  unfold startSelfTest
  try dsimp only
  repeat' first | (simp [hide_ite, *]; done) | split

@[simp] theorem hide_pkNext (W : Touch) (u : UnitId) (b : Block) (hW : W.pke) :
    hide W (pkNext u b) = hide W b := by
  unfold pkNext; simp [hide_ite, *]

@[simp] theorem hide_pkFailed (W : Touch) (u : UnitId) (b : Block) (hW : W.link ∧ W.q ∧ W.work ∧ W.vlt ∧ W.sce ∧ W.pke ∧ W.key ∧ W.bbram ∧ W.evr ∧ W.dev ∧ W.pins ∧ W.kpr ∧ W.mon ∧ W.out) :
    hide W (pkFailed u b) = hide W b := by
  unfold pkFailed
  first
  | (simp (maxDischargeDepth := 6) [hide_ite, *]; done)
  | ((try dsimp only)
     repeat' first
      | (simp (maxDischargeDepth := 6) [hide_ite, *]; done)
      | (simp [hide, *]; done)
      | split
      | (refine hide_foldl W _ ?_ _ _; intro c x)
      | (refine (hide_foldl W _ ?_ _ _).trans ?_; focus intro c x))

@[simp] theorem hide_testPassed (W : Touch) (u : UnitId) (b : Block) (hW : W.link ∧ W.q ∧ W.work ∧ W.vlt ∧ W.ste ∧ W.sce ∧ W.dge ∧ W.pke ∧ W.key ∧ W.bbram ∧ W.evr ∧ W.dev ∧ W.pins ∧ W.leg ∧ W.out) :
    hide W (testPassed u b) = hide W b := by
  unfold testPassed
  try dsimp only
  repeat' first | (simp [hide_ite, *]; done) | split

@[simp] theorem hide_testFailed (W : Touch) (u : UnitId) (b : Block) (hW : W.link ∧ W.q ∧ W.work ∧ W.vlt ∧ W.ste ∧ W.sce ∧ W.dge ∧ W.pke ∧ W.key ∧ W.bbram ∧ W.evr ∧ W.dev ∧ W.pins ∧ W.kpr ∧ W.leg ∧ W.mon ∧ W.out) :
    hide W (testFailed u b) = hide W b := by
  unfold testFailed
  try dsimp only
  repeat' first | (simp [hide_ite, *]; done) | split

@[simp] theorem hide_selfTestDone (W : Touch) (u : UnitId) (pass : Bool) (b : Block) (hW : W.run ∧ W.link ∧ W.q ∧ W.work ∧ W.vlt ∧ W.ste ∧ W.sce ∧ W.dge ∧ W.pke ∧ W.rng ∧ W.key ∧ W.bbram ∧ W.evr ∧ W.dev ∧ W.pins ∧ W.pwr ∧ W.kpr ∧ W.tmp ∧ W.otp ∧ W.boot ∧ W.flt ∧ W.rcd ∧ W.wdg ∧ W.leg ∧ W.mon ∧ W.sb ∧ W.out) :
    hide W (selfTestDone u pass b) = hide W b := by
  unfold selfTestDone; simp [hide_ite, *]

@[simp] theorem hide_alarmTest (W : Touch) (u : UnitId) (b : Block) (hW : W.vlt ∧ W.ste ∧ W.sce ∧ W.dge ∧ W.pke ∧ W.rng) :
    hide W (alarmTest u b) = hide W b := by
  unfold alarmTest; simp [hide_ite, *]

@[simp] theorem hide_vaultAlarm (W : Touch) (slot : Option Nat) (job : Option Nat) (b : Block) (hW : W.run ∧ W.link ∧ W.q ∧ W.work ∧ W.vlt ∧ W.ste ∧ W.sce ∧ W.dge ∧ W.pke ∧ W.rng ∧ W.key ∧ W.bbram ∧ W.evr ∧ W.dev ∧ W.pins ∧ W.pwr ∧ W.kpr ∧ W.tmp ∧ W.otp ∧ W.boot ∧ W.flt ∧ W.rcd ∧ W.wdg ∧ W.leg ∧ W.mon ∧ W.sb ∧ W.out) :
    hide W (vaultAlarm slot job b) = hide W b := by
  unfold vaultAlarm
  try dsimp only
  repeat' first | (simp [hide_ite, *]; done) | split

@[simp] theorem hide_keyAlarm (W : Touch) (job : Nat) (b : Block) (hW : W.run ∧ W.link ∧ W.q ∧ W.work ∧ W.vlt ∧ W.ste ∧ W.sce ∧ W.dge ∧ W.pke ∧ W.rng ∧ W.key ∧ W.bbram ∧ W.evr ∧ W.dev ∧ W.pins ∧ W.pwr ∧ W.kpr ∧ W.tmp ∧ W.otp ∧ W.boot ∧ W.flt ∧ W.rcd ∧ W.wdg ∧ W.leg ∧ W.mon ∧ W.sb ∧ W.out) :
    hide W (keyAlarm job b) = hide W b := by
  unfold keyAlarm
  try dsimp only
  repeat' first | (simp [hide_ite, *]; done) | split

theorem hide_engineAlarm_pkAlarm (W : Touch) (u : UnitId) (b : Block) (hW : W.run = true ∧ W.link = true ∧ W.q = true ∧ W.work = true ∧ W.vlt = true ∧ W.ste = true ∧ W.sce = true ∧ W.dge = true ∧ W.pke = true ∧ W.rng = true ∧ W.key = true ∧ W.bbram = true ∧ W.evr = true ∧ W.dev = true ∧ W.pins = true ∧ W.pwr = true ∧ W.kpr = true ∧ W.tmp = true ∧ W.otp = true ∧ W.boot = true ∧ W.flt = true ∧ W.rcd = true ∧ W.wdg = true ∧ W.leg = true ∧ W.mon = true ∧ W.sb = true ∧ W.out = true) : hide W (engineAlarm.pkAlarm u b) = hide W b := by
  unfold engineAlarm.pkAlarm
  dsimp only
  split <;> simp [hW]
@[simp] theorem hide_engineAlarm (W : Touch) (a : Alarm) (b : Block) (hW : W.run ∧ W.link ∧ W.q ∧ W.work ∧ W.vlt ∧ W.ste ∧ W.sce ∧ W.dge ∧ W.pke ∧ W.rng ∧ W.key ∧ W.bbram ∧ W.evr ∧ W.dev ∧ W.pins ∧ W.pwr ∧ W.kpr ∧ W.tmp ∧ W.otp ∧ W.boot ∧ W.flt ∧ W.rcd ∧ W.wdg ∧ W.leg ∧ W.mon ∧ W.sb ∧ W.out) :
    hide W (engineAlarm a b) = hide W b := by
  unfold engineAlarm
  split
  · rfl
  cases a <;> (try dsimp only)
  · split <;> simp [hW]
  · split
    · rfl
    split
    · rfl
    (try dsimp only)
    rw [hide_settleAll W _ (by simp [hW]), hide_stampAlarm W _ (by simp [hW]), hide_event W _ _ _ (by simp [hW]),
      hide_alarmTest W _ _ (by simp [hW]), hide_onCore W _ _ _ (by simp [hW])]
    split
    · split
      · rw [hide_abandonMsg W _ _ _ (by simp [hW]), hide_stopPart W _ _ _ _ (by simp [hW])]
        split <;> simp [hW]
      · rw [hide_stopPart W _ _ _ _ (by simp [hW])]
        split <;> simp [hW]
    · rw [hide_stopPart W _ _ _ _ (by simp [hW])]
      split <;> simp [hW]
  · split
    · rfl
    split
    · rfl
    · simp [hW]
  · exact hide_engineAlarm_pkAlarm W _ _ (by simp [hW])
  · exact hide_engineAlarm_pkAlarm W _ _ (by simp [hW])
  · split <;> simp [hW]
  · split <;> simp [hW]
  · split
    · rfl
    rw [hide_settleAll W _ (by simp [hW]), hide_vaultAlarm W _ _ _ (by simp [hW])]
    simp [hW]
  · simp [hW]
  · split <;> simp [hW]

@[simp] theorem hide_askQuiesce (W : Touch) (u : UnitId) (p : Purpose) (b : Block) (hW : W.work ∧ W.ste ∧ W.sce ∧ W.pwr) :
    hide W (askQuiesce u p b) = hide W b := by
  unfold askQuiesce
  try dsimp only
  repeat' first | (simp [hide_ite, *]; done) | split

@[simp] theorem hide_quiesceStop (W : Touch) (u : UnitId) (p : Purpose) (progress : Nat) (b : Block) (hW : W.link ∧ W.q ∧ W.work ∧ W.vlt ∧ W.ste ∧ W.sce ∧ W.dge ∧ W.pke ∧ W.rng ∧ W.key ∧ W.bbram ∧ W.evr ∧ W.dev ∧ W.pins ∧ W.kpr ∧ W.mon ∧ W.out) :
    hide W (quiesceStop u p progress b) = hide W b := by
  unfold quiesceStop
  try dsimp only
  repeat' first | (simp [hide_ite, *]; done) | split

@[simp] theorem hide_unitRefused (W : Touch) (result : Nat) (b : Block) (hW : W.link ∧ W.dev ∧ W.pwr ∧ W.mon ∧ W.out) :
    hide W (unitRefused result b) = hide W b := by
  unfold unitRefused; simp [hide_ite, *]

@[simp] theorem hide_unitGo (W : Touch) (unit : Nat) (inst : Nat) (b : Block) (hW : W.link ∧ W.q ∧ W.work ∧ W.vlt ∧ W.ste ∧ W.sce ∧ W.dge ∧ W.rng ∧ W.key ∧ W.bbram ∧ W.evr ∧ W.dev ∧ W.pins ∧ W.pwr ∧ W.leg ∧ W.mon ∧ W.out) :
    hide W (unitGo unit inst b) = hide W b := by
  unfold unitGo
  try dsimp only
  repeat' first | (simp [hide_ite, *]; done) | split

@[simp] theorem hide_unitCtrl (W : Touch) (v : Word) (b : Block) (hW : W.link ∧ W.q ∧ W.work ∧ W.vlt ∧ W.ste ∧ W.sce ∧ W.dge ∧ W.rng ∧ W.key ∧ W.bbram ∧ W.evr ∧ W.dev ∧ W.pins ∧ W.pwr ∧ W.leg ∧ W.mon ∧ W.out) :
    hide W (unitCtrl v b) = hide W b := by
  unfold unitCtrl; simp [hide_ite, *]

@[simp] theorem hide_withdrawLane (W : Touch) (n : Nat) (b : Block) (hW : W.work ∧ W.ste ∧ W.sce ∧ W.pwr) :
    hide W (withdrawLane n b) = hide W b := by
  unfold withdrawLane; simp [hide_ite, *]

@[simp] theorem hide_withdrawCore (W : Touch) (n : Nat) (b : Block) (hW : W.work ∧ W.ste ∧ W.sce ∧ W.pwr) :
    hide W (withdrawCore n b) = hide W b := by
  unfold withdrawCore
  try dsimp only
  repeat' first | (simp [hide_ite, *]; done) | split

@[simp] theorem hide_admitGoal (W : Touch) (b : Block) (hW : W.ste ∧ W.sce) :
    hide W (admitGoal b) = hide W b := by
  unfold admitGoal; simp [hide_ite, *]

@[simp] theorem hide_governorStep (W : Touch) (b : Block) (hW : W.link ∧ W.ste ∧ W.sce ∧ W.dev ∧ W.pwr ∧ W.out) :
    hide W (governorStep b) = hide W b := by
  unfold governorStep; simp [hide_ite, *]

@[simp] theorem hide_governorDecision (W : Touch) (g : Sensors) (b : Block) (hW : W.link ∧ W.q ∧ W.work ∧ W.vlt ∧ W.ste ∧ W.sce ∧ W.dge ∧ W.rng ∧ W.key ∧ W.bbram ∧ W.evr ∧ W.dev ∧ W.pins ∧ W.pwr ∧ W.out) :
    hide W (governorDecision g b) = hide W b := by
  unfold governorDecision; simp [hide_ite, *]

@[simp] theorem hide_avsAck (W : Touch) (measured : Nat) (b : Block) (hW : W.link ∧ W.q ∧ W.work ∧ W.vlt ∧ W.ste ∧ W.sce ∧ W.dge ∧ W.rng ∧ W.key ∧ W.bbram ∧ W.evr ∧ W.dev ∧ W.pins ∧ W.pwr ∧ W.out) :
    hide W (avsAck measured b) = hide W b := by
  unfold avsAck; simp [hide_ite, *]

@[simp] theorem hide_avsFault (W : Touch) (g : Sensors) (b : Block) (hW : W.link ∧ W.q ∧ W.work ∧ W.vlt ∧ W.ste ∧ W.sce ∧ W.dge ∧ W.rng ∧ W.key ∧ W.bbram ∧ W.evr ∧ W.dev ∧ W.pins ∧ W.pwr ∧ W.out) :
    hide W (avsFault g b) = hide W b := by
  unfold avsFault; simp [hide_ite, *]

@[simp] theorem hide_quiesceAck (W : Touch) (u : UnitId) (progress : Nat) (b : Block) (hW : W.run ∧ W.link ∧ W.q ∧ W.work ∧ W.vlt ∧ W.ste ∧ W.sce ∧ W.dge ∧ W.pke ∧ W.rng ∧ W.key ∧ W.bbram ∧ W.evr ∧ W.dev ∧ W.pins ∧ W.pwr ∧ W.kpr ∧ W.tmp ∧ W.otp ∧ W.boot ∧ W.flt ∧ W.rcd ∧ W.wdg ∧ W.leg ∧ W.mon ∧ W.sb ∧ W.out) :
    hide W (quiesceAck u progress b) = hide W b := by
  unfold quiesceAck
  try dsimp only
  repeat' first | (simp [hide_ite, *]; done) | split

@[simp] theorem hide_setPowerCap (W : Touch) (id : Nat) (x0 : Block) (hW : W.link ∧ W.q ∧ W.work ∧ W.vlt ∧ W.ste ∧ W.sce ∧ W.dge ∧ W.rng ∧ W.key ∧ W.bbram ∧ W.evr ∧ W.dev ∧ W.pins ∧ W.pwr ∧ W.out) :
    hide W (setPowerCap id x0) = hide W x0 := by
  unfold setPowerCap; simp [hide_ite, *]

@[simp] theorem hide_linkTrained (W : Touch) (rate : LinkRate) (w0 : LinkWidth) (w1 : LinkWidth) (repaired : Nat) (b : Block) (hW : W.link ∧ W.q ∧ W.work ∧ W.vlt ∧ W.ste ∧ W.sce ∧ W.dge ∧ W.rng ∧ W.key ∧ W.bbram ∧ W.evr ∧ W.dev ∧ W.pins ∧ W.out) :
    hide W (linkTrained rate w0 w1 repaired b) = hide W b := by
  unfold linkTrained; simp [hide_ite, *]

@[simp] theorem hide_moduleTimeout (W : Touch) (m : Nat) (b : Block) (hW : W.link) :
    hide W (moduleTimeout m b) = hide W b := by
  unfold moduleTimeout; simp [hide_ite, *]

@[simp] theorem hide_retrain (W : Touch) (b : Block) (hW : W.link ∧ W.key ∧ W.bbram ∧ W.evr ∧ W.dev ∧ W.pins ∧ W.out) :
    hide W (retrain b) = hide W b := by
  unfold retrain
  try dsimp only
  repeat' first | (simp [hide_ite, *]; done) | split

@[simp] theorem hide_dlDown (W : Touch) (b : Block) (hW : W.link ∧ W.q ∧ W.work ∧ W.vlt ∧ W.ste ∧ W.sce ∧ W.dge ∧ W.rng ∧ W.key ∧ W.bbram ∧ W.evr ∧ W.dev ∧ W.pins ∧ W.rcd ∧ W.leg ∧ W.out) :
    hide W (dlDown b) = hide W b := by
  unfold dlDown; simp [hide_ite, *]

@[simp] theorem hide_vfEnableClear (W : Touch) (b : Block) (hW : W.link ∧ W.q ∧ W.work ∧ W.vlt ∧ W.ste ∧ W.sce ∧ W.dge ∧ W.rng ∧ W.key ∧ W.bbram ∧ W.evr ∧ W.dev ∧ W.pins ∧ W.rcd ∧ W.out) :
    hide W (vfEnableClear b) = hide W b := by
  unfold vfEnableClear; simp [hide_ite, *]

@[simp] theorem hide_busMaster (W : Touch) (fn : Nat) (on : Bool) (b : Block) (hW : W.link ∧ W.q ∧ W.work ∧ W.vlt ∧ W.ste ∧ W.sce ∧ W.dge ∧ W.rng ∧ W.key ∧ W.bbram ∧ W.evr ∧ W.dev ∧ W.pins ∧ W.out) :
    hide W (busMaster fn on b) = hide W b := by
  unfold busMaster; simp [hide_ite, *]

@[simp] theorem hide_powerState (W : Touch) (fn : Nat) (d3 : Bool) (b : Block) (hW : W.link ∧ W.q ∧ W.work ∧ W.vlt ∧ W.ste ∧ W.sce ∧ W.dge ∧ W.rng ∧ W.key ∧ W.bbram ∧ W.evr ∧ W.dev ∧ W.pins ∧ W.out) :
    hide W (powerState fn d3 b) = hide W b := by
  unfold powerState; simp [hide_ite, *]

@[simp] theorem hide_configViolation (W : Touch) (fn : Nat) (b : Block) (hW : W.link ∧ W.q ∧ W.work ∧ W.vlt ∧ W.ste ∧ W.sce ∧ W.dge ∧ W.rng ∧ W.key ∧ W.bbram ∧ W.evr ∧ W.dev ∧ W.pins ∧ W.out) :
    hide W (configViolation fn b) = hide W b := by
  unfold configViolation; simp [hide_ite, *]

@[simp] theorem hide_unsupported (W : Touch) (fn : Nat) (posted : Bool) (b : Block) (hW : W.link ∧ W.out) :
    hide W (unsupported fn posted b) = hide W b := by
  unfold unsupported; simp [hide_ite, *]

@[simp] theorem hide_badRequest (W : Touch) (r : BadRequest) (posted : Bool) (b : Block) (hW : W.link ∧ W.out) :
    hide W (badRequest r posted b) = hide W b := by
  unfold badRequest
  try dsimp only
  repeat' first | (simp [hide_ite, *]; done) | split

@[simp] theorem hide_poisonedWrite (W : Touch) (fn : Nat) (b : Block) (hW : W.link ∧ W.out) :
    hide W (poisonedWrite fn b) = hide W b := by
  unfold poisonedWrite; simp [hide_ite, *]

@[simp] theorem hide_badWidth (W : Touch) (fn : Nat) (isWrite : Bool) (off : Nat) (len : Nat) (b : Block) (hW : W.link ∧ W.dev ∧ W.out) :
    hide W (badWidth fn isWrite off len b) = hide W b := by
  unfold badWidth; simp [hide_ite, *]

@[simp] theorem hide_pwrgdChange (W : Touch) (f : Block → Block) (b : Block) (hW : W.link ∧ W.key ∧ W.bbram ∧ W.evr ∧ W.dev ∧ W.pins ∧ W.out) (hf0 : ∀ y0, hide W (f y0) = hide W y0) :
    hide W (pwrgdChange f b) = hide W b := by
  unfold pwrgdChange; simp [hide_ite, *]

@[simp] theorem hide_pwrgdMsg (W : Touch) (good : Bool) (b : Block) (hW : W.link ∧ W.key ∧ W.bbram ∧ W.evr ∧ W.dev ∧ W.pins ∧ W.out) :
    hide W (pwrgdMsg good b) = hide W b := by
  unfold pwrgdMsg; simp [hide_ite, *]

@[simp] theorem hide_pwrgdFall (W : Touch) (b : Block) (hW : W.link ∧ W.q ∧ W.work ∧ W.vlt ∧ W.ste ∧ W.sce ∧ W.dge ∧ W.rng ∧ W.key ∧ W.bbram ∧ W.evr ∧ W.dev ∧ W.pins ∧ W.rcd ∧ W.wdg ∧ W.leg ∧ W.out) :
    hide W (pwrgdFall b) = hide W b := by
  unfold pwrgdFall; simp [hide_ite, *]

@[simp] theorem hide_pwrgdStable (W : Touch) (b : Block) (hW : W.link ∧ W.pins ∧ W.wdg ∧ W.out) :
    hide W (pwrgdStable b) = hide W b := by
  unfold pwrgdStable; simp [hide_ite, *]

@[simp] theorem hide_hostAck (W : Touch) (value : Bool) (b : Block) (hW : W.link) :
    hide W (hostAck value b) = hide W b := by
  unfold hostAck; simp [hide_ite, *]

@[simp] theorem hide_hostResend (W : Touch) (b : Block) (hW : W.link ∧ W.key ∧ W.bbram ∧ W.evr ∧ W.dev ∧ W.pins ∧ W.out) :
    hide W (hostResend b) = hide W b := by
  unfold hostResend
  try dsimp only
  repeat' first | (simp [hide_ite, *]; done) | split

@[simp] theorem hide_sidebandUp (W : Touch) (b : Block) (hW : W.sb ∧ W.out) :
    hide W (sidebandUp b) = hide W b := by
  unfold sidebandUp; simp [hide_ite, *]

@[simp] theorem hide_msixUnmask (W : Touch) (fn : Nat) (vec : Nat) (b : Block) (hW : W.link ∧ W.out) :
    hide W (msixUnmask fn vec b) = hide W b := by
  unfold msixUnmask; simp [hide_ite, *]

@[simp] theorem hide_countReadErrors (W : Touch) (r : ReadReq) (n : Nat) (b : Block) (hW : W.link ∧ W.key ∧ W.bbram ∧ W.evr ∧ W.dev ∧ W.pins ∧ W.out) :
    hide W (countReadErrors r n b) = hide W b := by
  unfold countReadErrors; simp [hide_ite, *]

@[simp] theorem hide_deliver (W : Touch) (r : ReadReq) (res : HostData) (progress : Nat) (b : Block) (hW : W.link ∧ W.q ∧ W.work ∧ W.vlt ∧ W.ste ∧ W.sce ∧ W.dge ∧ W.key ∧ W.bbram ∧ W.evr ∧ W.dev ∧ W.pins ∧ W.kpr ∧ W.mon ∧ W.out) :
    hide W (deliver r res progress b) = hide W b := by
  unfold deliver
  try dsimp only
  repeat' first | (simp [hide_ite, *]; done) | split

@[simp] theorem hide_readEnds (W : Touch) (r : ReadReq) (res : HostData) (progress : Nat) (b : Block) (hW : W.link ∧ W.q ∧ W.work ∧ W.vlt ∧ W.ste ∧ W.sce ∧ W.dge ∧ W.rng ∧ W.key ∧ W.bbram ∧ W.evr ∧ W.dev ∧ W.pins ∧ W.kpr ∧ W.mon ∧ W.out) :
    hide W (readEnds r res progress b) = hide W b := by
  unfold readEnds; simp [hide_ite, *]

@[simp] theorem hide_pieceEnds (W : Touch) (tag : Nat) (p : ReadPiece) (res : HostData) (progress : Nat) (b : Block) (hW : W.link ∧ W.q ∧ W.work ∧ W.vlt ∧ W.ste ∧ W.sce ∧ W.dge ∧ W.rng ∧ W.key ∧ W.bbram ∧ W.evr ∧ W.dev ∧ W.pins ∧ W.kpr ∧ W.mon ∧ W.out) :
    hide W (pieceEnds tag p res progress b) = hide W b := by
  unfold pieceEnds
  try dsimp only
  repeat' first | (simp [hide_ite, *]; done) | split

@[simp] theorem hide_readCompletion (W : Touch) (tag : Nat) (res : HostData) (progress : Nat) (b : Block) (hW : W.link ∧ W.q ∧ W.work ∧ W.vlt ∧ W.ste ∧ W.sce ∧ W.dge ∧ W.rng ∧ W.key ∧ W.bbram ∧ W.evr ∧ W.dev ∧ W.pins ∧ W.kpr ∧ W.mon ∧ W.out) :
    hide W (readCompletion tag res progress b) = hide W b := by
  unfold readCompletion
  try dsimp only
  repeat' first | (simp [hide_ite, *]; done) | split

@[simp] theorem hide_readTimeout (W : Touch) (tag : Nat) (got : Bytes) (progress : Nat) (b : Block) (hW : W.link ∧ W.q ∧ W.work ∧ W.vlt ∧ W.ste ∧ W.sce ∧ W.dge ∧ W.rng ∧ W.key ∧ W.bbram ∧ W.evr ∧ W.dev ∧ W.pins ∧ W.kpr ∧ W.mon ∧ W.out) :
    hide W (readTimeout tag got progress b) = hide W b := by
  unfold readTimeout
  try dsimp only
  repeat' first | (simp [hide_ite, *]; done) | split

@[simp] theorem hide_onHsm (W : Touch) (id : Nat) (f : HsmJob → HsmJob) (b : Block) (hW : W.kpr) :
    hide W (onHsm id f b) = hide W b := by
  unfold onHsm; simp [hide_ite, *]

@[simp] theorem hide_pkSubmit (W : Touch) (u : UnitId) (h : HsmJob) (note : Bytes) (b : Block) (hW : W.link ∧ W.q ∧ W.work ∧ W.vlt ∧ W.sce ∧ W.pke ∧ W.key ∧ W.bbram ∧ W.evr ∧ W.dev ∧ W.pins ∧ W.kpr ∧ W.mon ∧ W.out) :
    hide W (pkSubmit u h note b) = hide W b := by
  unfold pkSubmit; simp [hide_ite, *]

@[simp] theorem hide_pkBlobKek (W : Touch) (it : PkItems) (h : HsmJob) (b : Block) (hW : W.key) :
    hide W (pkBlobKek it h b) = hide W b := by
  unfold pkBlobKek; simp [hide_ite, *]

@[simp] theorem hide_pkKek (W : Touch) (code : Nat) (it : PkItems) (b : Block) (hW : W.key) :
    hide W (pkKek code it b) = hide W b := by
  unfold pkKek; simp [hide_ite, *]

@[simp] theorem hide_pkOpened (W : Touch) (code : Nat) (h : HsmJob) (b : Block) (hW : W.key) :
    hide W (pkOpened code h b) = hide W b := by
  unfold pkOpened
  try dsimp only
  repeat' first | (simp [hide_ite, *]; done) | split

@[simp] theorem hide_pkCommand (W : Touch) (code : Nat) (h : HsmJob) (b : Block) (hW : W.link ∧ W.q ∧ W.work ∧ W.vlt ∧ W.sce ∧ W.pke ∧ W.rng ∧ W.key ∧ W.bbram ∧ W.evr ∧ W.dev ∧ W.pins ∧ W.kpr ∧ W.mon ∧ W.out) :
    hide W (pkCommand code h b) = hide W b := by
  unfold pkCommand
  try dsimp only
  repeat' first | (simp [hide_ite, *]; done) | split

@[simp] theorem hide_countSign (W : Touch) (b : Block) (hW : W.pke) :
    hide W (countSign b) = hide W b := by
  unfold countSign; simp [hide_ite, *]

@[simp] theorem hide_countVerify (W : Touch) (b : Block) (hW : W.pke) :
    hide W (countVerify b) = hide W b := by
  unfold countVerify; simp [hide_ite, *]

@[simp] theorem hide_pkResult (W : Touch) (h : HsmJob) (b : Block) (hW : W.link ∧ W.q ∧ W.work ∧ W.vlt ∧ W.sce ∧ W.pke ∧ W.rng ∧ W.key ∧ W.bbram ∧ W.evr ∧ W.dev ∧ W.pins ∧ W.kpr ∧ W.mon ∧ W.out) :
    hide W (pkResult h b) = hide W b := by
  unfold pkResult
  try dsimp only
  repeat' first | (simp [hide_ite, *]; done) | split

@[simp] theorem hide_pkJobDone (W : Touch) (u : UnitId) (b : Block) (hW : W.link ∧ W.q ∧ W.work ∧ W.vlt ∧ W.ste ∧ W.sce ∧ W.dge ∧ W.pke ∧ W.rng ∧ W.key ∧ W.bbram ∧ W.evr ∧ W.dev ∧ W.pins ∧ W.kpr ∧ W.mon ∧ W.out) :
    hide W (pkJobDone u b) = hide W b := by
  unfold pkJobDone
  try dsimp only
  repeat' first | (simp [hide_ite, *]; done) | split

@[simp] theorem hide_pkRun (W : Touch) (code : Nat) (id : Nat) (x0 : Block) (hW : W.link ∧ W.q ∧ W.work ∧ W.vlt ∧ W.ste ∧ W.sce ∧ W.dge ∧ W.pke ∧ W.rng ∧ W.key ∧ W.bbram ∧ W.evr ∧ W.dev ∧ W.pins ∧ W.kpr ∧ W.mon ∧ W.out) :
    hide W (pkRun code id x0) = hide W x0 := by
  unfold pkRun; simp [hide_ite, *]

@[simp] theorem hide_pkVerifyRun (W : Touch) (id : Nat) (x0 : Block) (hW : W.link ∧ W.q ∧ W.work ∧ W.vlt ∧ W.ste ∧ W.sce ∧ W.dge ∧ W.pke ∧ W.rng ∧ W.key ∧ W.bbram ∧ W.evr ∧ W.dev ∧ W.pins ∧ W.kpr ∧ W.mon ∧ W.out) :
    hide W (pkVerifyRun id x0) = hide W x0 := by
  unfold pkVerifyRun; simp [hide_ite, *]

@[simp] theorem hide_aliasSign (W : Touch) (msg : Bytes) (b : Block) (hW : W.link ∧ W.pke ∧ W.rng ∧ W.key ∧ W.bbram ∧ W.evr ∧ W.dev ∧ W.pins ∧ W.out) :
    hide W (aliasSign msg b).2 = hide W b := by
  unfold aliasSign
  try dsimp only
  repeat' first | (simp [hide_ite, *]; done) | split

@[simp] theorem hide_aliasCose (W : Touch) (payload : Bytes) (b : Block) (hW : W.link ∧ W.pke ∧ W.rng ∧ W.key ∧ W.bbram ∧ W.evr ∧ W.dev ∧ W.pins ∧ W.out) :
    hide W (aliasCose payload b).2 = hide W b := by
  unfold aliasCose; simp [hide_ite, *]

@[simp] theorem hide_slotFound (W : Touch) (i : Nat) (b : Block) (hW : W.link ∧ W.key ∧ W.bbram ∧ W.evr ∧ W.dev ∧ W.pins ∧ W.out) :
    hide W (slotFound i b) = hide W b := by
  unfold slotFound; simp [hide_ite, *]

@[simp] theorem hide_blobOpened (W : Touch) (h : HsmJob) (blob : Bytes) (b : Block) (hW : W.key) :
    hide W (blobOpened h blob b) = hide W b := by
  unfold blobOpened; simp [hide_ite, *]

@[simp] theorem hide_eitherOpened (W : Touch) (h : HsmJob) (i : Nat) (blob : Bytes) (b : Block) (hW : W.link ∧ W.key ∧ W.bbram ∧ W.evr ∧ W.dev ∧ W.pins ∧ W.out) :
    hide W (eitherOpened h i blob b) = hide W b := by
  unfold eitherOpened; simp [hide_ite, *]

@[simp] theorem hide_drawKey (W : Touch) (t : Nat) (n : Nat) (x0 : Nat) (x1 : Block) (hW : W.rng) :
    hide W (drawKey t n x0 x1).2 = hide W x1 := by
  induction x0 generalizing x1 with
  | zero => simp [drawKey, hW]
  | succ k ih => rw [drawKey]; split <;> simp [hW, ih]

@[simp] theorem hide_freshKey (W : Touch) (t : Nat) (n : Nat) (b : Block) (hW : W.rng) :
    hide W (freshKey t n b).2 = hide W b := by
  unfold freshKey
  try dsimp only
  repeat' first | (simp [hide_ite, *]; done) | split

@[simp] theorem hide_giveBlob (W : Touch) (h : HsmJob) (tmpl : Bytes) (key : Bytes) (back : Bytes) (b : Block) (hW : W.link ∧ W.q ∧ W.work ∧ W.vlt ∧ W.sce ∧ W.rng ∧ W.key ∧ W.bbram ∧ W.evr ∧ W.dev ∧ W.pins ∧ W.kpr ∧ W.mon ∧ W.out) :
    hide W (giveBlob h tmpl key back b) = hide W b := by
  unfold giveBlob; simp [hide_ite, *]

@[simp] theorem hide_giveSlot (W : Touch) (h : HsmJob) (i : Nat) (key : Bytes) (attr : Bytes) (out : Bytes) (b : Block) (hW : W.link ∧ W.q ∧ W.work ∧ W.vlt ∧ W.sce ∧ W.key ∧ W.bbram ∧ W.evr ∧ W.dev ∧ W.pins ∧ W.kpr ∧ W.mon ∧ W.out) :
    hide W (giveSlot h i key attr out b) = hide W b := by
  unfold giveSlot; simp [hide_ite, *]

@[simp] theorem hide_keyGenerate (W : Touch) (h : HsmJob) (b : Block) (hW : W.link ∧ W.q ∧ W.work ∧ W.vlt ∧ W.sce ∧ W.rng ∧ W.key ∧ W.bbram ∧ W.evr ∧ W.dev ∧ W.pins ∧ W.kpr ∧ W.mon ∧ W.out) :
    hide W (keyGenerate h b) = hide W b := by
  unfold keyGenerate
  try dsimp only
  repeat' first | (simp [hide_ite, *]; done) | split

@[simp] theorem hide_keyDerive (W : Touch) (h : HsmJob) (b : Block) (hW : W.link ∧ W.q ∧ W.work ∧ W.vlt ∧ W.sce ∧ W.rng ∧ W.key ∧ W.bbram ∧ W.evr ∧ W.dev ∧ W.pins ∧ W.kpr ∧ W.mon ∧ W.out) :
    hide W (keyDerive h b) = hide W b := by
  unfold keyDerive
  try dsimp only
  repeat' first | (simp [hide_ite, *]; done) | split

@[simp] theorem hide_importSession (W : Touch) (h : HsmJob) (b : Block) (hW : W.link ∧ W.q ∧ W.work ∧ W.vlt ∧ W.sce ∧ W.pke ∧ W.rng ∧ W.key ∧ W.bbram ∧ W.evr ∧ W.dev ∧ W.pins ∧ W.kpr ∧ W.mon ∧ W.out) :
    hide W (importSession h b) = hide W b := by
  unfold importSession
  try dsimp only
  repeat' first | (simp [hide_ite, *]; done) | split

@[simp] theorem hide_importExpiry (W : Touch) (b : Block) (hW : W.key) :
    hide W (importExpiry b) = hide W b := by
  unfold importExpiry; simp [hide_ite, *]

@[simp] theorem hide_importUsed (W : Touch) (sid : Nat) (b : Block) (hW : W.key) :
    hide W (importUsed sid b) = hide W b := by
  unfold importUsed
  try dsimp only
  repeat' first | (simp [hide_ite, *]; done) | split

@[simp] theorem hide_importBlob (W : Touch) (h : HsmJob) (b : Block) (hW : W.link ∧ W.q ∧ W.work ∧ W.vlt ∧ W.sce ∧ W.rng ∧ W.key ∧ W.bbram ∧ W.evr ∧ W.dev ∧ W.pins ∧ W.kpr ∧ W.mon ∧ W.out) :
    hide W (importBlob h b) = hide W b := by
  unfold importBlob
  try dsimp only
  repeat' first | (simp [hide_ite, *]; done) | split

@[simp] theorem hide_slotJudged (W : Touch) (reason : Nat) (i : Nat) (b : Block) (hW : W.link ∧ W.key ∧ W.bbram ∧ W.evr ∧ W.dev ∧ W.pins ∧ W.out) :
    hide W (slotJudged reason i b) = hide W b := by
  unfold slotJudged; simp [hide_ite, *]

@[simp] theorem hide_importSlot (W : Touch) (h : HsmJob) (b : Block) (hW : W.link ∧ W.q ∧ W.work ∧ W.vlt ∧ W.sce ∧ W.key ∧ W.bbram ∧ W.evr ∧ W.dev ∧ W.pins ∧ W.kpr ∧ W.mon ∧ W.out) :
    hide W (importSlot h b) = hide W b := by
  unfold importSlot
  try dsimp only
  repeat' first | (simp [hide_ite, *]; done) | split

@[simp] theorem hide_slotGenerate (W : Touch) (h : HsmJob) (b : Block) (hW : W.link ∧ W.q ∧ W.work ∧ W.vlt ∧ W.sce ∧ W.rng ∧ W.key ∧ W.bbram ∧ W.evr ∧ W.dev ∧ W.pins ∧ W.kpr ∧ W.mon ∧ W.out) :
    hide W (slotGenerate h b) = hide W b := by
  unfold slotGenerate
  try dsimp only
  repeat' first | (simp [hide_ite, *]; done) | split

@[simp] theorem hide_slotErase (W : Touch) (h : HsmJob) (b : Block) (hW : W.link ∧ W.q ∧ W.work ∧ W.vlt ∧ W.sce ∧ W.key ∧ W.bbram ∧ W.evr ∧ W.dev ∧ W.pins ∧ W.kpr ∧ W.mon ∧ W.out) :
    hide W (slotErase h b) = hide W b := by
  unfold slotErase
  try dsimp only
  repeat' first | (simp [hide_ite, *]; done) | split

@[simp] theorem hide_slotStatus (W : Touch) (h : HsmJob) (b : Block) (hW : W.link ∧ W.q ∧ W.work ∧ W.vlt ∧ W.sce ∧ W.key ∧ W.bbram ∧ W.evr ∧ W.dev ∧ W.pins ∧ W.kpr ∧ W.mon ∧ W.out) :
    hide W (slotStatus h b) = hide W b := by
  unfold slotStatus
  try dsimp only
  repeat' first | (simp [hide_ite, *]; done) | split

@[simp] theorem hide_keyblockImport (W : Touch) (h : HsmJob) (b : Block) (hW : W.link ∧ W.q ∧ W.work ∧ W.vlt ∧ W.sce ∧ W.rng ∧ W.key ∧ W.bbram ∧ W.evr ∧ W.dev ∧ W.pins ∧ W.kpr ∧ W.mon ∧ W.out) :
    hide W (keyblockImport h b) = hide W b := by
  unfold keyblockImport
  try dsimp only
  repeat' first | (simp [hide_ite, *]; done) | split

@[simp] theorem hide_exportKey (W : Touch) (len : NamedKey → Option Nat) (out : NamedKey → NamedKey → Block → Bytes × Block) (h : HsmJob) (b : Block) (hW : W.link ∧ W.q ∧ W.work ∧ W.vlt ∧ W.sce ∧ W.key ∧ W.bbram ∧ W.evr ∧ W.dev ∧ W.pins ∧ W.kpr ∧ W.mon ∧ W.out) (hf0 : ∀ y0 y1 y2, hide W (out y0 y1 y2).2 = hide W y2) :
    hide W (exportKey len out h b) = hide W b := by
  unfold exportKey
  try dsimp only
  repeat' first | (simp [hide_ite, *]; done) | split

@[simp] theorem hide_keyblockExport (W : Touch) (h : HsmJob) (b : Block) (hW : W.link ∧ W.q ∧ W.work ∧ W.vlt ∧ W.sce ∧ W.rng ∧ W.key ∧ W.bbram ∧ W.evr ∧ W.dev ∧ W.pins ∧ W.kpr ∧ W.mon ∧ W.out) :
    hide W (keyblockExport h b) = hide W b := by
  unfold keyblockExport; simp [hide_ite, *]

@[simp] theorem hide_kwpExport (W : Touch) (h : HsmJob) (b : Block) (hW : W.link ∧ W.q ∧ W.work ∧ W.vlt ∧ W.sce ∧ W.key ∧ W.bbram ∧ W.evr ∧ W.dev ∧ W.pins ∧ W.kpr ∧ W.mon ∧ W.out) :
    hide W (kwpExport h b) = hide W b := by
  unfold kwpExport; simp [hide_ite, *]

@[simp] theorem hide_blobRewrap (W : Touch) (h : HsmJob) (b : Block) (hW : W.link ∧ W.q ∧ W.work ∧ W.vlt ∧ W.sce ∧ W.rng ∧ W.key ∧ W.bbram ∧ W.evr ∧ W.dev ∧ W.pins ∧ W.kpr ∧ W.mon ∧ W.out) :
    hide W (blobRewrap h b) = hide W b := by
  unfold blobRewrap
  try dsimp only
  repeat' first | (simp [hide_ite, *]; done) | split

@[simp] theorem hide_keyRun (W : Touch) (code : Nat) (rnd : Randomness) (f : HsmJob → Block → Block) (id : Nat) (x0 : Block) (hW : W.link ∧ W.q ∧ W.work ∧ W.vlt ∧ W.ste ∧ W.sce ∧ W.dge ∧ W.rng ∧ W.key ∧ W.bbram ∧ W.evr ∧ W.dev ∧ W.pins ∧ W.kpr ∧ W.mon ∧ W.out) (hf0 : ∀ y0 y1, hide W (f y0 y1) = hide W y1) :
    hide W (keyRun code rnd f id x0) = hide W x0 := by
  unfold keyRun; simp [hide_ite, *]

@[simp] theorem hide_keyQuorumRun (W : Touch) (code : Nat) (rnd : Randomness) (required : HsmJob → Block → Bool) (f : HsmJob → Block → Block) (id : Nat) (x0 : Block) (hW : W.link ∧ W.q ∧ W.work ∧ W.vlt ∧ W.ste ∧ W.sce ∧ W.dge ∧ W.rng ∧ W.key ∧ W.bbram ∧ W.evr ∧ W.dev ∧ W.pins ∧ W.kpr ∧ W.mon ∧ W.out) (hf0 : ∀ y0 y1, hide W (f y0 y1) = hide W y1) :
    hide W (keyQuorumRun code rnd required f id x0) = hide W x0 := by
  unfold keyQuorumRun; simp [hide_ite, *]

@[simp] theorem hide_importRun (W : Touch) (code : Nat) (rnd : Randomness) (f : HsmJob → Block → Block) (id : Nat) (b : Block) (hW : W.link ∧ W.q ∧ W.work ∧ W.vlt ∧ W.ste ∧ W.sce ∧ W.dge ∧ W.rng ∧ W.key ∧ W.bbram ∧ W.evr ∧ W.dev ∧ W.pins ∧ W.kpr ∧ W.mon ∧ W.out) (hf0 : ∀ y0 y1, hide W (f y0 y1) = hide W y1) :
    hide W (importRun code rnd f id b) = hide W b := by
  unfold importRun
  try dsimp only
  repeat' first | (simp [hide_ite, *]; done) | split

@[simp] theorem hide_eraseJudged (W : Touch) (id : Nat) (b : Block) (hW : W.link ∧ W.key ∧ W.bbram ∧ W.evr ∧ W.dev ∧ W.pins ∧ W.out) :
    hide W (eraseJudged id b) = hide W b := by
  unfold eraseJudged
  try dsimp only
  repeat' first | (simp [hide_ite, *]; done) | split

@[simp] theorem hide_endKeys (W : Touch) (hit : Bytes → Bool) (all : Bool) (status : Nat) (detail : Nat) (b : Block) (hW : W.link ∧ W.q ∧ W.work ∧ W.vlt ∧ W.ste ∧ W.sce ∧ W.dge ∧ W.key ∧ W.bbram ∧ W.evr ∧ W.dev ∧ W.pins ∧ W.leg ∧ W.out) :
    hide W (endKeys hit all status detail b) = hide W b := by
  unfold endKeys
  try dsimp only
  repeat' first | (simp [hide_ite, *]; done) | split

@[simp] theorem hide_retireEpoch (W : Touch) (e : Nat) (b : Block) (hW : W.link ∧ W.q ∧ W.work ∧ W.vlt ∧ W.ste ∧ W.sce ∧ W.dge ∧ W.rng ∧ W.key ∧ W.bbram ∧ W.evr ∧ W.dev ∧ W.pins ∧ W.leg ∧ W.out) :
    hide W (retireEpoch e b) = hide W b := by
  unfold retireEpoch; simp [hide_ite, *]

@[simp] theorem hide_retireOld (W : Touch) (before : List Nat) (b : Block) (hW : W.link ∧ W.q ∧ W.work ∧ W.vlt ∧ W.ste ∧ W.sce ∧ W.dge ∧ W.rng ∧ W.key ∧ W.bbram ∧ W.evr ∧ W.dev ∧ W.pins ∧ W.leg ∧ W.out) :
    hide W (retireOld before b) = hide W b := by
  unfold retireOld; simp [hide_ite, *]

@[simp] theorem hide_lockKeys (W : Touch) (b : Block) (hW : W.run ∧ W.link ∧ W.q ∧ W.work ∧ W.vlt ∧ W.ste ∧ W.sce ∧ W.dge ∧ W.rng ∧ W.key ∧ W.bbram ∧ W.evr ∧ W.dev ∧ W.pins ∧ W.leg ∧ W.out) :
    hide W (lockKeys b) = hide W b := by
  unfold lockKeys; simp [hide_ite, *]

@[simp] theorem hide_purgeSessions (W : Touch) (b : Block) (hW : W.kpr) :
    hide W (purgeSessions b) = hide W b := by
  unfold purgeSessions; simp [hide_ite, *]

@[simp] theorem hide_sessionExpiry (W : Touch) (sid : Nat) (b : Block) (hW : W.kpr) :
    hide W (sessionExpiry sid b) = hide W b := by
  unfold sessionExpiry; simp [hide_ite, *]

@[simp] theorem hide_eqxOpen (W : Touch) (h : HsmJob) (b : Block) (hW : W.link ∧ W.q ∧ W.work ∧ W.vlt ∧ W.sce ∧ W.rng ∧ W.key ∧ W.bbram ∧ W.evr ∧ W.dev ∧ W.pins ∧ W.kpr ∧ W.mon ∧ W.out) :
    hide W (eqxOpen h b) = hide W b := by
  unfold eqxOpen
  try dsimp only
  repeat' first | (simp [hide_ite, *]; done) | split

@[simp] theorem hide_approvalFails (W : Touch) (h : HsmJob) (s : EqxSession) (b : Block) (hW : W.link ∧ W.q ∧ W.work ∧ W.vlt ∧ W.sce ∧ W.key ∧ W.bbram ∧ W.evr ∧ W.dev ∧ W.pins ∧ W.kpr ∧ W.mon ∧ W.out) :
    hide W (approvalFails h s b) = hide W b := by
  unfold approvalFails; simp [hide_ite, *]

@[simp] theorem hide_eqxApprove (W : Touch) (h : HsmJob) (b : Block) (hW : W.link ∧ W.q ∧ W.work ∧ W.vlt ∧ W.sce ∧ W.pke ∧ W.key ∧ W.bbram ∧ W.evr ∧ W.dev ∧ W.pins ∧ W.kpr ∧ W.mon ∧ W.out) :
    hide W (eqxApprove h b) = hide W b := by
  unfold eqxApprove
  try dsimp only
  repeat' first | (simp [hide_ite, *]; done) | split

@[simp] theorem hide_eqxStatus (W : Touch) (h : HsmJob) (b : Block) (hW : W.link ∧ W.q ∧ W.work ∧ W.vlt ∧ W.sce ∧ W.key ∧ W.bbram ∧ W.evr ∧ W.dev ∧ W.pins ∧ W.kpr ∧ W.mon ∧ W.out) :
    hide W (eqxStatus h b) = hide W b := by
  unfold eqxStatus
  try dsimp only
  repeat' first | (simp [hide_ite, *]; done) | split

@[simp] theorem hide_eqxClose (W : Touch) (h : HsmJob) (b : Block) (hW : W.link ∧ W.q ∧ W.work ∧ W.vlt ∧ W.sce ∧ W.key ∧ W.bbram ∧ W.evr ∧ W.dev ∧ W.pins ∧ W.kpr ∧ W.mon ∧ W.out) :
    hide W (eqxClose h b) = hide W b := by
  unfold eqxClose
  try dsimp only
  repeat' first | (simp [hide_ite, *]; done) | split

@[simp] theorem hide_releaseLeaf (W : Touch) (b : Block) (hW : W.tmp) :
    hide W (releaseLeaf b) = hide W b := by
  unfold releaseLeaf; simp [hide_ite, *]

@[simp] theorem hide_releaseCharter (W : Touch) (s : Option EqxSession) (b : Block) (hW : W.tmp) :
    hide W (releaseCharter s b) = hide W b := by
  unfold releaseCharter; simp [hide_ite, *]

@[simp] theorem hide_changeRegistry (W : Touch) (h : HsmJob) (rec : Bytes) (path : Bytes) (owners : Nat) (b : Block) (hW : W.link ∧ W.q ∧ W.work ∧ W.vlt ∧ W.sce ∧ W.key ∧ W.bbram ∧ W.evr ∧ W.dev ∧ W.pins ∧ W.kpr ∧ W.tmp ∧ W.mon ∧ W.out) :
    hide W (changeRegistry h rec path owners b) = hide W b := by
  unfold changeRegistry; simp [hide_ite, *]

@[simp] theorem hide_ownerCreate (W : Touch) (h : HsmJob) (b : Block) (hW : W.link ∧ W.q ∧ W.work ∧ W.vlt ∧ W.sce ∧ W.key ∧ W.bbram ∧ W.evr ∧ W.dev ∧ W.pins ∧ W.kpr ∧ W.tmp ∧ W.mon ∧ W.out) :
    hide W (ownerCreate h b) = hide W b := by
  unfold ownerCreate
  try dsimp only
  repeat' first | (simp [hide_ite, *]; done) | split

@[simp] theorem hide_ownerUpdate (W : Touch) (h : HsmJob) (s : Option EqxSession) (b : Block) (hW : W.link ∧ W.q ∧ W.work ∧ W.vlt ∧ W.sce ∧ W.key ∧ W.bbram ∧ W.evr ∧ W.dev ∧ W.pins ∧ W.kpr ∧ W.tmp ∧ W.mon ∧ W.out) :
    hide W (ownerUpdate h s b) = hide W b := by
  unfold ownerUpdate
  try dsimp only
  repeat' first | (simp [hide_ite, *]; done) | split

@[simp] theorem hide_ownerDelete (W : Touch) (h : HsmJob) (s : Option EqxSession) (b : Block) (hW : W.link ∧ W.q ∧ W.work ∧ W.vlt ∧ W.sce ∧ W.key ∧ W.bbram ∧ W.evr ∧ W.dev ∧ W.pins ∧ W.kpr ∧ W.tmp ∧ W.mon ∧ W.out) :
    hide W (ownerDelete h s b) = hide W b := by
  unfold ownerDelete
  try dsimp only
  repeat' first | (simp [hide_ite, *]; done) | split

@[simp] theorem hide_fnBind (W : Touch) (h : HsmJob) (b : Block) (hW : W.link ∧ W.q ∧ W.work ∧ W.vlt ∧ W.sce ∧ W.key ∧ W.bbram ∧ W.evr ∧ W.dev ∧ W.pins ∧ W.kpr ∧ W.mon ∧ W.out) :
    hide W (fnBind h b) = hide W b := by
  unfold fnBind
  try dsimp only
  repeat' first | (simp [hide_ite, *]; done) | split

@[simp] theorem hide_fnUnbind (W : Touch) (h : HsmJob) (b : Block) (hW : W.link ∧ W.q ∧ W.work ∧ W.vlt ∧ W.sce ∧ W.key ∧ W.bbram ∧ W.evr ∧ W.dev ∧ W.pins ∧ W.kpr ∧ W.mon ∧ W.out) :
    hide W (fnUnbind h b) = hide W b := by
  unfold fnUnbind
  try dsimp only
  repeat' first | (simp [hide_ite, *]; done) | split

@[simp] theorem hide_domainGate (W : Touch) (h : HsmJob) (f : Block → Block) (b : Block) (hW : W.link ∧ W.q ∧ W.work ∧ W.vlt ∧ W.sce ∧ W.key ∧ W.bbram ∧ W.evr ∧ W.dev ∧ W.pins ∧ W.kpr ∧ W.mon ∧ W.out) (hf0 : ∀ y0, hide W (f y0) = hide W y0) :
    hide W (domainGate h f b) = hide W b := by
  unfold domainGate; simp [hide_ite, *]

@[simp] theorem hide_leaveDomain (W : Touch) (b : Block) (hW : W.link ∧ W.q ∧ W.work ∧ W.vlt ∧ W.ste ∧ W.sce ∧ W.dge ∧ W.rng ∧ W.key ∧ W.bbram ∧ W.evr ∧ W.dev ∧ W.pins ∧ W.tmp ∧ W.leg ∧ W.out) :
    hide W (leaveDomain b) = hide W b := by
  unfold leaveDomain; simp [hide_ite, *]

@[simp] theorem hide_adopt (W : Touch) (d : Bytes) (root : Bytes) (prev : Option Bytes) (b : Block) (hW : W.link ∧ W.q ∧ W.work ∧ W.vlt ∧ W.ste ∧ W.sce ∧ W.dge ∧ W.rng ∧ W.key ∧ W.bbram ∧ W.evr ∧ W.dev ∧ W.pins ∧ W.leg ∧ W.out) :
    hide W (adopt d root prev b) = hide W b := by
  unfold adopt; simp [hide_ite, *]

@[simp] theorem hide_retirePrev (W : Touch) (b : Block) (hW : W.link ∧ W.q ∧ W.work ∧ W.vlt ∧ W.ste ∧ W.sce ∧ W.dge ∧ W.rng ∧ W.key ∧ W.bbram ∧ W.evr ∧ W.dev ∧ W.pins ∧ W.leg ∧ W.out) :
    hide W (retirePrev b) = hide W b := by
  unfold retirePrev; simp [hide_ite, *]

@[simp] theorem hide_domainCreate (W : Touch) (h : HsmJob) (s : Option EqxSession) (x0 : Block) (hW : W.link ∧ W.q ∧ W.work ∧ W.vlt ∧ W.ste ∧ W.sce ∧ W.dge ∧ W.rng ∧ W.key ∧ W.bbram ∧ W.evr ∧ W.dev ∧ W.pins ∧ W.kpr ∧ W.tmp ∧ W.leg ∧ W.mon ∧ W.out) :
    hide W (domainCreate h s x0) = hide W x0 := by
  unfold domainCreate; simp (maxDischargeDepth := 6) [hide_ite, *]

@[simp] theorem hide_domainRotate (W : Touch) (h : HsmJob) (x0 : Block) (hW : W.link ∧ W.q ∧ W.work ∧ W.vlt ∧ W.ste ∧ W.sce ∧ W.dge ∧ W.rng ∧ W.key ∧ W.bbram ∧ W.evr ∧ W.dev ∧ W.pins ∧ W.kpr ∧ W.leg ∧ W.mon ∧ W.out) :
    hide W (domainRotate h x0) = hide W x0 := by
  unfold domainRotate
  apply hide_domainGate
  · simp [hW]
  · intro c
    (try dsimp only)
    repeat' first
      | (simp (maxDischargeDepth := 6) [hide_ite, *]; done)
      | (simp [hide, *]; done)
      | split

@[simp] theorem hide_domainRetire (W : Touch) (h : HsmJob) (x0 : Block) (hW : W.link ∧ W.q ∧ W.work ∧ W.vlt ∧ W.ste ∧ W.sce ∧ W.dge ∧ W.rng ∧ W.key ∧ W.bbram ∧ W.evr ∧ W.dev ∧ W.pins ∧ W.kpr ∧ W.leg ∧ W.mon ∧ W.out) :
    hide W (domainRetire h x0) = hide W x0 := by
  unfold domainRetire; simp (maxDischargeDepth := 6) [hide_ite, *]

@[simp] theorem hide_domainRevoke (W : Touch) (h : HsmJob) (x0 : Block) (hW : W.link ∧ W.q ∧ W.work ∧ W.vlt ∧ W.sce ∧ W.key ∧ W.bbram ∧ W.evr ∧ W.dev ∧ W.pins ∧ W.kpr ∧ W.mon ∧ W.out) :
    hide W (domainRevoke h x0) = hide W x0 := by
  unfold domainRevoke; simp (maxDischargeDepth := 6) [hide_ite, *]

@[simp] theorem hide_domainLeave (W : Touch) (h : HsmJob) (x0 : Block) (hW : W.link ∧ W.q ∧ W.work ∧ W.vlt ∧ W.ste ∧ W.sce ∧ W.dge ∧ W.rng ∧ W.key ∧ W.bbram ∧ W.evr ∧ W.dev ∧ W.pins ∧ W.kpr ∧ W.tmp ∧ W.leg ∧ W.mon ∧ W.out) :
    hide W (domainLeave h x0) = hide W x0 := by
  unfold domainLeave; simp (maxDischargeDepth := 6) [hide_ite, *]

@[simp] theorem hide_offerExpiry (W : Touch) (b : Block) (hW : W.kpr) :
    hide W (offerExpiry b) = hide W b := by
  unfold offerExpiry; simp [hide_ite, *]

@[simp] theorem hide_domainOffer (W : Touch) (h : HsmJob) (x0 : Block) (hW : W.link ∧ W.q ∧ W.work ∧ W.vlt ∧ W.sce ∧ W.pke ∧ W.rng ∧ W.key ∧ W.bbram ∧ W.evr ∧ W.dev ∧ W.pins ∧ W.kpr ∧ W.mon ∧ W.out) :
    hide W (domainOffer h x0) = hide W x0 := by
  unfold domainOffer
  apply hide_domainGate
  · simp [hW]
  · intro c
    (try dsimp only)
    repeat' first
      | (simp (maxDischargeDepth := 6) [hide_ite, *]; done)
      | (simp [hide, *]; done)
      | split

@[simp] theorem hide_buildPackage (W : Touch) (kind : Nat) (index : Nat) (offer : Bytes) (ek : Bytes) (qj : Bytes) (confirm : Option Bytes) (b : Block) (hW : W.link ∧ W.pke ∧ W.rng ∧ W.key ∧ W.bbram ∧ W.evr ∧ W.dev ∧ W.pins ∧ W.rcd ∧ W.out) :
    hide W (buildPackage kind index offer ek qj confirm b).2 = hide W b := by
  unfold buildPackage; simp [hide_ite, *]

@[simp] theorem hide_givePackage (W : Touch) (h : HsmJob) (cap : Nat) (r : Bytes × Block) (hW : W.link ∧ W.q ∧ W.work ∧ W.vlt ∧ W.sce ∧ W.key ∧ W.bbram ∧ W.evr ∧ W.dev ∧ W.pins ∧ W.kpr ∧ W.mon ∧ W.out) :
    hide W (givePackage h cap r) = hide W r.2 := by
  unfold givePackage; simp [hide_ite, *]

@[simp] theorem hide_domainSponsor (W : Touch) (h : HsmJob) (x0 : Block) (hW : W.link ∧ W.q ∧ W.work ∧ W.vlt ∧ W.sce ∧ W.pke ∧ W.rng ∧ W.key ∧ W.bbram ∧ W.evr ∧ W.dev ∧ W.pins ∧ W.kpr ∧ W.rcd ∧ W.mon ∧ W.out) :
    hide W (domainSponsor h x0) = hide W x0 := by
  unfold domainSponsor
  apply hide_domainGate
  · simp [hW]
  · intro c
    (try dsimp only)
    repeat' first
      | (simp (maxDischargeDepth := 6) [hide_ite, *]; done)
      | (simp [hide, *]; done)
      | split

@[simp] theorem hide_domainSend (W : Touch) (h : HsmJob) (x0 : Block) (hW : W.link ∧ W.q ∧ W.work ∧ W.vlt ∧ W.sce ∧ W.pke ∧ W.rng ∧ W.key ∧ W.bbram ∧ W.evr ∧ W.dev ∧ W.pins ∧ W.kpr ∧ W.rcd ∧ W.mon ∧ W.out) :
    hide W (domainSend h x0) = hide W x0 := by
  unfold domainSend
  apply hide_domainGate
  · simp [hW]
  · intro c
    (try dsimp only)
    repeat' first
      | (simp (maxDischargeDepth := 6) [hide_ite, *]; done)
      | (simp [hide, *]; done)
      | split

@[simp] theorem hide_mergeBitmap (W : Touch) (content : Bytes) (b : Block) (hW : W.link ∧ W.q ∧ W.work ∧ W.vlt ∧ W.ste ∧ W.sce ∧ W.dge ∧ W.rng ∧ W.key ∧ W.bbram ∧ W.evr ∧ W.dev ∧ W.pins ∧ W.tmp ∧ W.leg ∧ W.out) :
    hide W (mergeBitmap content b) = hide W b := by
  unfold mergeBitmap; simp [hide_ite, *]

@[simp] theorem hide_adoptContent (W : Touch) (c : Bytes) (id : Bytes) (index : Nat) (b : Block) (hW : W.link ∧ W.q ∧ W.work ∧ W.vlt ∧ W.ste ∧ W.sce ∧ W.dge ∧ W.rng ∧ W.key ∧ W.bbram ∧ W.evr ∧ W.dev ∧ W.pins ∧ W.leg ∧ W.out) :
    hide W (adoptContent c id index b) = hide W b := by
  unfold adoptContent; simp [hide_ite, *]

@[simp] theorem hide_withPackage (W : Touch) (h : HsmJob) (kind : Nat) (pre : Block → Bool) (f : Cbor → DomainOffer → Bytes → Block → Block) (x0 : Block) (hW : W.link ∧ W.q ∧ W.work ∧ W.vlt ∧ W.sce ∧ W.key ∧ W.bbram ∧ W.evr ∧ W.dev ∧ W.pins ∧ W.kpr ∧ W.mon ∧ W.out) (hf0 : ∀ y0 y1 y2 y3, hide W (f y0 y1 y2 y3) = hide W y3) :
    hide W (withPackage h kind pre f x0) = hide W x0 := by
  unfold withPackage
  apply hide_domainGate
  · simp [hW]
  · intro c
    (try dsimp only)
    repeat' first
      | (simp (maxDischargeDepth := 6) [hide_ite, *]; done)
      | (simp [hide, *]; done)
      | split

@[simp] theorem hide_offerRun (W : Touch) (code : Nat) (id : Nat) (before : Block) (after : Block) (hW : W.kpr) :
    hide W (offerRun code id before after) = hide W after := by
  unfold offerRun
  try dsimp only
  repeat' first | (simp [hide_ite, *]; done) | split

@[simp] theorem hide_domainJoin (W : Touch) (h : HsmJob) (s : Option EqxSession) (x0 : Block) (hW : W.link ∧ W.q ∧ W.work ∧ W.vlt ∧ W.ste ∧ W.sce ∧ W.dge ∧ W.rng ∧ W.key ∧ W.bbram ∧ W.evr ∧ W.dev ∧ W.pins ∧ W.kpr ∧ W.tmp ∧ W.leg ∧ W.mon ∧ W.out) :
    hide W (domainJoin h s x0) = hide W x0 := by
  unfold domainJoin; simp (maxDischargeDepth := 6) [hide_ite, *]

@[simp] theorem hide_domainReceive (W : Touch) (h : HsmJob) (x0 : Block) (hW : W.link ∧ W.q ∧ W.work ∧ W.vlt ∧ W.ste ∧ W.sce ∧ W.dge ∧ W.rng ∧ W.key ∧ W.bbram ∧ W.evr ∧ W.dev ∧ W.pins ∧ W.kpr ∧ W.tmp ∧ W.leg ∧ W.mon ∧ W.out) :
    hide W (domainReceive h x0) = hide W x0 := by
  unfold domainReceive; simp (maxDischargeDepth := 6) [hide_ite, *]

@[simp] theorem hide_domainRun (W : Touch) (code : Nat) (rnd : Randomness) (f : HsmJob → Option EqxSession → Block → Block) (id : Nat) (x0 : Block) (hW : W.link ∧ W.q ∧ W.work ∧ W.vlt ∧ W.ste ∧ W.sce ∧ W.dge ∧ W.rng ∧ W.key ∧ W.bbram ∧ W.evr ∧ W.dev ∧ W.pins ∧ W.kpr ∧ W.mon ∧ W.out) (hf0 : ∀ y0 y1 y2, hide W (f y0 y1 y2) = hide W y2) :
    hide W (domainRun code rnd f id x0) = hide W x0 := by
  unfold domainRun; simp [hide_ite, *]

@[simp] theorem hide_plainRun (W : Touch) (code : Nat) (rnd : Randomness) (f : HsmJob → Block → Block) (id : Nat) (x0 : Block) (hW : W.link ∧ W.q ∧ W.work ∧ W.vlt ∧ W.ste ∧ W.sce ∧ W.dge ∧ W.rng ∧ W.key ∧ W.bbram ∧ W.evr ∧ W.dev ∧ W.pins ∧ W.kpr ∧ W.mon ∧ W.out) (hf0 : ∀ y0 y1, hide W (f y0 y1) = hide W y1) :
    hide W (plainRun code rnd f id x0) = hide W x0 := by
  unfold plainRun; simp [hide_ite, *]

@[simp] theorem hide_otpProgram (W : Touch) (w : Nat) (v : Nat) (b : Block) (hW : W.otp ∧ W.cells) :
    hide W (otpProgram w v b) = hide W b := by
  unfold otpProgram; simp [hide_ite, *]

@[simp] theorem hide_programLcs (W : Touch) (v : Nat) (b : Block) (hW : W.otp ∧ W.cells) :
    hide W (programLcs v b) = hide W b := by
  unfold programLcs; simp [hide_ite, *]

@[simp] theorem hide_arbAdvance (W : Touch) (c : Nat) (s : Nat) (b : Block) (hW : W.otp ∧ W.cells) :
    hide W (arbAdvance c s b) = hide W b := by
  unfold arbAdvance; simp [hide_ite, *]

@[simp] theorem hide_dropNonce (W : Touch) (b : Block) (hW : W.otp) :
    hide W (dropNonce b) = hide W b := by
  unfold dropNonce; simp [hide_ite, *]

@[simp] theorem hide_tokenThen (W : Touch) (h : HsmJob) (t : Bytes) (kind : Nat) (src : Nat) (dst : Nat) (f : Block → Block) (b : Block) (hW : W.link ∧ W.q ∧ W.work ∧ W.vlt ∧ W.sce ∧ W.key ∧ W.bbram ∧ W.evr ∧ W.dev ∧ W.pins ∧ W.kpr ∧ W.otp ∧ W.mon ∧ W.out) (hf0 : ∀ y0, hide W (f y0) = hide W y0) :
    hide W (tokenThen h t kind src dst f b) = hide W b := by
  unfold tokenThen
  try dsimp only
  repeat' first | (simp [hide_ite, *]; done) | split

@[simp] theorem hide_lcsGetNonce (W : Touch) (h : HsmJob) (b : Block) (hW : W.link ∧ W.q ∧ W.work ∧ W.vlt ∧ W.sce ∧ W.rng ∧ W.key ∧ W.bbram ∧ W.evr ∧ W.dev ∧ W.pins ∧ W.kpr ∧ W.otp ∧ W.mon ∧ W.out) :
    hide W (lcsGetNonce h b) = hide W b := by
  unfold lcsGetNonce; simp [hide_ite, *]

@[simp] theorem hide_nonceExpiry (W : Touch) (b : Block) (hW : W.otp) :
    hide W (nonceExpiry b) = hide W b := by
  unfold nonceExpiry; simp [hide_ite, *]

@[simp] theorem hide_lcsAdvance (W : Touch) (h : HsmJob) (b : Block) (hW : W.link ∧ W.q ∧ W.work ∧ W.vlt ∧ W.sce ∧ W.key ∧ W.bbram ∧ W.evr ∧ W.dev ∧ W.pins ∧ W.kpr ∧ W.otp ∧ W.mon ∧ W.out) :
    hide W (lcsAdvance h b) = hide W b := by
  unfold lcsAdvance
  try dsimp only
  repeat' first | (simp [hide_ite, *]; done) | split

@[simp] theorem hide_advanceRun (W : Touch) (id : Nat) (x0 : Block) (hW : W.link ∧ W.q ∧ W.work ∧ W.vlt ∧ W.ste ∧ W.sce ∧ W.dge ∧ W.rng ∧ W.key ∧ W.bbram ∧ W.evr ∧ W.dev ∧ W.pins ∧ W.kpr ∧ W.otp ∧ W.mon ∧ W.out) :
    hide W (advanceRun id x0) = hide W x0 := by
  unfold advanceRun
  try dsimp only
  repeat' first | (simp [hide_ite, *]; done) | split

@[simp] theorem hide_programSecret (W : Touch) (b : Block) (hW : W.rng ∧ W.otp ∧ W.cells) :
    hide W (programSecret b) = hide W b := by
  unfold programSecret; simp [hide_ite, *]

@[simp] theorem hide_drainComplete (W : Touch) (took : Nat) (b : Block) (hW : W.link ∧ W.q ∧ W.work ∧ W.vlt ∧ W.ste ∧ W.sce ∧ W.dge ∧ W.rng ∧ W.key ∧ W.bbram ∧ W.evr ∧ W.dev ∧ W.pins ∧ W.kpr ∧ W.otp ∧ W.mon ∧ W.out ∧ W.cells) :
    hide W (drainComplete took b) = hide W b := by
  unfold drainComplete
  try dsimp only
  repeat' first | (simp [hide_ite, *]; done) | split

@[simp] theorem hide_transitionReset (W : Touch) (b : Block) (hW : W.run ∧ W.link ∧ W.q ∧ W.work ∧ W.vlt ∧ W.ste ∧ W.sce ∧ W.dge ∧ W.pke ∧ W.rng ∧ W.key ∧ W.bbram ∧ W.evr ∧ W.dev ∧ W.pins ∧ W.pwr ∧ W.kpr ∧ W.tmp ∧ W.otp ∧ W.boot ∧ W.flt ∧ W.rcd ∧ W.wdg ∧ W.leg ∧ W.mon ∧ W.sb ∧ W.out) :
    hide W (transitionReset b) = hide W b := by
  unfold transitionReset; simp [hide_ite, *]

@[simp] theorem hide_fused (W : Touch) (h : HsmJob) (why : Nat) (f : Block → Block) (b : Block) (hW : W.link ∧ W.q ∧ W.work ∧ W.vlt ∧ W.sce ∧ W.key ∧ W.bbram ∧ W.evr ∧ W.dev ∧ W.pins ∧ W.kpr ∧ W.mon ∧ W.out) (hf0 : ∀ y0, hide W (f y0) = hide W y0) :
    hide W (fused h why f b) = hide W b := by
  unfold fused; simp [hide_ite, *]

@[simp] theorem hide_tokenRevoke (W : Touch) (h : HsmJob) (b : Block) (hW : W.link ∧ W.q ∧ W.work ∧ W.vlt ∧ W.sce ∧ W.key ∧ W.bbram ∧ W.evr ∧ W.dev ∧ W.pins ∧ W.kpr ∧ W.otp ∧ W.mon ∧ W.out ∧ W.cells) :
    hide W (tokenRevoke h b) = hide W b := by
  unfold tokenRevoke
  try dsimp only
  repeat' first | (simp (maxDischargeDepth := 6) [hide_ite, *]; done) | (simp [hide, *]; done) | split

@[simp] theorem hide_otpProgramCmd (W : Touch) (h : HsmJob) (b : Block) (hW : W.link ∧ W.q ∧ W.work ∧ W.vlt ∧ W.sce ∧ W.key ∧ W.bbram ∧ W.evr ∧ W.dev ∧ W.pins ∧ W.kpr ∧ W.otp ∧ W.mon ∧ W.out ∧ W.cells) :
    hide W (otpProgramCmd h b) = hide W b := by
  unfold otpProgramCmd
  try dsimp only
  repeat' first | (simp (maxDischargeDepth := 6) [hide_ite, *]; done) | (simp [hide, *]; done) | split

@[simp] theorem hide_rootRevoke (W : Touch) (h : HsmJob) (b : Block) (hW : W.link ∧ W.q ∧ W.work ∧ W.vlt ∧ W.sce ∧ W.key ∧ W.bbram ∧ W.evr ∧ W.dev ∧ W.pins ∧ W.kpr ∧ W.otp ∧ W.mon ∧ W.out ∧ W.cells) :
    hide W (rootRevoke h b) = hide W b := by
  unfold rootRevoke; simp [hide_ite, *]

@[simp] theorem hide_lcsNonceRun (W : Touch) (id : Nat) (x0 : Block) (hW : W.link ∧ W.q ∧ W.work ∧ W.vlt ∧ W.ste ∧ W.sce ∧ W.dge ∧ W.rng ∧ W.key ∧ W.bbram ∧ W.evr ∧ W.dev ∧ W.pins ∧ W.kpr ∧ W.otp ∧ W.mon ∧ W.out) :
    hide W (lcsNonceRun id x0) = hide W x0 := by
  unfold lcsNonceRun; simp [hide_ite, *]

@[simp] theorem hide_owner0Run (W : Touch) (code : Nat) (why : Nat) (f : HsmJob → Block → Block) (id : Nat) (x0 : Block) (hW : W.link ∧ W.q ∧ W.work ∧ W.vlt ∧ W.ste ∧ W.sce ∧ W.dge ∧ W.rng ∧ W.key ∧ W.bbram ∧ W.evr ∧ W.dev ∧ W.pins ∧ W.kpr ∧ W.mon ∧ W.out) (hf0 : ∀ y0 y1, hide W (f y0 y1) = hide W y1) :
    hide W (owner0Run code why f id x0) = hide W x0 := by
  unfold owner0Run; simp [hide_ite, *]

@[simp] theorem hide_onPort (W : Touch) (p : Nat) (f : FlashPort → FlashPort) (b : Block) (hW : W.flt) :
    hide W (onPort p f b) = hide W b := by
  unfold onPort; simp [hide_ite, *]

@[simp] theorem hide_flashPins (W : Touch) (p : Nat) (kind : Nat) (addr : Nat) (data : Bytes) (b : Block) (hW : W.out) :
    hide W (flashPins p kind addr data b) = hide W b := by
  unfold flashPins; simp [hide_ite, *]

@[simp] theorem hide_flashRefuse (W : Touch) (req : FlashReq) (port : Nat) (addr : Nat) (append : Bool) (b : Block) (hW : W.link ∧ W.key ∧ W.bbram ∧ W.evr ∧ W.dev ∧ W.pins ∧ W.flt ∧ W.out) :
    hide W (flashRefuse req port addr append b) = hide W b := by
  unfold flashRefuse; simp [hide_ite, *]

@[simp] theorem hide_flashRefuseNowhere (W : Touch) (req : FlashReq) (b : Block) (hW : W.link ∧ W.key ∧ W.bbram ∧ W.evr ∧ W.dev ∧ W.pins ∧ W.flt ∧ W.out) :
    hide W (flashRefuseNowhere req b) = hide W b := by
  unfold flashRefuseNowhere; simp [hide_ite, *]

@[simp] theorem hide_flashRefuseAt (W : Touch) (req : FlashReq) (place : Option (Nat × Nat)) (append : Bool) (b : Block) (hW : W.link ∧ W.key ∧ W.bbram ∧ W.evr ∧ W.dev ∧ W.pins ∧ W.flt ∧ W.out) :
    hide W (flashRefuseAt req place append b) = hide W b := by
  unfold flashRefuseAt
  try dsimp only
  repeat' first | (simp [hide_ite, *]; done) | split

@[simp] theorem hide_touchLine (W : Touch) (port : Nat) (block : Nat) (b : Block) (hW : W.flt) :
    hide W (touchLine port block b) = hide W b := by
  unfold touchLine; simp [hide_ite, *]

@[simp] theorem hide_addLine (W : Touch) (port : Nat) (block : Nat) (data : Bytes) (b : Block) (hW : W.flt) :
    hide W (addLine port block data b) = hide W b := by
  unfold addLine; simp [hide_ite, *]

@[simp] theorem hide_markSuspect (W : Touch) (port : Nat) (block : Nat) (index : Nat) (b : Block) (hW : W.link ∧ W.key ∧ W.bbram ∧ W.evr ∧ W.dev ∧ W.pins ∧ W.flt ∧ W.out) :
    hide W (markSuspect port block index b) = hide W b := by
  unfold markSuspect; simp [hide_ite, *]

@[simp] theorem hide_runOp (W : Touch) (p : Nat) (o : FlashOp) (b : Block) (hW : W.flt ∧ W.out) :
    hide W (runOp p o b) = hide W b := by
  unfold runOp; simp [hide_ite, *]

@[simp] theorem hide_portNext (W : Touch) (p : Nat) (b : Block) (hW : W.flt ∧ W.out) :
    hide W (portNext p b) = hide W b := by
  unfold portNext
  try dsimp only
  repeat' first | (simp [hide_ite, *]; done) | split

@[simp] theorem hide_askOp (W : Touch) (p : Nat) (kind : FlashKind) (addr : Nat) (len : Nat) (data : Bytes) (rank : Nat) (ws : List FlashWaiter) (b : Block) (hW : W.flt ∧ W.out) :
    hide W (askOp p kind addr len data rank ws b) = hide W b := by
  unfold askOp; simp [hide_ite, *]

@[simp] theorem hide_askFill (W : Touch) (p : Nat) (block : Nat) (rank : Nat) (ws : List FlashWaiter) (b : Block) (hW : W.flt ∧ W.out) :
    hide W (askFill p block rank ws b) = hide W b := by
  unfold askFill; simp [hide_ite, *]

@[simp] theorem hide_readAhead (W : Touch) (p : Nat) (block : Nat) (r : FlashRule) (b : Block) (hW : W.flt ∧ W.out) :
    hide W (readAhead p block r b) = hide W b := by
  unfold readAhead; simp [hide_ite, *]

@[simp] theorem hide_aroundRead (W : Touch) (p : Nat) (kind : Nat) (b : Block) (hW : W.out) :
    hide W (aroundRead p kind b) = hide W b := by
  unfold aroundRead
  try dsimp only
  repeat' first | (simp [hide_ite, *]; done) | split

@[simp] theorem hide_whileRead (W : Touch) (p : Nat) (f : Block → Block) (b : Block) (hW : W.out) (hf0 : ∀ y0, hide W (f y0) = hide W y0) :
    hide W (whileRead p f b) = hide W b := by
  unfold whileRead; simp [hide_ite, *]

@[simp] theorem hide_windowAbort (W : Touch) (b : Block) (hW : W.link ∧ W.out) :
    hide W (windowAbort b) = hide W b := by
  unfold windowAbort; simp [hide_ite, *]

@[simp] theorem hide_mbxEnd (W : Touch) (result : Nat) (buffer : List (Nat × Byte)) (b : Block) (hW : W.link ∧ W.dev ∧ W.flt ∧ W.out) :
    hide W (mbxEnd result buffer b) = hide W b := by
  unfold mbxEnd; simp [hide_ite, *]

@[simp] theorem hide_spitAlert (W : Touch) (cause : Nat) (b : Block) (hW : W.pins) :
    hide W (spitAlert cause b) = hide W b := by
  unfold spitAlert
  try dsimp only
  repeat' first | (simp [hide_ite, *]; done) | split

@[simp] theorem hide_spitOnes (W : Touch) (n : Nat) (b : Block) (hW : W.out) :
    hide W (spitOnes n b) = hide W b := by
  unfold spitOnes; simp [hide_ite, *]

@[simp] theorem hide_poisonWaiter (W : Touch) (b : Block) (w : FlashWaiter) (hW : W.link ∧ W.dev ∧ W.pins ∧ W.flt ∧ W.out) :
    hide W (poisonWaiter b w) = hide W b := by
  unfold poisonWaiter
  try dsimp only
  repeat' first | (simp [hide_ite, *]; done) | split

@[simp] theorem hide_spitRefused (W : Touch) (n : Nat) (place : Option (Nat × Nat)) (append : Bool) (b : Block) (hW : W.link ∧ W.key ∧ W.bbram ∧ W.evr ∧ W.dev ∧ W.pins ∧ W.flt ∧ W.out) :
    hide W (spitRefused n place append b) = hide W b := by
  unfold spitRefused
  try dsimp only
  repeat' first | (simp [hide_ite, *]; done) | split

@[simp] theorem hide_spitMiss (W : Touch) (octal : Bool) (a : Nat) (n : Nat) (fill : List FlashWaiter → Block → Block) (b : Block) (hW : W.pins ∧ W.out) (hf0 : ∀ y0 y1, hide W (fill y0 y1) = hide W y1) :
    hide W (spitMiss octal a n fill b) = hide W b := by
  unfold spitMiss; simp [hide_ite, *]

@[simp] theorem hide_spitGo (W : Touch) (x0 : Nat) (x1 : Bool) (x2 : Nat) (x3 : Nat) (x4 : Block) (hW : W.link ∧ W.key ∧ W.bbram ∧ W.evr ∧ W.dev ∧ W.pins ∧ W.flt ∧ W.out) :
    hide W (spitGo x0 x1 x2 x3 x4) = hide W x4 := by
  induction x0 generalizing x2 x3 x4 with
  | zero => rfl
  | succ n ih =>
    rw [spitGo]
    repeat' first
      | rfl
      | (simp [hW, ih]; done)
      | (simp [hW]; done)
      | (dsimp only)
      | split

@[simp] theorem hide_spitRead (W : Touch) (octal : Bool) (a : Nat) (n : Nat) (b : Block) (hW : W.link ∧ W.key ∧ W.bbram ∧ W.evr ∧ W.dev ∧ W.pins ∧ W.flt ∧ W.out) :
    hide W (spitRead octal a n b) = hide W b := by
  unfold spitRead; simp [hide_ite, *]

@[simp] theorem hide_serveWaiter (W : Touch) (start : Nat) (data : Bytes) (b : Block) (w : FlashWaiter) (hW : W.link ∧ W.key ∧ W.bbram ∧ W.evr ∧ W.dev ∧ W.pins ∧ W.flt ∧ W.out) :
    hide W (serveWaiter start data b w) = hide W b := by
  unfold serveWaiter
  try dsimp only
  repeat' first | (simp [hide_ite, *]; done) | split

@[simp] theorem hide_fillDone (W : Touch) (p : Nat) (o : FlashOp) (data : Bytes) (ok : Bool) (b : Block) (hW : W.link ∧ W.key ∧ W.bbram ∧ W.evr ∧ W.dev ∧ W.pins ∧ W.flt ∧ W.out) :
    hide W (fillDone p o data ok b) = hide W b := by
  unfold fillDone
  try dsimp only
  repeat' first | (simp [hide_ite, *]; done) | split

@[simp] theorem hide_mbxPartDone (W : Touch) (p : Nat) (ok : Bool) (b : Block) (hW : W.link ∧ W.dev ∧ W.flt ∧ W.out) :
    hide W (mbxPartDone p ok b) = hide W b := by
  unfold mbxPartDone; simp [hide_ite, *]

@[simp] theorem hide_flashOpComplete (W : Touch) (p : Nat) (data : Bytes) (ok : Bool) (b : Block) (hW : W.link ∧ W.key ∧ W.bbram ∧ W.evr ∧ W.dev ∧ W.pins ∧ W.flt ∧ W.out) :
    hide W (flashOpComplete p data ok b) = hide W b := by
  unfold flashOpComplete
  try dsimp only
  repeat' first | (simp [hide_ite, *]; done) | split

@[simp] theorem hide_windowRead (W : Touch) (off : Nat) (n : Nat) (b : Block) (hW : W.link ∧ W.key ∧ W.bbram ∧ W.evr ∧ W.dev ∧ W.pins ∧ W.flt ∧ W.out) :
    hide W (windowRead off n b) = hide W b := by
  unfold windowRead
  try dsimp only
  repeat' first | (simp [hide_ite, *]; done) | split

@[simp] theorem hide_windowWrite (W : Touch) (off : Nat) (b : Block) (hW : W.link ∧ W.key ∧ W.bbram ∧ W.evr ∧ W.dev ∧ W.pins ∧ W.flt ∧ W.out) :
    hide W (windowWrite off b) = hide W b := by
  unfold windowWrite; simp [hide_ite, *]

@[simp] theorem hide_mbxJudged (W : Touch) (p : Nat) (op : Nat) (a : Nat) (n : Nat) (f : FlashRule → Block → Block) (b : Block) (hW : W.link ∧ W.key ∧ W.bbram ∧ W.evr ∧ W.dev ∧ W.pins ∧ W.flt ∧ W.out) (hf0 : ∀ y0 y1, hide W (f y0 y1) = hide W y1) :
    hide W (mbxJudged p op a n f b) = hide W b := by
  unfold mbxJudged
  try dsimp only
  repeat' first | (simp [hide_ite, *]; done) | split

@[simp] theorem hide_mbxStart (W : Touch) (b : Block) (hW : W.link ∧ W.key ∧ W.bbram ∧ W.evr ∧ W.dev ∧ W.pins ∧ W.flt ∧ W.out) :
    hide W (mbxStart b) = hide W b := by
  have go : ∀ (p op a n : Nat) (g : FlashRule → Block → Block) (c : Block), (∀ r d, hide W (g r d) = hide W d) →
      hide W (mbxJudged p op a n g c) = hide W c := by
    intro p op a n g c hg
    exact hide_mbxJudged W _ _ _ _ _ _ (by simp [hW]) hg
  unfold mbxStart
  dsimp only
  repeat' first
    | (simp [hW]; done)
    | (refine go _ _ _ _ _ _ ?_; intro r d; (try dsimp only))
    | (rw [hide_foldl W _ (by intro c x; simp [hW])]; done)
    | split

@[simp] theorem hide_mbxCtrl (W : Touch) (v : Word) (x0 : Block) (hW : W.link ∧ W.key ∧ W.bbram ∧ W.evr ∧ W.dev ∧ W.pins ∧ W.flt ∧ W.out) :
    hide W (mbxCtrl v x0) = hide W x0 := by
  unfold mbxCtrl; simp [hide_ite, *]

@[simp] theorem hide_mbxCommand (W : Touch) (cmd : Nat) (v : Word) (b : Block) (hW : W.link ∧ W.key ∧ W.bbram ∧ W.evr ∧ W.dev ∧ W.pins ∧ W.flt ∧ W.out) :
    hide W (mbxCommand cmd v b) = hide W b := by
  unfold mbxCommand; simp [hide_ite, *]

@[simp] theorem hide_spitBadOpcode (W : Touch) (b : Block) (hW : W.link ∧ W.key ∧ W.bbram ∧ W.evr ∧ W.dev ∧ W.pins ∧ W.flt ∧ W.out) :
    hide W (spitBadOpcode b) = hide W b := by
  unfold spitBadOpcode; simp [hide_ite, *]

@[simp] theorem hide_spitCommand (W : Touch) (kinds : List Nat) (op : Byte) (f : Nat → Block → Block) (b : Block) (hW : W.link ∧ W.key ∧ W.bbram ∧ W.evr ∧ W.dev ∧ W.pins ∧ W.flt ∧ W.out) (hf0 : ∀ y0 y1, hide W (f y0 y1) = hide W y1) :
    hide W (spitCommand kinds op f b) = hide W b := by
  unfold spitCommand
  try dsimp only
  repeat' first | (simp [hide_ite, *]; done) | split

@[simp] theorem hide_spitWriteRefused (W : Touch) (erase : Bool) (place : Option (Nat × Nat)) (append : Bool) (b : Block) (hW : W.link ∧ W.key ∧ W.bbram ∧ W.evr ∧ W.dev ∧ W.pins ∧ W.flt ∧ W.out) :
    hide W (spitWriteRefused erase place append b) = hide W b := by
  unfold spitWriteRefused; simp [hide_ite, *]

@[simp] theorem hide_spitWrite (W : Touch) (erase : Bool) (kind : FlashKind) (a : Nat) (n : Nat) (data : Bytes) (b : Block) (hW : W.link ∧ W.key ∧ W.bbram ∧ W.evr ∧ W.dev ∧ W.pins ∧ W.flt ∧ W.out) :
    hide W (spitWrite erase kind a n data b) = hide W b := by
  unfold spitWrite
  try dsimp only
  repeat' first | (simp [hide_ite, *]; done) | split

@[simp] theorem hide_spitStatus (W : Touch) (op : Byte) (b : Block) (hW : W.pins ∧ W.out) :
    hide W (spitStatus op b) = hide W b := by
  unfold spitStatus; simp [hide_ite, *]

@[simp] theorem hide_spitErase (W : Touch) (k : Nat) (a : Nat) (x0 : Block) (hW : W.link ∧ W.key ∧ W.bbram ∧ W.evr ∧ W.dev ∧ W.pins ∧ W.flt ∧ W.out) :
    hide W (spitErase k a x0) = hide W x0 := by
  unfold spitErase
  try dsimp only
  repeat' first | (simp [hide_ite, *]; done) | split

@[simp] theorem hide_spitReset (W : Touch) (k : Nat) (b : Block) (hW : W.flt) :
    hide W (spitReset k b) = hide W b := by
  unfold spitReset; simp [hide_ite, *]

@[simp] theorem hide_onWdgAt (W : Touch) (isP : Bool) (f : WdgInst → WdgInst) (b : Block) (hW : W.wdg) :
    hide W (onWdgAt isP f b) = hide W b := by
  unfold onWdgAt; simp [hide_ite, *]

@[simp] theorem hide_wdgBegin (W : Touch) (isP : Bool) (b : Block) (hW : W.wdg) :
    hide W (wdgBegin isP b) = hide W b := by
  unfold wdgBegin; simp [hide_ite, *]

@[simp] theorem hide_wdgArm (W : Touch) (isP : Bool) (v : Nat) (b : Block) (hW : W.wdg) :
    hide W (wdgArm isP v b) = hide W b := by
  unfold wdgArm; simp [hide_ite, *]

@[simp] theorem hide_sendBack (W : Touch) (p : HsmJob → Bool) (b : Block) (hW : W.link ∧ W.q ∧ W.work ∧ W.vlt ∧ W.sce ∧ W.pke ∧ W.key ∧ W.bbram ∧ W.evr ∧ W.dev ∧ W.pins ∧ W.kpr ∧ W.mon ∧ W.out) :
    hide W (sendBack p b) = hide W b := by
  unfold sendBack; simp [hide_ite, *]

@[simp] theorem hide_keeperMemories (W : Touch) (b : Block) (hW : W.key ∧ W.kpr ∧ W.flt ∧ W.rcd) :
    hide W (keeperMemories b) = hide W b := by
  unfold keeperMemories; simp [hide_ite, *]

@[simp] theorem hide_keeperRestart (W : Touch) (b : Block) (hW : W.run ∧ W.link ∧ W.q ∧ W.work ∧ W.vlt ∧ W.ste ∧ W.sce ∧ W.dge ∧ W.pke ∧ W.rng ∧ W.key ∧ W.bbram ∧ W.evr ∧ W.dev ∧ W.pins ∧ W.pwr ∧ W.kept ∧ W.kpr ∧ W.tmp ∧ W.otp ∧ W.boot ∧ W.flt ∧ W.rcd ∧ W.wdg ∧ W.leg ∧ W.mon ∧ W.sb ∧ W.out) :
    hide W (keeperRestart b) = hide W b := by
  unfold keeperRestart; simp [hide_ite, *]

@[simp] theorem hide_activationDies (W : Touch) (b : Block) (a : Activation) (hW : W.link ∧ W.q ∧ W.work ∧ W.vlt ∧ W.sce ∧ W.key ∧ W.bbram ∧ W.evr ∧ W.dev ∧ W.pins ∧ W.kpr ∧ W.mon ∧ W.out) :
    hide W (activationDies b a) = hide W b := by
  unfold activationDies
  try dsimp only
  repeat' first | (simp [hide_ite, *]; done) | split

@[simp] theorem hide_flashWinter (W : Touch) (b : Block) (hW : W.link ∧ W.q ∧ W.work ∧ W.vlt ∧ W.sce ∧ W.key ∧ W.bbram ∧ W.evr ∧ W.dev ∧ W.pins ∧ W.kpr ∧ W.flt ∧ W.mon ∧ W.out) :
    hide W (flashWinter b) = hide W b := by
  unfold flashWinter; simp [hide_ite, *]

@[simp] theorem hide_fabricOff (W : Touch) (b : Block) (hW : W.link ∧ W.ste ∧ W.sce ∧ W.pwr ∧ W.mon ∧ W.out) :
    hide W (fabricOff b) = hide W b := by
  unfold fabricOff; simp [hide_ite, *]

@[simp] theorem hide_winterEntry (W : Touch) (b : Block) (hW : W.run ∧ W.link ∧ W.q ∧ W.work ∧ W.vlt ∧ W.ste ∧ W.sce ∧ W.dge ∧ W.rng ∧ W.key ∧ W.bbram ∧ W.evr ∧ W.dev ∧ W.pins ∧ W.pwr ∧ W.kpr ∧ W.flt ∧ W.rcd ∧ W.wdg ∧ W.leg ∧ W.mon ∧ W.out) :
    hide W (winterEntry b) = hide W b := by
  unfold winterEntry; simp [hide_ite, *]

@[simp] theorem hide_wdgAct (W : Touch) (a : WdgAction) (b : Block) (hW : W.run ∧ W.link ∧ W.q ∧ W.work ∧ W.vlt ∧ W.ste ∧ W.sce ∧ W.dge ∧ W.pke ∧ W.rng ∧ W.key ∧ W.bbram ∧ W.evr ∧ W.dev ∧ W.pins ∧ W.pwr ∧ W.kept ∧ W.kpr ∧ W.tmp ∧ W.otp ∧ W.boot ∧ W.flt ∧ W.rcd ∧ W.wdg ∧ W.leg ∧ W.mon ∧ W.sb ∧ W.out) :
    hide W (wdgAct a b) = hide W b := by
  unfold wdgAct
  try dsimp only
  repeat' first | (simp [hide_ite, *]; done) | split

@[simp] theorem hide_wdgActs (W : Touch) (as : List WdgAction) (b : Block) (hW : W.run ∧ W.link ∧ W.q ∧ W.work ∧ W.vlt ∧ W.ste ∧ W.sce ∧ W.dge ∧ W.pke ∧ W.rng ∧ W.key ∧ W.bbram ∧ W.evr ∧ W.dev ∧ W.pins ∧ W.pwr ∧ W.kept ∧ W.kpr ∧ W.tmp ∧ W.otp ∧ W.boot ∧ W.flt ∧ W.rcd ∧ W.wdg ∧ W.leg ∧ W.mon ∧ W.sb ∧ W.out) :
    hide W (wdgActs as b) = hide W b := by
  unfold wdgActs; simp [hide_ite, *]

@[simp] theorem hide_bite (W : Touch) (c : WdgCause) (b : Block) (hW : W.link ∧ W.key ∧ W.bbram ∧ W.evr ∧ W.dev ∧ W.pins ∧ W.wdg ∧ W.out) :
    hide W (bite c b).2 = hide W b := by
  unfold bite
  try dsimp only
  repeat' first | (simp [hide_ite, *]; done) | split

@[simp] theorem hide_resolveBites (W : Touch) (b : Block) (hW : W.run ∧ W.link ∧ W.q ∧ W.work ∧ W.vlt ∧ W.ste ∧ W.sce ∧ W.dge ∧ W.pke ∧ W.rng ∧ W.key ∧ W.bbram ∧ W.evr ∧ W.dev ∧ W.pins ∧ W.pwr ∧ W.kept ∧ W.kpr ∧ W.tmp ∧ W.otp ∧ W.boot ∧ W.flt ∧ W.rcd ∧ W.wdg ∧ W.leg ∧ W.mon ∧ W.sb ∧ W.out) :
    hide W (resolveBites b) = hide W b := by
  unfold resolveBites
  try dsimp only
  repeat' first | (simp [hide_ite, *]; done) | split

@[simp] theorem hide_addCause (W : Touch) (isP : Bool) (kind : Nat) (slot : Nat) (value : Nat) (b : Block) (hW : W.wdg) :
    hide W (addCause isP kind slot value b) = hide W b := by
  unfold addCause; simp [hide_ite, *]

@[simp] theorem hide_momentEnds (W : Touch) (more : Bool) (b : Block) (hW : W.run ∧ W.link ∧ W.q ∧ W.work ∧ W.vlt ∧ W.ste ∧ W.sce ∧ W.dge ∧ W.pke ∧ W.rng ∧ W.key ∧ W.bbram ∧ W.evr ∧ W.dev ∧ W.pins ∧ W.pwr ∧ W.kept ∧ W.kpr ∧ W.tmp ∧ W.otp ∧ W.boot ∧ W.flt ∧ W.rcd ∧ W.wdg ∧ W.leg ∧ W.mon ∧ W.sb ∧ W.out) :
    hide W (momentEnds more b) = hide W b := by
  unfold momentEnds; simp [hide_ite, *]

@[simp] theorem hide_checkin (W : Touch) (isP : Bool) (value : Nat) (edge : WdgEdge) (more : Bool) (b : Block) (hW : W.run ∧ W.link ∧ W.q ∧ W.work ∧ W.vlt ∧ W.ste ∧ W.sce ∧ W.dge ∧ W.pke ∧ W.rng ∧ W.key ∧ W.bbram ∧ W.evr ∧ W.dev ∧ W.pins ∧ W.pwr ∧ W.kept ∧ W.kpr ∧ W.tmp ∧ W.otp ∧ W.boot ∧ W.flt ∧ W.rcd ∧ W.wdg ∧ W.leg ∧ W.mon ∧ W.sb ∧ W.out) :
    hide W (checkin isP value edge more b) = hide W b := by
  unfold checkin
  try dsimp only
  repeat' first | (simp [hide_ite, *]; done) | split

@[simp] theorem hide_hostCheckin (W : Touch) (v : Word) (edge : WdgEdge) (more : Bool) (b : Block) (hW : W.run ∧ W.link ∧ W.q ∧ W.work ∧ W.vlt ∧ W.ste ∧ W.sce ∧ W.dge ∧ W.pke ∧ W.rng ∧ W.key ∧ W.bbram ∧ W.evr ∧ W.dev ∧ W.pins ∧ W.pwr ∧ W.kept ∧ W.kpr ∧ W.tmp ∧ W.otp ∧ W.boot ∧ W.flt ∧ W.rcd ∧ W.wdg ∧ W.leg ∧ W.mon ∧ W.sb ∧ W.out) :
    hide W (hostCheckin v edge more b) = hide W b := by
  unfold hostCheckin; simp [hide_ite, *]

@[simp] theorem hide_hostCfgWrite (W : Touch) (v : Nat) (b : Block) (hW : W.wdg) :
    hide W (hostCfgWrite v b) = hide W b := by
  unfold hostCfgWrite; simp [hide_ite, *]

@[simp] theorem hide_anyCheckin (W : Touch) (isP : Bool) (value : Word) (edge : WdgEdge) (more : Bool) (b : Block) (hW : W.run ∧ W.link ∧ W.q ∧ W.work ∧ W.vlt ∧ W.ste ∧ W.sce ∧ W.dge ∧ W.pke ∧ W.rng ∧ W.key ∧ W.bbram ∧ W.evr ∧ W.dev ∧ W.pins ∧ W.pwr ∧ W.kept ∧ W.kpr ∧ W.tmp ∧ W.otp ∧ W.boot ∧ W.flt ∧ W.rcd ∧ W.wdg ∧ W.leg ∧ W.mon ∧ W.sb ∧ W.out) :
    hide W (anyCheckin isP value edge more b) = hide W b := by
  unfold anyCheckin; simp [hide_ite, *]

@[simp] theorem hide_periodEnd (W : Touch) (isP : Bool) (more : Bool) (b : Block) (hW : W.run ∧ W.link ∧ W.q ∧ W.work ∧ W.vlt ∧ W.ste ∧ W.sce ∧ W.dge ∧ W.pke ∧ W.rng ∧ W.key ∧ W.bbram ∧ W.evr ∧ W.dev ∧ W.pins ∧ W.pwr ∧ W.kept ∧ W.kpr ∧ W.tmp ∧ W.otp ∧ W.boot ∧ W.flt ∧ W.rcd ∧ W.wdg ∧ W.leg ∧ W.mon ∧ W.sb ∧ W.out) :
    hide W (periodEnd isP more b) = hide W b := by
  unfold periodEnd; simp [hide_ite, *]

@[simp] theorem hide_owedActs (W : Touch) (b : Block) (hW : W.run ∧ W.link ∧ W.q ∧ W.work ∧ W.vlt ∧ W.ste ∧ W.sce ∧ W.dge ∧ W.pke ∧ W.rng ∧ W.key ∧ W.bbram ∧ W.evr ∧ W.dev ∧ W.pins ∧ W.pwr ∧ W.kept ∧ W.kpr ∧ W.tmp ∧ W.otp ∧ W.boot ∧ W.flt ∧ W.rcd ∧ W.wdg ∧ W.leg ∧ W.mon ∧ W.sb ∧ W.out) :
    hide W (owedActs b) = hide W b := by
  unfold owedActs; simp [hide_ite, *]

@[simp] theorem hide_hostPulseEnd (W : Touch) (b : Block) (hW : W.run ∧ W.link ∧ W.q ∧ W.work ∧ W.vlt ∧ W.ste ∧ W.sce ∧ W.dge ∧ W.pke ∧ W.rng ∧ W.key ∧ W.bbram ∧ W.evr ∧ W.dev ∧ W.pins ∧ W.pwr ∧ W.kept ∧ W.kpr ∧ W.tmp ∧ W.otp ∧ W.boot ∧ W.flt ∧ W.rcd ∧ W.wdg ∧ W.leg ∧ W.mon ∧ W.sb ∧ W.out) :
    hide W (hostPulseEnd b) = hide W b := by
  unfold hostPulseEnd; simp [hide_ite, *]

@[simp] theorem hide_powerPulseEnd (W : Touch) (b : Block) (hW : W.run ∧ W.link ∧ W.q ∧ W.work ∧ W.vlt ∧ W.ste ∧ W.sce ∧ W.dge ∧ W.pke ∧ W.rng ∧ W.key ∧ W.bbram ∧ W.evr ∧ W.dev ∧ W.pins ∧ W.pwr ∧ W.kept ∧ W.kpr ∧ W.tmp ∧ W.otp ∧ W.boot ∧ W.flt ∧ W.rcd ∧ W.wdg ∧ W.leg ∧ W.mon ∧ W.sb ∧ W.out) :
    hide W (powerPulseEnd b) = hide W b := by
  unfold powerPulseEnd; simp [hide_ite, *]

@[simp] theorem hide_advanceRollback (W : Touch) (bad : List Nat) (b : Block) (hW : W.link ∧ W.key ∧ W.bbram ∧ W.evr ∧ W.dev ∧ W.pins ∧ W.otp ∧ W.out ∧ W.cells) :
    hide W (advanceRollback bad b) = hide W b := by
  unfold advanceRollback; simp [hide_ite, *]

@[simp] theorem hide_healthyRun (W : Touch) (bad : List Nat) (b : Block) (hW : W.link ∧ W.key ∧ W.bbram ∧ W.evr ∧ W.dev ∧ W.pins ∧ W.otp ∧ W.wdg ∧ W.out ∧ W.cells) :
    hide W (healthyRun bad b) = hide W b := by
  unfold healthyRun; simp [hide_ite, *]

@[simp] theorem hide_getHarvestCmd (W : Touch) (id : Nat) (x0 : Block) (hW : W.run ∧ W.link ∧ W.q ∧ W.work ∧ W.vlt ∧ W.ste ∧ W.sce ∧ W.dge ∧ W.pke ∧ W.rng ∧ W.key ∧ W.bbram ∧ W.evr ∧ W.dev ∧ W.pins ∧ W.pwr ∧ W.kpr ∧ W.tmp ∧ W.otp ∧ W.boot ∧ W.flt ∧ W.rcd ∧ W.wdg ∧ W.leg ∧ W.mon ∧ W.sb ∧ W.out) :
    hide W (getHarvestCmd id x0) = hide W x0 := by
  unfold getHarvestCmd; simp [hide_ite, *]

@[simp] theorem hide_clearCells (W : Touch) (b : Block) (hW : W.link ∧ W.key ∧ W.bbram ∧ W.evr ∧ W.dev ∧ W.pins ∧ W.out) :
    hide W (clearCells b) = hide W b := by
  unfold clearCells; simp [hide_ite, *]

@[simp] theorem hide_harvestClear (W : Touch) (h : HsmJob) (b : Block) (hW : W.link ∧ W.q ∧ W.work ∧ W.vlt ∧ W.sce ∧ W.key ∧ W.bbram ∧ W.evr ∧ W.dev ∧ W.pins ∧ W.kpr ∧ W.mon ∧ W.out) :
    hide W (harvestClear h b) = hide W b := by
  unfold harvestClear; simp [hide_ite, *]

@[simp] theorem hide_harvestClearRun (W : Touch) (id : Nat) (x0 : Block) (hW : W.link ∧ W.q ∧ W.work ∧ W.vlt ∧ W.ste ∧ W.sce ∧ W.dge ∧ W.rng ∧ W.key ∧ W.bbram ∧ W.evr ∧ W.dev ∧ W.pins ∧ W.kpr ∧ W.mon ∧ W.out) :
    hide W (harvestClearRun id x0) = hide W x0 := by
  unfold harvestClearRun; simp [hide_ite, *]

@[simp] theorem hide_refill (W : Touch) (i : Nat) (b : Block) (hW : W.evr) :
    hide W (refill i b) = hide W b := by
  unfold refill; simp [hide_ite, *]

@[simp] theorem hide_alertResponse (W : Touch) (b : Block) (hW : W.pins ∧ W.out) :
    hide W (alertResponse b) = hide W b := by
  unfold alertResponse; simp [hide_ite, *]

@[simp] theorem hide_badFrame (W : Touch) (b : Block) (hW : W.mon) :
    hide W (badFrame b) = hide W b := by
  unfold badFrame; simp [hide_ite, *]

@[simp] theorem hide_uartReply (W : Touch) (code : Nat) (tag : Nat) (status : Nat) (payload : Bytes) (b : Block) (hW : W.out) :
    hide W (uartReply code tag status payload b) = hide W b := by
  unfold uartReply; simp [hide_ite, *]

@[simp] theorem hide_refuseFrame (W : Touch) (code : Nat) (tag : Nat) (status : Nat) (b : Block) (hW : W.mon ∧ W.out) :
    hide W (refuseFrame code tag status b) = hide W b := by
  unfold refuseFrame; simp [hide_ite, *]

@[simp] theorem hide_intoFramed (W : Touch) (b : Block) (hW : W.link ∧ W.mon ∧ W.out) :
    hide W (intoFramed b) = hide W b := by
  unfold intoFramed; simp [hide_ite, *]

@[simp] theorem hide_frameRun (W : Touch) (code : Nat) (body : Bytes) (f : Nat → Bytes → Block → Block) (b : Block) (hW : W.link ∧ W.mon ∧ W.out) (hf0 : ∀ y0 y1 y2, hide W (f y0 y1 y2) = hide W y2) :
    hide W (frameRun code body f b) = hide W b := by
  unfold frameRun
  try dsimp only
  repeat' first | (simp [hide_ite, *]; done) | split

@[simp] theorem hide_countFrame (W : Touch) (b : Block) (hW : W.mon) :
    hide W (countFrame b) = hide W b := by
  unfold countFrame; simp [hide_ite, *]

@[simp] theorem hide_answerFrame (W : Touch) (code : Nat) (tag : Nat) (a : Answer) (b : Block) (hW : W.mon ∧ W.out) :
    hide W (answerFrame code tag a b) = hide W b := by
  unfold answerFrame
  try dsimp only
  repeat' first | (simp [hide_ite, *]; done) | split

@[simp] theorem hide_viaRun (W : Touch) (code : Nat) (via : Via) (f : Nat → Bytes → Block → Answer × Block) (b : Block) (hW : W.link ∧ W.mon ∧ W.out) (hf0 : ∀ y0 y1 y2, hide W (f y0 y1 y2).2 = hide W y2) :
    hide W (viaRun code via f b) = hide W b := by
  unfold viaRun
  try dsimp only
  repeat' first | (simp [hide_ite, *]; done) | split

@[simp] theorem hide_harvestGet (W : Touch) (u0 : Nat) (p : Bytes) (b : Block) (hW : W.run ∧ W.link ∧ W.q ∧ W.work ∧ W.vlt ∧ W.ste ∧ W.sce ∧ W.dge ∧ W.pke ∧ W.rng ∧ W.key ∧ W.bbram ∧ W.evr ∧ W.dev ∧ W.pins ∧ W.pwr ∧ W.kpr ∧ W.tmp ∧ W.otp ∧ W.boot ∧ W.flt ∧ W.rcd ∧ W.wdg ∧ W.leg ∧ W.mon ∧ W.sb ∧ W.out) :
    hide W (harvestGet u0 p b).2 = hide W b := by
  unfold harvestGet
  (try dsimp only)
  repeat' first
    | rfl
    | (simp (maxDischargeDepth := 6) [hide_ite, *]; done)
    | split

@[simp] theorem hide_tamperTrigger (W : Touch) (t : Nat) (b : Block) (hW : W.run ∧ W.link ∧ W.q ∧ W.work ∧ W.vlt ∧ W.ste ∧ W.sce ∧ W.dge ∧ W.pke ∧ W.rng ∧ W.key ∧ W.bbram ∧ W.evr ∧ W.dev ∧ W.pins ∧ W.pwr ∧ W.kpr ∧ W.tmp ∧ W.otp ∧ W.boot ∧ W.flt ∧ W.wdg ∧ W.leg ∧ W.mon ∧ W.out) :
    hide W (tamperTrigger t b) = hide W b := by
  unfold tamperTrigger; simp [hide_ite, *]

@[simp] theorem hide_cfgApply (W : Touch) (v : Word) (b : Block) (hW : W.link ∧ W.dev ∧ W.tmp ∧ W.out) :
    hide W (cfgApply v b) = hide W b := by
  unfold cfgApply; simp [hide_ite, *]

@[simp] theorem hide_inFrozen (W : Touch) (f : Bytes → Block → Answer × Block) (u1 : Nat) (p : Bytes) (b : Block) (hf0 : ∀ y0 y1, hide W (f y0 y1).2 = hide W y1) :
    hide W (inFrozen f u1 p b).2 = hide W b := by
  unfold inFrozen
  (try dsimp only)
  repeat' first
    | rfl
    | (simp (maxDischargeDepth := 6) [hide_ite, *]; done)
    | split

@[simp] theorem hide_frostStatus (W : Touch) (p : Bytes) (b : Block) :
    hide W (frostStatus p b).2 = hide W b := by
  unfold frostStatus
  try dsimp only
  repeat' first | (simp [hide_ite, *]; done) | split

@[simp] theorem hide_frostNonce (W : Touch) (p : Bytes) (b : Block) (hW : W.rng ∧ W.tmp) :
    hide W (frostNonce p b).2 = hide W b := by
  unfold frostNonce
  try dsimp only
  repeat' first | (simp [hide_ite, *]; done) | split

@[simp] theorem hide_releaseFrost (W : Touch) (b : Block) (hW : W.tmp) :
    hide W (releaseFrost b) = hide W b := by
  unfold releaseFrost; simp [hide_ite, *]

@[simp] theorem hide_frostRelease (W : Touch) (p : Bytes) (b : Block) (hW : W.tmp) :
    hide W (frostRelease p b).2 = hide W b := by
  unfold frostRelease
  try dsimp only
  repeat' first | (simp [hide_ite, *]; done) | split

@[simp] theorem hide_keeperProgramPage (W : Touch) (p : Nat) (addr : Nat) (data : Bytes) (s : PortView × Block) (hW : W.link ∧ W.key ∧ W.bbram ∧ W.evr ∧ W.dev ∧ W.pins ∧ W.flt ∧ W.out) :
    hide W (keeperProgramPage p addr data s).2 = hide W s.2 := by
  unfold keeperProgramPage
  try dsimp only
  repeat' first | (simp [hide_ite, *]; done) | split

@[simp] theorem hide_keeperErase (W : Touch) (p : Nat) (unit : Nat) (addr : Nat) (s : PortView × Block) (hW : W.link ∧ W.key ∧ W.bbram ∧ W.evr ∧ W.dev ∧ W.pins ∧ W.flt ∧ W.out) :
    hide W (keeperErase p unit addr s).2 = hide W s.2 := by
  unfold keeperErase
  try dsimp only
  repeat' first | (simp [hide_ite, *]; done) | split

@[simp] theorem hide_keeperProgram (W : Touch) (p : Nat) (addr : Nat) (data : Bytes) (s : PortView × Block) (hW : W.link ∧ W.key ∧ W.bbram ∧ W.evr ∧ W.dev ∧ W.pins ∧ W.flt ∧ W.out) :
    hide W (keeperProgram p addr data s).2 = hide W s.2 := by
  unfold keeperProgram; simp [hide_ite, *]

@[simp] theorem hide_ptrStart (W : Touch) (f : FlashView) (p : Nat) (b : Block) (hW : W.flt) :
    hide W (ptrStart f p b) = hide W b := by
  unfold ptrStart
  try dsimp only
  repeat' first | (simp [hide_ite, *]; done) | split

@[simp] theorem hide_ringStart (W : Touch) (f : FlashView) (b : Block) (hW : W.link ∧ W.key ∧ W.bbram ∧ W.evr ∧ W.dev ∧ W.pins ∧ W.flt ∧ W.rcd ∧ W.out) :
    hide W (ringStart f b) = hide W b := by
  unfold ringStart
  try dsimp only
  repeat' first | (simp [hide_ite, *]; done) | split

@[simp] theorem hide_zerosTo (W : Touch) (p : Nat) (stop : Nat) (s : PortView × Block) (hW : W.link ∧ W.key ∧ W.bbram ∧ W.evr ∧ W.dev ∧ W.pins ∧ W.flt ∧ W.out) :
    hide W (zerosTo p stop s).2 = hide W s.2 := by
  unfold zerosTo
  try dsimp only
  repeat' first | (simp [hide_ite, *]; done) | split

@[simp] theorem hide_frameWrite (W : Touch) (p : Nat) (r : FlashRule) (erase : Nat) (x0 : Nat) (x1 : Bytes) (x2 : PortView × Block) (hW : W.link ∧ W.key ∧ W.bbram ∧ W.evr ∧ W.dev ∧ W.pins ∧ W.flt ∧ W.out) :
    hide W (frameWrite p r erase x0 x1 x2).2 = hide W x2.2 := by
  induction x0 generalizing x1 x2 with
  | zero => rfl
  | succ n ih =>
    rw [frameWrite]
    split
    · rfl
    dsimp only
    rw [ih]
    rw [hide_keeperProgram W _ _ _ _ (by simp [hW])]
    split <;> simp [hW]

@[simp] theorem hide_appendSkips (W : Touch) (p : Nat) (r : FlashRule) (erase : Nat) (s : PortView × Block) (hW : W.link ∧ W.key ∧ W.bbram ∧ W.evr ∧ W.dev ∧ W.pins ∧ W.flt ∧ W.out) :
    hide W (appendSkips p r erase s).2 = hide W s.2 := by
  unfold appendSkips
  try dsimp only
  repeat' first | (simp [hide_ite, *]; done) | split

@[simp] theorem hide_appendOnce (W : Touch) (p : Nat) (r : FlashRule) (erase : Nat) (frame : Bytes) (fail : Option Nat) (s : PortView × Block) (hW : W.link ∧ W.key ∧ W.bbram ∧ W.evr ∧ W.dev ∧ W.pins ∧ W.flt ∧ W.out) :
    hide W (appendOnce p r erase frame fail s).2.2 = hide W s.2 := by
  unfold appendOnce
  try dsimp only
  repeat' first | (simp [hide_ite, *]; done) | split

@[simp] theorem hide_appendTries (W : Touch) (p : Nat) (r : FlashRule) (erase : Nat) (mk : Nat → Bytes) (x0 : Nat) (x1 : List Nat) (x2 : PortView × Block) (hW : W.link ∧ W.key ∧ W.bbram ∧ W.evr ∧ W.dev ∧ W.pins ∧ W.flt ∧ W.rcd ∧ W.out) :
    hide W (appendTries p r erase mk x0 x1 x2).2.2 = hide W x2.2 := by
  induction x0 generalizing x1 x2 with
  | zero => rfl
  | succ n ih =>
    rw [appendTries]
    dsimp only
    have go : hide W ((appendOnce p r erase (mk x2.2.rcd.nextSeq) x1.head? x2).2.2.onRcd (fun c => { c with nextSeq := (c.nextSeq + 1) % 2 ^ 32 })) =
        hide W x2.2 := by simp [hW]
    split
    · exact go
    split
    · exact go
    rw [ih]
    exact go

theorem hide_kept (W : Touch) (b : Block) (k : RetainedSt) (h : W.kept = true) : hide W { b with kept := k } = hide W b := by
  simp [hide, h]
@[simp] theorem hide_appendRecord (W : Touch) (f : FlashView) (kind : Nat) (boot : Nat) (record : Bytes) (b : Block) (hW : W.link ∧ W.key ∧ W.bbram ∧ W.evr ∧ W.dev ∧ W.pins ∧ W.kept ∧ W.flt ∧ W.rcd ∧ W.out) :
    hide W (appendRecord f kind boot record b).2 = hide W b := by
  unfold appendRecord
  dsimp only
  rw [hide_kept W _ _ (by simp [hW])]
  split
  · rfl
  · split
    · rw [hide_appendTries W _ _ _ _ _ _ _ (by simp [hW])]
    · rfl

@[simp] theorem hide_setFlag4 (W : Touch) (i : Nat) (v : Bool) (b : Block) (hW : W.key ∧ W.bbram) :
    hide W (setFlag4 i v b) = hide W b := by
  unfold setFlag4; simp [hide_ite, *]

@[simp] theorem hide_setDebugFlag (W : Touch) (v : Bool) (b : Block) (hW : W.key ∧ W.bbram) :
    hide W (setDebugFlag v b) = hide W b := by
  unfold setDebugFlag; simp [hide_ite, *]

@[simp] theorem hide_notePersisted (W : Touch) (ok : Bool) (b : Block) (hW : W.key ∧ W.bbram) :
    hide W (notePersisted ok b) = hide W b := by
  unfold notePersisted; simp [hide_ite, *]

@[simp] theorem hide_countBoot (W : Touch) (b : Block) (hW : W.key ∧ W.bbram) :
    hide W (countBoot b) = hide W b := by
  unfold countBoot; simp [hide_ite, *]

@[simp] theorem hide_clearStated (W : Touch) (b : Block) (hW : W.key ∧ W.bbram ∧ W.kept) :
    hide W (clearStated b) = hide W b := by
  unfold clearStated
  dsimp only
  rw [hide_kept W _ _ (by simp [hW])]
  split <;> split <;> simp [hW]

@[simp] theorem hide_makeRecord (W : Touch) (f : FlashView) (midBoot : Bool) (b : Block) (hW : W.run ∧ W.link ∧ W.q ∧ W.work ∧ W.vlt ∧ W.ste ∧ W.sce ∧ W.dge ∧ W.pke ∧ W.rng ∧ W.key ∧ W.bbram ∧ W.evr ∧ W.dev ∧ W.pins ∧ W.pwr ∧ W.kept ∧ W.kpr ∧ W.tmp ∧ W.otp ∧ W.boot ∧ W.flt ∧ W.rcd ∧ W.wdg ∧ W.leg ∧ W.mon ∧ W.sb ∧ W.out) :
    hide W (makeRecord f midBoot b).2 = hide W b := by
  unfold makeRecord; simp [hide_ite, *]

@[simp] theorem hide_ringTouch (W : Touch) (select : Nat) (n : Nat) (counter : Nat) (b : Block) (hW : W.out) :
    hide W (ringTouch select n counter b) = hide W b := by
  unfold ringTouch
  try dsimp only
  repeat' first | (simp [hide_ite, *]; done) | split

@[simp] theorem hide_attestEvidence (W : Touch) (nonce : Bytes) (who : Nat) (world : Nat) (b : Block) (hW : W.link ∧ W.pke ∧ W.rng ∧ W.key ∧ W.bbram ∧ W.evr ∧ W.dev ∧ W.pins ∧ W.out) :
    hide W (attestEvidence nonce who world b).2 = hide W b := by
  unfold attestEvidence
  try dsimp only
  repeat' first | (simp [hide_ite, *]; done) | split

@[simp] theorem hide_evidenceEnd (W : Touch) (h : HsmJob) (cap : Nat) (e : Evidence) (b : Block) (hW : W.link ∧ W.q ∧ W.work ∧ W.vlt ∧ W.sce ∧ W.key ∧ W.bbram ∧ W.evr ∧ W.dev ∧ W.pins ∧ W.kpr ∧ W.mon ∧ W.out) :
    hide W (evidenceEnd h cap e b) = hide W b := by
  unfold evidenceEnd
  try dsimp only
  repeat' first | (simp [hide_ite, *]; done) | split

@[simp] theorem hide_getRecord (W : Touch) (f : FlashView) (h : HsmJob) (b : Block) (hW : W.link ∧ W.q ∧ W.work ∧ W.vlt ∧ W.sce ∧ W.key ∧ W.bbram ∧ W.evr ∧ W.dev ∧ W.pins ∧ W.kpr ∧ W.mon ∧ W.out) :
    hide W (getRecord f h b) = hide W b := by
  unfold getRecord; simp [hide_ite, *]

@[simp] theorem hide_getCert (W : Touch) (h : HsmJob) (b : Block) (hW : W.link ∧ W.q ∧ W.work ∧ W.vlt ∧ W.sce ∧ W.key ∧ W.bbram ∧ W.evr ∧ W.dev ∧ W.pins ∧ W.kpr ∧ W.mon ∧ W.out) :
    hide W (getCert h b) = hide W b := by
  unfold getCert; simp [hide_ite, *]

@[simp] theorem hide_attest (W : Touch) (h : HsmJob) (b : Block) (hW : W.link ∧ W.q ∧ W.work ∧ W.vlt ∧ W.sce ∧ W.pke ∧ W.rng ∧ W.key ∧ W.bbram ∧ W.evr ∧ W.dev ∧ W.pins ∧ W.kpr ∧ W.mon ∧ W.out) :
    hide W (attest h b) = hide W b := by
  unfold attest
  try dsimp only
  repeat' first | (simp [hide_ite, *]; done) | split

@[simp] theorem hide_evidenceRun (W : Touch) (code : Nat) (rnd : Randomness) (f : HsmJob → Block → Block) (id : Nat) (x0 : Block) (hW : W.link ∧ W.q ∧ W.work ∧ W.vlt ∧ W.ste ∧ W.sce ∧ W.dge ∧ W.rng ∧ W.key ∧ W.bbram ∧ W.evr ∧ W.dev ∧ W.pins ∧ W.kpr ∧ W.mon ∧ W.out) (hf0 : ∀ y0 y1, hide W (f y0 y1) = hide W y1) :
    hide W (evidenceRun code rnd f id x0) = hide W x0 := by
  unfold evidenceRun; simp [hide_ite, *]

@[simp] theorem hide_unlessFrozen (W : Touch) (f : Nat → Bytes → Block → Answer × Block) (by_ : Nat) (p : Bytes) (b : Block) (hf0 : ∀ y0 y1 y2, hide W (f y0 y1 y2).2 = hide W y2) :
    hide W (unlessFrozen f by_ p b).2 = hide W b := by
  unfold unlessFrozen
  try dsimp only
  repeat' first | (simp [hide_ite, *]; done) | split

@[simp] theorem hide_recordGet (W : Touch) (f : FlashView) (u1 : Nat) (p : Bytes) (b : Block) (hW : W.out) :
    hide W (recordGet f u1 p b).2 = hide W b := by
  unfold recordGet
  (try dsimp only)
  repeat' first
    | rfl
    | (simp (maxDischargeDepth := 6) [hide_ite, *]; done)
    | split

@[simp] theorem hide_certGet (W : Touch) (u0 : Nat) (p : Bytes) (b : Block) :
    hide W (certGet u0 p b).2 = hide W b := by
  unfold certGet
  (try dsimp only)
  repeat' first
    | rfl
    | (simp (maxDischargeDepth := 6) [hide_ite, *]; done)
    | split

@[simp] theorem hide_attestGet (W : Touch) (by_ : Nat) (p : Bytes) (b : Block) (hW : W.link ∧ W.pke ∧ W.rng ∧ W.key ∧ W.bbram ∧ W.evr ∧ W.dev ∧ W.pins ∧ W.out) :
    hide W (attestGet by_ p b).2 = hide W b := by
  unfold attestGet
  try dsimp only
  repeat' first | (simp [hide_ite, *]; done) | split

@[simp] theorem hide_ringRun (W : Touch) (f : Block → Block) (b : Block) (hf0 : ∀ y0, hide W (f y0) = hide W y0) :
    hide W (ringRun f b) = hide W b := by
  unfold ringRun; simp [hide_ite, *]

@[simp] theorem hide_deriveRoots (W : Touch) (header : Bytes) (mfg : Bool) (b : Block) (hW : W.key) :
    hide W (deriveRoots header mfg b) = hide W b := by
  unfold deriveRoots; simp [hide_ite, *]

@[simp] theorem hide_putClass (W : Touch) (c : Nat) (x : ClassSt) (b : Block) (hW : W.boot) :
    hide W (putClass c x b) = hide W b := by
  unfold putClass; simp [hide_ite, *]

@[simp] theorem hide_addMeasure (W : Touch) (x : Measure) (b : Block) (hW : W.boot) :
    hide W (addMeasure x b) = hide W b := by
  unfold addMeasure; simp [hide_ite, *]

@[simp] theorem hide_reportFailed (W : Touch) (codes : List Nat) (b : Block) (hW : W.link ∧ W.key ∧ W.bbram ∧ W.evr ∧ W.dev ∧ W.pins ∧ W.out) :
    hide W (reportFailed codes b) = hide W b := by
  unfold reportFailed; simp [hide_ite, *]

@[simp] theorem hide_startKeeper (W : Touch) (m : Bytes) (source : Nat) (slot : Nat) (base : Nat) (seq : Nat) (lower : Bool) (fallback : Bool) (required : Bool) (b : Block) (hW : W.run ∧ W.key ∧ W.boot ∧ W.rcd) :
    hide W (startKeeper m source slot base seq lower fallback required b) = hide W b := by
  unfold startKeeper; simp [hide_ite, *]

@[simp] theorem hide_judgePairs (W : Touch) (b : Block) (hW : W.link ∧ W.key ∧ W.bbram ∧ W.evr ∧ W.dev ∧ W.pins ∧ W.out) :
    hide W (judgePairs b) = hide W b := by
  unfold judgePairs; simp [hide_ite, *]

@[simp] theorem hide_findCounters (W : Touch) (b : Block) (hW : W.link ∧ W.rng ∧ W.key ∧ W.bbram ∧ W.evr ∧ W.dev ∧ W.pins ∧ W.out) :
    hide W (findCounters b) = hide W b := by
  unfold findCounters
  try dsimp only
  repeat' first | (simp [hide_ite, *]; done) | split

@[simp] theorem hide_findLadders (W : Touch) (b : Block) (hW : W.link ∧ W.key ∧ W.bbram ∧ W.evr ∧ W.dev ∧ W.pins ∧ W.wdg ∧ W.out) :
    hide W (findLadders b) = hide W b := by
  unfold findLadders
  try dsimp only
  repeat' first | (simp [hide_ite, *]; done) | split

@[simp] theorem hide_findCounts (W : Touch) (b : Block) (hW : W.link ∧ W.key ∧ W.bbram ∧ W.evr ∧ W.dev ∧ W.pins ∧ W.out) :
    hide W (findCounts b) = hide W b := by
  unfold findCounts; simp [hide_ite, *]

@[simp] theorem hide_clearSlot (W : Touch) (i : Nat) (b : Block) (hW : W.key ∧ W.bbram) :
    hide W (clearSlot i b) = hide W b := by
  unfold clearSlot; simp [hide_ite, *]

@[simp] theorem hide_findBitmap (W : Touch) (b : Block) (hW : W.key ∧ W.bbram) :
    hide W (findBitmap b) = hide W b := by
  unfold findBitmap; simp [hide_ite, *]

@[simp] theorem hide_findDomain (W : Touch) (b : Block) (hW : W.link ∧ W.key ∧ W.bbram ∧ W.evr ∧ W.dev ∧ W.pins ∧ W.out) :
    hide W (findDomain b) = hide W b := by
  unfold findDomain
  try dsimp only
  repeat' first | (simp [hide_ite, *]; done) | split

@[simp] theorem hide_keeperBegins (W : Touch) (b : Block) (hW : W.link ∧ W.rng ∧ W.key ∧ W.bbram ∧ W.evr ∧ W.dev ∧ W.pins ∧ W.wdg ∧ W.out) :
    hide W (keeperBegins b) = hide W b := by
  unfold keeperBegins; simp [hide_ite, *]

@[simp] theorem hide_discoverPort (W : Touch) (p : Nat) (v : PortView) (b : Block) (hW : W.flt) :
    hide W (discoverPort p v b) = hide W b := by
  unfold discoverPort; simp [hide_ite, *]

@[simp] theorem hide_putLedger (W : Touch) (p : Nat) (index : Nat) (addr : Nat) (data : Bytes) (b : Block) (hW : W.flt) :
    hide W (putLedger p index addr data b) = hide W b := by
  unfold putLedger; simp [hide_ite, *]

@[simp] theorem hide_putRule (W : Touch) (p : Nat) (n : Nat) (r : FlashRule) (b : Block) (hW : W.flt) :
    hide W (putRule p n r b) = hide W b := by
  unfold putRule; simp [hide_ite, *]

@[simp] theorem hide_acceptClass (W : Touch) (p : Nat) (v : PortView) (e : DirEntry) (i : Nat) (fallback : Bool) (b : Block) (hW : W.boot ∧ W.flt) :
    hide W (acceptClass p v e i fallback b) = hide W b := by
  unfold acceptClass; simp [hide_ite, *]

@[simp] theorem hide_denySlots (W : Touch) (p : Nat) (e : DirEntry) (b : Block) (hW : W.flt) :
    hide W (denySlots p e b) = hide W b := by
  unfold denySlots; simp [hide_ite, *]

@[simp] theorem hide_platformClass (W : Touch) (p : Nat) (v : PortView) (c : Nat) (b : Block) (hW : W.link ∧ W.key ∧ W.bbram ∧ W.evr ∧ W.dev ∧ W.pins ∧ W.boot ∧ W.flt ∧ W.out) :
    hide W (platformClass p v c b).2 = hide W b := by
  unfold platformClass
  try dsimp only
  repeat' first | (simp [hide_ite, *]; done) | split

@[simp] theorem hide_platformClasses (W : Touch) (p : Nat) (v : PortView) (cs : List Nat) (b : Block) (hW : W.link ∧ W.key ∧ W.bbram ∧ W.evr ∧ W.dev ∧ W.pins ∧ W.boot ∧ W.flt ∧ W.out) :
    hide W (platformClasses p v cs b).2 = hide W b := by
  unfold platformClasses; simp [hide_ite, *]

@[simp] theorem hide_armFilter (W : Touch) (p : Nat) (pol : Policy) (b : Block) (hW : W.boot ∧ W.flt) :
    hide W (armFilter p pol b) = hide W b := by
  unfold armFilter; simp [hide_ite, *]

@[simp] theorem hide_choosePolicy (W : Touch) (p : Nat) (v : PortView) (b : Block) (hW : W.boot ∧ W.flt) :
    hide W (choosePolicy p v b).2 = hide W b := by
  unfold choosePolicy
  try dsimp only
  repeat' first | (simp [hide_ite, *]; done) | split

@[simp] theorem hide_takeUart (W : Touch) (b : Block) (hW : W.link ∧ W.mon ∧ W.out) :
    hide W (takeUart b) = hide W b := by
  unfold takeUart; simp [hide_ite, *]

@[simp] theorem hide_enterThaw (W : Touch) (reason : Nat) (f : FlashView) (b : Block) (hW : W.run ∧ W.link ∧ W.key ∧ W.bbram ∧ W.evr ∧ W.dev ∧ W.pins ∧ W.kept ∧ W.boot ∧ W.flt ∧ W.mon ∧ W.out) :
    hide W (enterThaw reason f b) = hide W b := by
  unfold enterThaw
  dsimp only
  rw [hide_event W _ _ _ (by simp [hW])]
  have go : hide W (((b.onBoot (fun o => { o with thawReason := reason, firstDir := b.boot.firstDir.orElse (fun _ => firstDirectory f b), wait := .none, offer := none })).onRun
      (fun r => { r with state := .thaw })).onPins (fun p => { p with bmcHigh := true })) = hide W b := by
    simp [hW, hide_onRun]
  split
  all_goals
    simp only [hide_takeUart, hide_onBoot, hide_onFlt, hW, and_self, hide_kept]
    exact go

@[simp] theorem hide_solstice (W : Touch) (f : FlashView) (b : Block) (hW : W.run ∧ W.link ∧ W.q ∧ W.work ∧ W.vlt ∧ W.ste ∧ W.sce ∧ W.dge ∧ W.pke ∧ W.rng ∧ W.key ∧ W.bbram ∧ W.evr ∧ W.dev ∧ W.pins ∧ W.pwr ∧ W.kept ∧ W.kpr ∧ W.tmp ∧ W.otp ∧ W.boot ∧ W.flt ∧ W.rcd ∧ W.wdg ∧ W.leg ∧ W.mon ∧ W.sb ∧ W.out) :
    hide W (solstice f b) = hide W b := by
  unfold solstice; simp [hide_ite, *]

@[simp] theorem hide_keeperStage (W : Touch) (f : FlashView) (b : Block) (hW : W.run ∧ W.link ∧ W.q ∧ W.work ∧ W.vlt ∧ W.ste ∧ W.sce ∧ W.dge ∧ W.pke ∧ W.rng ∧ W.key ∧ W.bbram ∧ W.evr ∧ W.dev ∧ W.pins ∧ W.pwr ∧ W.kept ∧ W.kpr ∧ W.tmp ∧ W.otp ∧ W.boot ∧ W.flt ∧ W.rcd ∧ W.wdg ∧ W.leg ∧ W.mon ∧ W.sb ∧ W.out) :
    hide W (keeperStage f b) = hide W b := by
  unfold keeperStage
  try dsimp only
  repeat' first | (simp [hide_ite, *]; done) | split

@[simp] theorem hide_sampleStraps (W : Touch) (straps : Nat) (unstable : Nat) (b : Block) (hW : W.link ∧ W.key ∧ W.bbram ∧ W.evr ∧ W.dev ∧ W.pins ∧ W.out) :
    hide W (sampleStraps straps unstable b) = hide W b := by
  unfold sampleStraps; simp [hide_ite, *]

@[simp] theorem hide_copySupply (W : Touch) (b : Block) (hW : W.link ∧ W.key ∧ W.bbram ∧ W.evr ∧ W.dev ∧ W.pins ∧ W.sup ∧ W.out) :
    hide W (copySupply b) = hide W b := by
  unfold copySupply; simp [hide_ite, *]

@[simp] theorem hide_judgeRetained (W : Touch) (b : Block) (hW : W.pwr ∧ W.kept) :
    hide W (judgeRetained b) = hide W b := by
  unfold judgeRetained
  dsimp only
  rw [hide_onPwr W _ _ (by simp [hW]), hide_kept W _ _ (by simp [hW])]

@[simp] theorem hide_completeGroups (W : Touch) (weak : List Nat) (b : Block) (hW : W.run ∧ W.link ∧ W.key ∧ W.bbram ∧ W.evr ∧ W.dev ∧ W.pins ∧ W.otp ∧ W.out ∧ W.lcs ∧ W.cells) :
    hide W (completeGroups weak b) = hide W b := by
  unfold completeGroups; simp [hide_ite, *]

@[simp] theorem hide_loadShadow (W : Touch) (b : Block) (hW : W.link ∧ W.key ∧ W.bbram ∧ W.evr ∧ W.dev ∧ W.pins ∧ W.otp ∧ W.out) :
    hide W (loadShadow b) = hide W b := by
  unfold loadShadow; simp [hide_ite, *]

@[simp] theorem hide_checkTag (W : Touch) (b : Block) (hW : W.link ∧ W.key ∧ W.bbram ∧ W.evr ∧ W.dev ∧ W.pins ∧ W.otp ∧ W.out) :
    hide W (checkTag b) = hide W b := by
  unfold checkTag; simp [hide_ite, *]

@[simp] theorem hide_countAlarm (W : Touch) (engine : Nat) (b : Block) (hW : W.vlt ∧ W.dge ∧ W.pke) :
    hide W (countAlarm engine b) = hide W b := by
  unfold countAlarm
  try dsimp only
  repeat' first | (simp [hide_ite, *]; done) | split

@[simp] theorem hide_katAlarm (W : Touch) (t : Nat × Nat × Nat) (b : Block) (hW : W.run ∧ W.link ∧ W.q ∧ W.work ∧ W.vlt ∧ W.ste ∧ W.sce ∧ W.dge ∧ W.pke ∧ W.rng ∧ W.key ∧ W.bbram ∧ W.evr ∧ W.dev ∧ W.pins ∧ W.pwr ∧ W.kpr ∧ W.tmp ∧ W.otp ∧ W.boot ∧ W.flt ∧ W.rcd ∧ W.wdg ∧ W.leg ∧ W.mon ∧ W.sb ∧ W.out) :
    hide W (katAlarm t b) = hide W b := by
  unfold katAlarm; simp [hide_ite, *]

@[simp] theorem hide_katEngine (W : Touch) (t : Nat × Nat × Nat) (n : Nat) (b : Block) (hW : W.run ∧ W.link ∧ W.q ∧ W.work ∧ W.vlt ∧ W.ste ∧ W.sce ∧ W.dge ∧ W.pke ∧ W.rng ∧ W.key ∧ W.bbram ∧ W.evr ∧ W.dev ∧ W.pins ∧ W.pwr ∧ W.kpr ∧ W.tmp ∧ W.otp ∧ W.boot ∧ W.flt ∧ W.rcd ∧ W.wdg ∧ W.leg ∧ W.mon ∧ W.sb ∧ W.out) :
    hide W (katEngine t n b) = hide W b := by
  unfold katEngine; simp [hide_ite, *]

@[simp] theorem hide_katRun (W : Touch) (ts : List (Nat × Nat × Nat)) (fails : List Nat) (b : Block) (hW : W.run ∧ W.link ∧ W.q ∧ W.work ∧ W.vlt ∧ W.ste ∧ W.sce ∧ W.dge ∧ W.pke ∧ W.rng ∧ W.key ∧ W.bbram ∧ W.evr ∧ W.dev ∧ W.pins ∧ W.pwr ∧ W.kpr ∧ W.tmp ∧ W.otp ∧ W.boot ∧ W.flt ∧ W.rcd ∧ W.wdg ∧ W.leg ∧ W.mon ∧ W.sb ∧ W.out) :
    hide W (katRun ts fails b) = hide W b := by
  unfold katRun; simp [hide_ite, *]

@[simp] theorem hide_buildList (W : Touch) (b : Block) (hW : W.boot) :
    hide W (buildList b) = hide W b := by
  unfold buildList; simp [hide_ite, *]

@[simp] theorem hide_onLog (W : Touch) (f : WalkLog → WalkLog) (b : Block) (hW : W.boot) :
    hide W (onLog f b) = hide W b := by
  unfold onLog; simp [hide_ite, *]

@[simp] theorem hide_sourceFailed (W : Touch) (outcome : Nat) (b : Block) (hW : W.boot) :
    hide W (sourceFailed outcome b) = hide W b := by
  unfold sourceFailed; simp [hide_ite, *]

@[simp] theorem hide_trySource (W : Touch) (p : Nat) (v : PortView) (b : Block) (hW : W.run ∧ W.link ∧ W.key ∧ W.bbram ∧ W.evr ∧ W.dev ∧ W.pins ∧ W.boot ∧ W.flt ∧ W.rcd ∧ W.out) :
    hide W (trySource p v b).2 = hide W b := by
  unfold trySource
  try dsimp only
  repeat' first | (simp [hide_ite, *]; done) | split

@[simp] theorem hide_walk (W : Touch) (f : FlashView) (x0 : Nat) (x1 : Block) (hW : W.run ∧ W.link ∧ W.q ∧ W.work ∧ W.vlt ∧ W.ste ∧ W.sce ∧ W.dge ∧ W.pke ∧ W.rng ∧ W.key ∧ W.bbram ∧ W.evr ∧ W.dev ∧ W.pins ∧ W.pwr ∧ W.kept ∧ W.kpr ∧ W.tmp ∧ W.otp ∧ W.boot ∧ W.flt ∧ W.rcd ∧ W.wdg ∧ W.leg ∧ W.mon ∧ W.sb ∧ W.out) :
    hide W (walk f x0 x1) = hide W x1 := by
  induction x0 generalizing x1 with
  | zero => rfl
  | succ n ih =>
    rw [walk]
    split
    · simp [hW]
    dsimp only
    split
    · split
      · split
        · rename_i h
          rw [hide_keeperStage W _ _ (by simp [hW])]
          have e := congrArg (fun r => hide W r.2) h
          simpa [hW] using e.symm
        · rename_i h
          rw [ih]
          have e := congrArg (fun r => hide W r.2) h
          simpa [hW] using e.symm
      · simp [hW]
    · split <;> simp [hW]

@[simp] theorem hide_walkOn (W : Touch) (f : FlashView) (b : Block) (hW : W.run ∧ W.link ∧ W.q ∧ W.work ∧ W.vlt ∧ W.ste ∧ W.sce ∧ W.dge ∧ W.pke ∧ W.rng ∧ W.key ∧ W.bbram ∧ W.evr ∧ W.dev ∧ W.pins ∧ W.pwr ∧ W.kept ∧ W.kpr ∧ W.tmp ∧ W.otp ∧ W.boot ∧ W.flt ∧ W.rcd ∧ W.wdg ∧ W.leg ∧ W.mon ∧ W.sb ∧ W.out) :
    hide W (walkOn f b) = hide W b := by
  unfold walkOn; simp [hide_ite, *]

@[simp] theorem hide_romBegins (W : Touch) (env : BootEnv) (b : Block) (hW : W.run ∧ W.link ∧ W.key ∧ W.bbram ∧ W.evr ∧ W.dev ∧ W.pins ∧ W.pwr ∧ W.kept ∧ W.sup ∧ W.otp ∧ W.out ∧ W.lcs ∧ W.cells) :
    hide W (romBegins env b) = hide W b := by
  unfold romBegins; simp [hide_ite, *]

@[simp] theorem hide_romEntry (W : Touch) (env : BootEnv) (b : Block) (hW : W.run ∧ W.link ∧ W.q ∧ W.work ∧ W.vlt ∧ W.ste ∧ W.sce ∧ W.dge ∧ W.pke ∧ W.rng ∧ W.key ∧ W.bbram ∧ W.evr ∧ W.dev ∧ W.pins ∧ W.pwr ∧ W.kept ∧ W.kpr ∧ W.sup ∧ W.tmp ∧ W.otp ∧ W.boot ∧ W.flt ∧ W.rcd ∧ W.wdg ∧ W.leg ∧ W.mon ∧ W.sb ∧ W.out ∧ W.lcs ∧ W.cells) :
    hide W (romEntry env b) = hide W b := by
  unfold romEntry; simp [hide_ite, *]

@[simp] theorem hide_sfdpTimeout (W : Touch) (f : FlashView) (b : Block) (hW : W.run ∧ W.link ∧ W.q ∧ W.work ∧ W.vlt ∧ W.ste ∧ W.sce ∧ W.dge ∧ W.pke ∧ W.rng ∧ W.key ∧ W.bbram ∧ W.evr ∧ W.dev ∧ W.pins ∧ W.pwr ∧ W.kept ∧ W.kpr ∧ W.tmp ∧ W.otp ∧ W.boot ∧ W.flt ∧ W.rcd ∧ W.wdg ∧ W.leg ∧ W.mon ∧ W.sb ∧ W.out) :
    hide W (sfdpTimeout f b) = hide W b := by
  unfold sfdpTimeout; simp [hide_ite, *]

@[simp] theorem hide_listenEnds (W : Touch) (f : FlashView) (b : Block) (hW : W.run ∧ W.link ∧ W.q ∧ W.work ∧ W.vlt ∧ W.ste ∧ W.sce ∧ W.dge ∧ W.pke ∧ W.rng ∧ W.key ∧ W.bbram ∧ W.evr ∧ W.dev ∧ W.pins ∧ W.pwr ∧ W.kept ∧ W.kpr ∧ W.tmp ∧ W.otp ∧ W.boot ∧ W.flt ∧ W.rcd ∧ W.wdg ∧ W.leg ∧ W.mon ∧ W.sb ∧ W.out) :
    hide W (listenEnds f b) = hide W b := by
  unfold listenEnds; simp [hide_ite, *]

@[simp] theorem hide_hostRelease (W : Touch) (b : Block) (hW : W.run ∧ W.link ∧ W.pins ∧ W.boot ∧ W.wdg ∧ W.out) :
    hide W (hostRelease b) = hide W b := by
  unfold hostRelease; simp [hide_ite, *]

@[simp] theorem hide_sysRstLow (W : Touch) (b : Block) (hW : W.run ∧ W.link ∧ W.q ∧ W.work ∧ W.vlt ∧ W.ste ∧ W.sce ∧ W.dge ∧ W.pke ∧ W.rng ∧ W.key ∧ W.bbram ∧ W.evr ∧ W.dev ∧ W.pins ∧ W.pwr ∧ W.kpr ∧ W.tmp ∧ W.otp ∧ W.boot ∧ W.flt ∧ W.rcd ∧ W.wdg ∧ W.leg ∧ W.mon ∧ W.sb ∧ W.out) :
    hide W (sysRstLow b) = hide W b := by
  unfold sysRstLow; simp [hide_ite, *]

@[simp] theorem hide_latchHi (W : Touch) (off : Nat) (b : Block) (hW : W.ste ∧ W.rng ∧ W.evr) :
    hide W (latchHi off b) = hide W b := by
  unfold latchHi; simp [hide_ite, *]

@[simp] theorem hide_activateSlot (W : Touch) (p : Nat) (e : DirEntry) (i : Nat) (s : PortView × Block) (hW : W.link ∧ W.key ∧ W.bbram ∧ W.evr ∧ W.dev ∧ W.pins ∧ W.flt ∧ W.out) :
    hide W (activateSlot p e i s).2.2 = hide W s.2 := by
  unfold activateSlot
  try dsimp only
  repeat' first | (simp [hide_ite, *]; done) | split

@[simp] theorem hide_erase64K (W : Touch) (p : Nat) (addr : Nat) (s : PortView × Block) (hW : W.link ∧ W.key ∧ W.bbram ∧ W.evr ∧ W.dev ∧ W.pins ∧ W.flt ∧ W.out) :
    hide W (erase64K p addr s).2 = hide W s.2 := by
  unfold erase64K
  try dsimp only
  repeat' first | (simp [hide_ite, *]; done) | split

@[simp] theorem hide_eraseMarker (W : Touch) (p : Nat) (e : DirEntry) (i : Nat) (s : PortView × Block) (hW : W.link ∧ W.key ∧ W.bbram ∧ W.evr ∧ W.dev ∧ W.pins ∧ W.flt ∧ W.out) :
    hide W (eraseMarker p e i s).2 = hide W s.2 := by
  unfold eraseMarker; simp [hide_ite, *]

@[simp] theorem hide_slotWrite (W : Touch) (p : Nat) (base : Nat) (x0 : Nat) (x1 : Nat) (x2 : Bytes) (x3 : PortView × Block) (hW : W.link ∧ W.key ∧ W.bbram ∧ W.evr ∧ W.dev ∧ W.pins ∧ W.flt ∧ W.out) :
    hide W (slotWrite p base x0 x1 x2 x3).2 = hide W x3.2 := by
  induction x0 generalizing x1 x2 x3 with
  | zero => rfl
  | succ n ih =>
    rw [slotWrite]
    split
    · rfl
    dsimp only
    rw [ih]
    rw [hide_keeperProgram W _ _ _ _ (by simp [hW])]
    split <;> simp [hW]

@[simp] theorem hide_writeSlot (W : Touch) (p : Nat) (e : DirEntry) (i : Nat) (off : Nat) (data : Bytes) (s : PortView × Block) (hW : W.link ∧ W.key ∧ W.bbram ∧ W.evr ∧ W.dev ∧ W.pins ∧ W.flt ∧ W.out) :
    hide W (writeSlot p e i off data s).2 = hide W s.2 := by
  unfold writeSlot; simp [hide_ite, *]

@[simp] theorem hide_activateCode (W : Touch) (p : Nat) (e : DirEntry) (i : Nat) (r : FlashView × Block) (hW : W.link ∧ W.key ∧ W.bbram ∧ W.evr ∧ W.dev ∧ W.pins ∧ W.flt ∧ W.out) :
    hide W (activateCode p e i r).2.2 = hide W r.2 := by
  unfold activateCode; simp [hide_ite, *]

@[simp] theorem hide_logJudged (W : Touch) (transport : Nat) (outcome : Nat) (b : Block) (hW : W.boot) :
    hide W (logJudged transport outcome b) = hide W b := by
  unfold logJudged; simp [hide_ite, *]

@[simp] theorem hide_onOffer (W : Touch) (f : ThawOffer → ThawOffer) (b : Block) (hW : W.boot) :
    hide W (onOffer f b) = hide W b := by
  unfold onOffer; simp [hide_ite, *]

@[simp] theorem hide_imageFails (W : Touch) (code : Nat) (b : Block) (hW : W.link ∧ W.key ∧ W.bbram ∧ W.evr ∧ W.dev ∧ W.pins ∧ W.boot ∧ W.out) :
    hide W (imageFails code b) = hide W b := by
  unfold imageFails; simp [hide_ite, *]

@[simp] theorem hide_imageHolds (W : Touch) (b : Block) (hW : W.boot) :
    hide W (imageHolds b) = hide W b := by
  unfold imageHolds; simp [hide_ite, *]

@[simp] theorem hide_romRefuses (W : Touch) (transport : Nat) (code : Nat) (b : Block) (hW : W.link ∧ W.key ∧ W.bbram ∧ W.evr ∧ W.dev ∧ W.pins ∧ W.boot ∧ W.out) :
    hide W (romRefuses transport code b) = hide W b := by
  unfold romRefuses; simp [hide_ite, *]

theorem hide_putSlot (W : Touch) (p : Nat) (f : PortView × Block → PortView × Block) (r : FlashView × Block)
    (hf : hide W (f (r.1.port p, r.2)).2 = hide W r.2) : hide W (putSlot p f r).2 = hide W r.2 := hf
@[simp] theorem hide_romAccepts (W : Touch) (transport : Nat) (m : Bytes) (img : Bytes) (r : FlashView × Block) (hW : W.run ∧ W.link ∧ W.rng ∧ W.key ∧ W.bbram ∧ W.evr ∧ W.dev ∧ W.pins ∧ W.boot ∧ W.flt ∧ W.rcd ∧ W.wdg ∧ W.out) :
    hide W (romAccepts transport m img r).2 = hide W r.2 := by
  unfold romAccepts
  dsimp only
  split
  · simp [hW]
  · split <;> simp [hW, hide_putSlot]

@[simp] theorem hide_headComes (W : Touch) (o : ThawOffer) (r : FlashView × Block) (hW : W.link ∧ W.key ∧ W.bbram ∧ W.evr ∧ W.dev ∧ W.pins ∧ W.boot ∧ W.flt ∧ W.out) :
    hide W (headComes o r).2 = hide W r.2 := by
  unfold headComes
  dsimp only
  repeat' first
    | rfl
    | (simp [hW]; done)
    | (simp [hW, hide_putSlot]; done)
    | split

@[simp] theorem hide_imageComes (W : Touch) (o : ThawOffer) (data : Bytes) (r : FlashView × Block) (hW : W.run ∧ W.link ∧ W.rng ∧ W.key ∧ W.bbram ∧ W.evr ∧ W.dev ∧ W.pins ∧ W.boot ∧ W.flt ∧ W.rcd ∧ W.wdg ∧ W.out) :
    hide W (imageComes o data r).2 = hide W r.2 := by
  unfold imageComes
  dsimp only
  repeat' first
    | rfl
    | (simp [hW]; done)
    | (simp [hW, hide_putSlot]; done)
    | split

@[simp] theorem hide_bundleTakes (W : Touch) (x0 : Nat) (x1 : Bytes) (x2 : FlashView × Block) (hW : W.run ∧ W.link ∧ W.rng ∧ W.key ∧ W.bbram ∧ W.evr ∧ W.dev ∧ W.pins ∧ W.boot ∧ W.flt ∧ W.rcd ∧ W.wdg ∧ W.out) :
    hide W (bundleTakes x0 x1 x2).2 = hide W x2.2 := by
  induction x0 generalizing x1 x2 with
  | zero => rfl
  | succ n ih =>
    rw [bundleTakes]
    split
    · rfl
    split
    · rfl
    split
    · dsimp only; rw [ih]; split <;> simp [hW]
    · dsimp only; rw [ih]; simp [hW]

@[simp] theorem hide_thawOffer (W : Touch) (f : FlashView) (by_ : Nat) (p : Bytes) (b : Block) (hW : W.run ∧ W.link ∧ W.key ∧ W.bbram ∧ W.evr ∧ W.dev ∧ W.pins ∧ W.kept ∧ W.boot ∧ W.flt ∧ W.mon ∧ W.out) :
    hide W (thawOffer f by_ p b).2 = hide W b := by
  unfold thawOffer
  try dsimp only
  repeat' first | (simp [hide_ite, *]; done) | split

@[simp] theorem hide_thawTakes (W : Touch) (f : FlashView) (by_ : Nat) (p : Bytes) (b : Block) (hW : W.run ∧ W.link ∧ W.rng ∧ W.key ∧ W.bbram ∧ W.evr ∧ W.dev ∧ W.pins ∧ W.boot ∧ W.flt ∧ W.rcd ∧ W.wdg ∧ W.out) :
    hide W (thawTakes f by_ p b).2 = hide W b := by
  unfold thawTakes
  try dsimp only
  repeat' first | (simp [hide_ite, *]; done) | split

@[simp] theorem hide_thawEnds (W : Touch) (by_ : Nat) (p : Bytes) (b : Block) (hW : W.boot) :
    hide W (thawEnds by_ p b).2 = hide W b := by
  unfold thawEnds
  try dsimp only
  repeat' first | (simp [hide_ite, *]; done) | split

@[simp] theorem hide_thawDone (W : Touch) (had : Bool) (b : Block) (hW : W.run ∧ W.link ∧ W.q ∧ W.work ∧ W.vlt ∧ W.ste ∧ W.sce ∧ W.dge ∧ W.pke ∧ W.rng ∧ W.key ∧ W.bbram ∧ W.evr ∧ W.dev ∧ W.pins ∧ W.pwr ∧ W.kpr ∧ W.tmp ∧ W.otp ∧ W.boot ∧ W.flt ∧ W.rcd ∧ W.wdg ∧ W.leg ∧ W.mon ∧ W.sb ∧ W.out) :
    hide W (thawDone had b) = hide W b := by
  unfold thawDone; simp [hide_ite, *]

@[simp] theorem hide_thawStatus (W : Touch) (by_ : Nat) (p : Bytes) (b : Block) :
    hide W (thawStatus by_ p b).2 = hide W b := by
  unfold thawStatus
  (try dsimp only)
  repeat' first
    | rfl
    | (simp (maxDischargeDepth := 6) [hide_ite, *]; done)
    | split

@[simp] theorem hide_chunkRun (W : Touch) (f : Block → Block) (b : Block) (hf0 : ∀ y0, hide W (f y0) = hide W y0) :
    hide W (chunkRun f b) = hide W b := by
  unfold chunkRun; simp [hide_ite, *]

@[simp] theorem hide_clearRecovery (W : Touch) (cls : Nat) (b : Block) (hW : W.key ∧ W.bbram) :
    hide W (clearRecovery cls b) = hide W b := by
  unfold clearRecovery; simp [hide_ite, *]

@[simp] theorem hide_onAct (W : Touch) (job : Nat) (f : Activation → Activation) (b : Block) (hW : W.flt) :
    hide W (onAct job f b) = hide W b := by
  unfold onAct; simp [hide_ite, *]

@[simp] theorem hide_actEnds (W : Touch) (h : HsmJob) (f : Block → Block) (b : Block) (hW : W.link ∧ W.q ∧ W.work ∧ W.vlt ∧ W.ste ∧ W.sce ∧ W.dge ∧ W.rng ∧ W.key ∧ W.bbram ∧ W.evr ∧ W.dev ∧ W.pins ∧ W.flt ∧ W.out) (hf0 : ∀ y0, hide W (f y0) = hide W y0) :
    hide W (actEnds h f b) = hide W b := by
  unfold actEnds; simp [hide_ite, *]

@[simp] theorem hide_actFails (W : Touch) (h : HsmJob) (code : Nat) (x0 : Block) (hW : W.link ∧ W.q ∧ W.work ∧ W.vlt ∧ W.ste ∧ W.sce ∧ W.dge ∧ W.rng ∧ W.key ∧ W.bbram ∧ W.evr ∧ W.dev ∧ W.pins ∧ W.kpr ∧ W.flt ∧ W.mon ∧ W.out) :
    hide W (actFails h code x0) = hide W x0 := by
  unfold actFails; simp [hide_ite, *]

@[simp] theorem hide_actMarkerFails (W : Touch) (h : HsmJob) (x0 : Block) (hW : W.link ∧ W.q ∧ W.work ∧ W.vlt ∧ W.ste ∧ W.sce ∧ W.dge ∧ W.rng ∧ W.key ∧ W.bbram ∧ W.evr ∧ W.dev ∧ W.pins ∧ W.kpr ∧ W.flt ∧ W.mon ∧ W.out) :
    hide W (actMarkerFails h x0) = hide W x0 := by
  unfold actMarkerFails; simp [hide_ite, *]

@[simp] theorem hide_actRead (W : Touch) (h : HsmJob) (a : Activation) (step : ActStep) (addr : Nat) (n : Nat) (b : Block) (hW : W.link ∧ W.q ∧ W.work ∧ W.vlt ∧ W.ste ∧ W.sce ∧ W.dge ∧ W.rng ∧ W.key ∧ W.bbram ∧ W.evr ∧ W.dev ∧ W.pins ∧ W.kpr ∧ W.flt ∧ W.mon ∧ W.out) :
    hide W (actRead h a step addr n b) = hide W b := by
  unfold actRead
  try dsimp only
  repeat' first | (simp [hide_ite, *]; done) | split

@[simp] theorem hide_actImagePart (W : Touch) (h : HsmJob) (a : Activation) (m : Bytes) (b : Block) (hW : W.link ∧ W.q ∧ W.work ∧ W.vlt ∧ W.ste ∧ W.sce ∧ W.dge ∧ W.rng ∧ W.key ∧ W.bbram ∧ W.evr ∧ W.dev ∧ W.pins ∧ W.kpr ∧ W.flt ∧ W.mon ∧ W.out) :
    hide W (actImagePart h a m b) = hide W b := by
  unfold actImagePart; simp [hide_ite, *]

@[simp] theorem hide_actJudge (W : Touch) (h : HsmJob) (a : Activation) (b : Block) (hW : W.link ∧ W.q ∧ W.work ∧ W.vlt ∧ W.ste ∧ W.sce ∧ W.dge ∧ W.rng ∧ W.key ∧ W.bbram ∧ W.evr ∧ W.dev ∧ W.pins ∧ W.kpr ∧ W.flt ∧ W.mon ∧ W.out) :
    hide W (actJudge h a b) = hide W b := by
  unfold actJudge
  try dsimp only
  repeat' first | (simp [hide_ite, *]; done) | split

@[simp] theorem hide_actNext (W : Touch) (h : HsmJob) (a : Activation) (b : Block) (hW : W.link ∧ W.q ∧ W.work ∧ W.vlt ∧ W.ste ∧ W.sce ∧ W.dge ∧ W.rng ∧ W.key ∧ W.bbram ∧ W.evr ∧ W.dev ∧ W.pins ∧ W.kpr ∧ W.flt ∧ W.mon ∧ W.out) :
    hide W (actNext h a b) = hide W b := by
  unfold actNext
  try dsimp only
  repeat' first | (simp [hide_ite, *]; done) | split

@[simp] theorem hide_actImage (W : Touch) (h : HsmJob) (a : Activation) (m : Bytes) (b : Block) (hW : W.link ∧ W.q ∧ W.work ∧ W.vlt ∧ W.ste ∧ W.sce ∧ W.dge ∧ W.rng ∧ W.key ∧ W.bbram ∧ W.evr ∧ W.dev ∧ W.pins ∧ W.kpr ∧ W.flt ∧ W.mon ∧ W.out) :
    hide W (actImage h a m b) = hide W b := by
  unfold actImage
  try dsimp only
  repeat' first | (simp [hide_ite, *]; done) | split

@[simp] theorem hide_actDone (W : Touch) (h : HsmJob) (a : Activation) (b : Block) (hW : W.link ∧ W.q ∧ W.work ∧ W.vlt ∧ W.ste ∧ W.sce ∧ W.dge ∧ W.rng ∧ W.key ∧ W.bbram ∧ W.evr ∧ W.dev ∧ W.pins ∧ W.kpr ∧ W.flt ∧ W.mon ∧ W.out) :
    hide W (actDone h a b) = hide W b := by
  unfold actDone; simp [hide_ite, *]

@[simp] theorem hide_actDir (W : Touch) (h : HsmJob) (a : Activation) (data : Bytes) (b : Block) (hW : W.link ∧ W.q ∧ W.work ∧ W.vlt ∧ W.ste ∧ W.sce ∧ W.dge ∧ W.rng ∧ W.key ∧ W.bbram ∧ W.evr ∧ W.dev ∧ W.pins ∧ W.kpr ∧ W.flt ∧ W.mon ∧ W.out) :
    hide W (actDir h a data b) = hide W b := by
  unfold actDir
  try dsimp only
  repeat' first | (simp [hide_ite, *]; done) | split

@[simp] theorem hide_actStep (W : Touch) (job : Nat) (data : Bytes) (ok : Bool) (b : Block) (hW : W.link ∧ W.q ∧ W.work ∧ W.vlt ∧ W.ste ∧ W.sce ∧ W.dge ∧ W.rng ∧ W.key ∧ W.bbram ∧ W.evr ∧ W.dev ∧ W.pins ∧ W.kpr ∧ W.flt ∧ W.mon ∧ W.out) :
    hide W (actStep job data ok b) = hide W b := by
  unfold actStep
  try dsimp only
  repeat' first | (simp [hide_ite, *]; done) | split

@[simp] theorem hide_actBegins (W : Touch) (job : Nat) (b : Block) (hW : W.link ∧ W.q ∧ W.work ∧ W.vlt ∧ W.ste ∧ W.sce ∧ W.dge ∧ W.rng ∧ W.key ∧ W.bbram ∧ W.evr ∧ W.dev ∧ W.pins ∧ W.kpr ∧ W.flt ∧ W.mon ∧ W.out) :
    hide W (actBegins job b) = hide W b := by
  unfold actBegins
  try dsimp only
  repeat' first | (simp [hide_ite, *]; done) | split

@[simp] theorem hide_bootActivate (W : Touch) (h : HsmJob) (b : Block) (hW : W.link ∧ W.q ∧ W.work ∧ W.vlt ∧ W.ste ∧ W.sce ∧ W.dge ∧ W.rng ∧ W.key ∧ W.bbram ∧ W.evr ∧ W.dev ∧ W.pins ∧ W.kpr ∧ W.flt ∧ W.mon ∧ W.out) :
    hide W (bootActivate h b) = hide W b := by
  unfold bootActivate
  dsimp only
  repeat' first
    | (simp [hW]; done)
    | (rename_i e; have e := congrArg (fun r => hide W r.2.2) e; simp [hW] at e; simp [hW, ← e]; done)
    | (rename_i e _; have e := congrArg (fun r => hide W r.2.2) e; simp [hW] at e; simp [hW, ← e]; done)
    | split

@[simp] theorem hide_flashDone (W : Touch) (p : Nat) (data : Bytes) (ok : Bool) (b : Block) (hW : W.link ∧ W.q ∧ W.work ∧ W.vlt ∧ W.ste ∧ W.sce ∧ W.dge ∧ W.rng ∧ W.key ∧ W.bbram ∧ W.evr ∧ W.dev ∧ W.pins ∧ W.kpr ∧ W.flt ∧ W.mon ∧ W.out) :
    hide W (flashDone p data ok b) = hide W b := by
  unfold flashDone
  first
  | (simp (maxDischargeDepth := 6) [hide_ite, *]; done)
  | ((try dsimp only)
     repeat' first
      | (simp (maxDischargeDepth := 6) [hide_ite, *]; done)
      | (simp [hide, *]; done)
      | split
      | (refine hide_foldl W _ ?_ _ _; intro c x)
      | (refine (hide_foldl W _ ?_ _ _).trans ?_; focus intro c x))

@[simp] theorem hide_timePasses (W : Touch) (b : Block) (hW : W.link ∧ W.q ∧ W.work ∧ W.vlt ∧ W.ste ∧ W.sce ∧ W.dge ∧ W.pke ∧ W.rng ∧ W.key ∧ W.bbram ∧ W.evr ∧ W.dev ∧ W.pins ∧ W.pwr ∧ W.out) :
    hide W (timePasses b) = hide W b := by
  unfold timePasses; simp [hide_ite, *]

@[simp] theorem hide_idleStep (W : Touch) (b : Block) (hW : W.time ∧ W.link ∧ W.q ∧ W.work ∧ W.vlt ∧ W.ste ∧ W.sce ∧ W.dge ∧ W.pke ∧ W.rng ∧ W.key ∧ W.bbram ∧ W.evr ∧ W.dev ∧ W.pins ∧ W.pwr ∧ W.kpr ∧ W.flt ∧ W.mon ∧ W.out) :
    hide W (idleStep b) = hide W b := by
  unfold idleStep; simp [hide_ite, *]

@[simp] theorem hide_updateKeeper (W : Touch) (f : FlashView) (h : HsmJob) (b : Block) (hW : W.link ∧ W.q ∧ W.work ∧ W.vlt ∧ W.sce ∧ W.pke ∧ W.key ∧ W.bbram ∧ W.evr ∧ W.dev ∧ W.pins ∧ W.kpr ∧ W.mon ∧ W.out) :
    hide W (updateKeeper f h b) = hide W b := by
  unfold updateKeeper
  try dsimp only
  repeat' first | (simp [hide_ite, *]; done) | split

@[simp] theorem hide_updateRun (W : Touch) (f : FlashView) (id : Nat) (b : Block) (hW : W.link ∧ W.q ∧ W.work ∧ W.vlt ∧ W.ste ∧ W.sce ∧ W.dge ∧ W.pke ∧ W.rng ∧ W.key ∧ W.bbram ∧ W.evr ∧ W.dev ∧ W.pins ∧ W.kpr ∧ W.mon ∧ W.out) :
    hide W (updateRun f id b) = hide W b := by
  unfold updateRun
  try dsimp only
  repeat' first | (simp [hide_ite, *]; done) | split

@[simp] theorem hide_keeperSwitch (W : Touch) (f : FlashView) (b : Block) (hW : W.run ∧ W.link ∧ W.q ∧ W.work ∧ W.vlt ∧ W.ste ∧ W.sce ∧ W.dge ∧ W.pke ∧ W.rng ∧ W.key ∧ W.bbram ∧ W.evr ∧ W.dev ∧ W.pins ∧ W.pwr ∧ W.kept ∧ W.kpr ∧ W.tmp ∧ W.otp ∧ W.boot ∧ W.flt ∧ W.rcd ∧ W.wdg ∧ W.leg ∧ W.mon ∧ W.sb ∧ W.out) :
    hide W (keeperSwitch f b) = hide W b := by
  unfold keeperSwitch
  try dsimp only
  repeat' first | (simp [hide_ite, *]; done) | split

@[simp] theorem hide_onConn (W : Touch) (via : SpdmVia) (f : SpdmConn → SpdmConn) (b : Block) (hW : W.rcd) :
    hide W (onConn via f b) = hide W b := by
  unfold onConn; simp [hide_ite, *]

@[simp] theorem hide_onSession (W : Touch) (sid : Nat) (f : SpdmSession → SpdmSession) (b : Block) (hW : W.rcd) :
    hide W (onSession sid f b) = hide W b := by
  unfold onSession; simp [hide_ite, *]

@[simp] theorem hide_sealed (W : Touch) (sid : Nat) (b : Block) (hW : W.rcd) :
    hide W (sealed sid b) = hide W b := by
  unfold sealed; simp [hide_ite, *]

@[simp] theorem hide_doeSend (W : Touch) (kind : Nat) (body : Bytes) (b : Block) (hW : W.link ∧ W.out) :
    hide W (doeSend kind body b) = hide W b := by
  unfold doeSend; simp [hide_ite, *]

@[simp] theorem hide_spdmSend (W : Touch) (via : SpdmVia) (body : Bytes) (b : Block) (hW : W.link ∧ W.rcd ∧ W.out) :
    hide W (spdmSend via body b) = hide W b := by
  unfold spdmSend
  try dsimp only
  repeat' first | (simp [hide_ite, *]; done) | split

@[simp] theorem hide_tookRecord (W : Touch) (via : SpdmVia) (b : Block) (hW : W.rcd) :
    hide W (tookRecord via b) = hide W b := by
  unfold tookRecord
  try dsimp only
  repeat' first | (simp [hide_ite, *]; done) | split

@[simp] theorem hide_spdmAnswer (W : Touch) (via : SpdmVia) (versionOk : Bool) (f : Block → Bytes × Block) (b : Block) (hW : W.link ∧ W.rcd ∧ W.out) (hf0 : ∀ y0, hide W (f y0).2 = hide W y0) :
    hide W (spdmAnswer via versionOk f b) = hide W b := by
  unfold spdmAnswer; simp [hide_ite, *]

@[simp] theorem hide_spdmRun (W : Touch) (code : Nat) (via : SpdmVia) (wire : Bytes) (f : Bytes → Block → Bytes × Block) (b : Block) (hW : W.link ∧ W.rcd ∧ W.out) (hf0 : ∀ y0 y1, hide W (f y0 y1).2 = hide W y1) :
    hide W (spdmRun code via wire f b) = hide W b := by
  unfold spdmRun
  try dsimp only
  repeat' first | (simp [hide_ite, *]; done) | split

@[simp] theorem hide_spdmVersion (W : Touch) (via : SpdmVia) (req : Bytes) (b : Block) (hW : W.rcd) :
    hide W (spdmVersion via req b).2 = hide W b := by
  unfold spdmVersion
  try dsimp only
  repeat' first | (simp [hide_ite, *]; done) | split

@[simp] theorem hide_spdmCapabilities (W : Touch) (via : SpdmVia) (req : Bytes) (b : Block) (hW : W.rcd) :
    hide W (spdmCapabilities via req b).2 = hide W b := by
  unfold spdmCapabilities
  try dsimp only
  repeat' first | (simp [hide_ite, *]; done) | split

@[simp] theorem hide_spdmAlgorithms (W : Touch) (via : SpdmVia) (req : Bytes) (b : Block) (hW : W.rcd) :
    hide W (spdmAlgorithms via req b).2 = hide W b := by
  unfold spdmAlgorithms
  try dsimp only
  repeat' first | (simp [hide_ite, *]; done) | split

@[simp] theorem hide_noteB (W : Touch) (via : SpdmVia) (req : Bytes) (rsp : Bytes) (b : Block) (hW : W.rcd) :
    hide W (noteB via req rsp b) = hide W b := by
  unfold noteB; simp [hide_ite, *]

@[simp] theorem hide_spdmDigests (W : Touch) (via : SpdmVia) (req : Bytes) (b : Block) (hW : W.rcd) :
    hide W (spdmDigests via req b).2 = hide W b := by
  unfold spdmDigests
  try dsimp only
  repeat' first | (simp [hide_ite, *]; done) | split

@[simp] theorem hide_spdmCertificate (W : Touch) (via : SpdmVia) (req : Bytes) (b : Block) (hW : W.rcd) :
    hide W (spdmCertificate via req b).2 = hide W b := by
  unfold spdmCertificate
  try dsimp only
  repeat' first | (simp [hide_ite, *]; done) | split

@[simp] theorem hide_spdmSign (W : Touch) (context : String) (transcript : Bytes) (b : Block) (hW : W.link ∧ W.pke ∧ W.rng ∧ W.key ∧ W.bbram ∧ W.evr ∧ W.dev ∧ W.pins ∧ W.out) :
    hide W (spdmSign context transcript b).2 = hide W b := by
  unfold spdmSign
  try dsimp only
  repeat' first | (simp [hide_ite, *]; done) | split

@[simp] theorem hide_spdmChallenge (W : Touch) (via : SpdmVia) (req : Bytes) (b : Block) (hW : W.link ∧ W.pke ∧ W.rng ∧ W.key ∧ W.bbram ∧ W.evr ∧ W.dev ∧ W.pins ∧ W.rcd ∧ W.out) :
    hide W (spdmChallenge via req b).2 = hide W b := by
  unfold spdmChallenge
  try dsimp only
  repeat' first | (simp [hide_ite, *]; done) | split

@[simp] theorem hide_spdmMeasurements (W : Touch) (via : SpdmVia) (req : Bytes) (b : Block) (hW : W.link ∧ W.pke ∧ W.rng ∧ W.key ∧ W.bbram ∧ W.evr ∧ W.dev ∧ W.pins ∧ W.rcd ∧ W.out) :
    hide W (spdmMeasurements via req b).2 = hide W b := by
  unfold spdmMeasurements
  try dsimp only
  repeat' first | (simp [hide_ite, *]; done) | split

@[simp] theorem hide_spdmExchange (W : Touch) (via : SpdmVia) (req : Bytes) (b : Block) (hW : W.link ∧ W.pke ∧ W.rng ∧ W.key ∧ W.bbram ∧ W.evr ∧ W.dev ∧ W.pins ∧ W.rcd ∧ W.out) :
    hide W (spdmExchange via req b).2 = hide W b := by
  unfold spdmExchange
  try dsimp only
  repeat' first | (simp [hide_ite, *]; done) | split

@[simp] theorem hide_endSpdmSession (W : Touch) (sid : Nat) (b : Block) (hW : W.rcd) :
    hide W (endSpdmSession sid b) = hide W b := by
  unfold endSpdmSession; simp [hide_ite, *]

@[simp] theorem hide_spdmFinish (W : Touch) (via : SpdmVia) (req : Bytes) (b : Block) (hW : W.rcd) :
    hide W (spdmFinish via req b).2 = hide W b := by
  unfold spdmFinish
  try dsimp only
  repeat' first | (simp [hide_ite, *]; done) | split

@[simp] theorem hide_spdmEnd (W : Touch) (via : SpdmVia) (b : Block) (hW : W.rcd) :
    hide W (spdmEnd via b).2 = hide W b := by
  unfold spdmEnd
  try dsimp only
  repeat' first | (simp [hide_ite, *]; done) | split

@[simp] theorem hide_spdmTake (W : Touch) (code : Nat) (via : SpdmVia) (wire : Bytes) (b : Block) (hW : W.link ∧ W.pke ∧ W.rng ∧ W.key ∧ W.bbram ∧ W.evr ∧ W.dev ∧ W.pins ∧ W.rcd ∧ W.out) :
    hide W (spdmTake code via wire b) = hide W b := by
  unfold spdmTake
  split
  · rename_i f hf
    split
    · rw [hide_spdmRun W _ _ _ _ _ (by simp [hW])]
      intro p c
      unfold spdmHandler at hf
      split at hf <;> first | (cases hf; simp [hW]; done) | (cases hf; done)
    · rfl
  · simp [hW]

@[simp] theorem hide_tdispJudge (W : Touch) (m : Bytes) (f : Bytes → Nat → Block → Bytes × Block) (b : Block) (hf0 : ∀ y0 y1 y2, hide W (f y0 y1 y2).2 = hide W y2) :
    hide W (tdispJudge m f b).2 = hide W b := by
  unfold tdispJudge
  try dsimp only
  repeat' first | (simp [hide_ite, *]; done) | split

@[simp] theorem hide_tdispRun (W : Touch) (kind : Nat) (sid : Nat) (record : Bytes) (f : Bytes → Nat → Block → Bytes × Block) (b : Block) (hW : W.link ∧ W.rcd ∧ W.out) (hf0 : ∀ y0 y1 y2, hide W (f y0 y1 y2).2 = hide W y2) :
    hide W (tdispRun kind sid record f b) = hide W b := by
  unfold tdispRun
  try dsimp only
  repeat' first | (simp [hide_ite, *]; done) | split

@[simp] theorem hide_tdispBad (W : Touch) (code : Nat) (req : Bytes) (b : Block) :
    hide W (tdispBad code req b).2 = hide W b := by
  unfold tdispBad; simp [hide_ite, *]

@[simp] theorem hide_tdispVersion (W : Touch) (req : Bytes) (u1 : Nat) (b : Block) :
    hide W (tdispVersion req u1 b).2 = hide W b := by
  unfold tdispVersion
  (try dsimp only)
  repeat' first
    | rfl
    | (simp (maxDischargeDepth := 6) [hide_ite, *]; done)
    | split

@[simp] theorem hide_tdispCapabilities (W : Touch) (req : Bytes) (u1 : Nat) (b : Block) :
    hide W (tdispCapabilities req u1 b).2 = hide W b := by
  unfold tdispCapabilities
  (try dsimp only)
  repeat' first
    | rfl
    | (simp (maxDischargeDepth := 6) [hide_ite, *]; done)
    | split

@[simp] theorem hide_tdispLock (W : Touch) (req : Bytes) (v : Nat) (b : Block) (hW : W.link ∧ W.rng ∧ W.rcd ∧ W.out) :
    hide W (tdispLock req v b).2 = hide W b := by
  unfold tdispLock
  try dsimp only
  repeat' first | (simp [hide_ite, *]; done) | split

@[simp] theorem hide_tdispReport (W : Touch) (req : Bytes) (v : Nat) (b : Block) (hW : W.link ∧ W.out) :
    hide W (tdispReport req v b).2 = hide W b := by
  unfold tdispReport
  try dsimp only
  repeat' first | (simp [hide_ite, *]; done) | split

@[simp] theorem hide_tdispState (W : Touch) (req : Bytes) (v : Nat) (b : Block) (hW : W.link ∧ W.out) :
    hide W (tdispState req v b).2 = hide W b := by
  unfold tdispState; simp [hide_ite, *]

@[simp] theorem hide_tdispStart (W : Touch) (req : Bytes) (v : Nat) (b : Block) (hW : W.link ∧ W.out) :
    hide W (tdispStart req v b).2 = hide W b := by
  unfold tdispStart
  try dsimp only
  repeat' first | (simp [hide_ite, *]; done) | split

@[simp] theorem hide_tdispStop (W : Touch) (req : Bytes) (v : Nat) (b : Block) (hW : W.link ∧ W.q ∧ W.work ∧ W.vlt ∧ W.ste ∧ W.sce ∧ W.dge ∧ W.rng ∧ W.key ∧ W.bbram ∧ W.evr ∧ W.dev ∧ W.pins ∧ W.rcd ∧ W.out) :
    hide W (tdispStop req v b).2 = hide W b := by
  unfold tdispStop
  try dsimp only
  repeat' first | (simp [hide_ite, *]; done) | split

@[simp] theorem hide_spdmUnsupported (W : Touch) (via : SpdmVia) (wire : Bytes) (b : Block) (hW : W.link ∧ W.q ∧ W.work ∧ W.vlt ∧ W.ste ∧ W.sce ∧ W.dge ∧ W.rng ∧ W.key ∧ W.bbram ∧ W.evr ∧ W.dev ∧ W.pins ∧ W.rcd ∧ W.out) :
    hide W (spdmUnsupported via wire b) = hide W b := by
  unfold spdmUnsupported
  try dsimp only
  repeat' first | (simp [hide_ite, *]; done) | split

@[simp] theorem hide_spdmAny (W : Touch) (via : SpdmVia) (wire : Bytes) (b : Block) (hW : W.link ∧ W.q ∧ W.work ∧ W.vlt ∧ W.ste ∧ W.sce ∧ W.dge ∧ W.pke ∧ W.rng ∧ W.key ∧ W.bbram ∧ W.evr ∧ W.dev ∧ W.pins ∧ W.rcd ∧ W.out) :
    hide W (spdmAny via wire b) = hide W b := by
  unfold spdmAny
  split
  · simp [hW]
  split
  · simp [hW]
  split
  · rename_i sid h heq
    rw [hide_tdispRun W _ _ _ _ _ (by simp [hW])]
    intro p s c
    obtain ⟨m, -, hm⟩ := Option.bind_eq_some_iff.mp heq
    obtain ⟨f, hf, rfl⟩ := Option.map_eq_some_iff.mp hm
    unfold tdispHandler at hf
    split at hf <;> first | (cases hf; simp [hW]; done) | (cases hf; done)
  · simp [hW]

@[simp] theorem hide_doeGo (W : Touch) (b : Block) (hW : W.link ∧ W.q ∧ W.work ∧ W.vlt ∧ W.ste ∧ W.sce ∧ W.dge ∧ W.pke ∧ W.rng ∧ W.key ∧ W.bbram ∧ W.evr ∧ W.dev ∧ W.pins ∧ W.rcd ∧ W.out) :
    hide W (doeGo b) = hide W b := by
  unfold doeGo
  try dsimp only
  repeat' first | (simp [hide_ite, *]; done) | split

@[simp] theorem hide_debugOpens (W : Touch) (h : HsmJob) (b : Block) (hW : W.run ∧ W.link ∧ W.q ∧ W.work ∧ W.vlt ∧ W.ste ∧ W.sce ∧ W.dge ∧ W.rng ∧ W.key ∧ W.bbram ∧ W.evr ∧ W.dev ∧ W.pins ∧ W.kpr ∧ W.leg ∧ W.mon ∧ W.out) :
    hide W (debugOpens h b) = hide W b := by
  unfold debugOpens; simp [hide_ite, *]

@[simp] theorem hide_debugUnlock (W : Touch) (h : HsmJob) (b : Block) (hW : W.run ∧ W.link ∧ W.q ∧ W.work ∧ W.vlt ∧ W.ste ∧ W.sce ∧ W.dge ∧ W.rng ∧ W.key ∧ W.bbram ∧ W.evr ∧ W.dev ∧ W.pins ∧ W.kpr ∧ W.otp ∧ W.leg ∧ W.mon ∧ W.out) :
    hide W (debugUnlock h b) = hide W b := by
  unfold debugUnlock
  try dsimp only
  repeat' first | (simp [hide_ite, *]; done) | split

@[simp] theorem hide_countRefusal (W : Touch) (id : Nat) (before : Block) (b : Block) (hW : W.mon) :
    hide W (countRefusal id before b) = hide W b := by
  unfold countRefusal; simp [hide_ite, *]

@[simp] theorem hide_debugRun (W : Touch) (id : Nat) (b : Block) (hW : W.run ∧ W.link ∧ W.q ∧ W.work ∧ W.vlt ∧ W.ste ∧ W.sce ∧ W.dge ∧ W.rng ∧ W.key ∧ W.bbram ∧ W.evr ∧ W.dev ∧ W.pins ∧ W.kpr ∧ W.otp ∧ W.leg ∧ W.mon ∧ W.out) :
    hide W (debugRun id b) = hide W b := by
  unfold debugRun; simp [hide_ite, *]

@[simp] theorem hide_readOnly (W : Touch) (blk : Nat) (off : Nat) (v : Word) (b : Block) (hW : W.link ∧ W.dev ∧ W.out) :
    hide W (readOnly blk off v b) = hide W b := by
  unfold readOnly
  try dsimp only
  repeat' first | (simp [hide_ite, *]; done) | split

@[simp] theorem hide_irqCauseWrite (W : Touch) (v : Word) (recur : Word) (b : Block) (hW : W.link ∧ W.dev ∧ W.out) :
    hide W (irqCauseWrite v recur b) = hide W b := by
  unfold irqCauseWrite; simp [hide_ite, *]

@[simp] theorem hide_irqEnableWrite (W : Touch) (v : Word) (b : Block) (hW : W.link ∧ W.dev ∧ W.out) :
    hide W (irqEnableWrite v b) = hide W b := by
  unfold irqEnableWrite; simp [hide_ite, *]

@[simp] theorem hide_linkStatusWrite (W : Touch) (v : Word) (recur : Word) (x0 : Block) (hW : W.link ∧ W.dev ∧ W.out) :
    hide W (linkStatusWrite v recur x0) = hide W x0 := by
  unfold linkStatusWrite; simp [hide_ite, *]

@[simp] theorem hide_linkCtrlWrite (W : Touch) (v : Word) (x0 : Block) (hW : W.link ∧ W.dev ∧ W.out) :
    hide W (linkCtrlWrite v x0) = hide W x0 := by
  unfold linkCtrlWrite; simp [hide_ite, *]

@[simp] theorem hide_unitStatusWrite (W : Touch) (v : Word) (recur : Word) (x0 : Block) (hW : W.link ∧ W.dev ∧ W.pwr ∧ W.out) :
    hide W (unitStatusWrite v recur x0) = hide W x0 := by
  unfold unitStatusWrite; simp [hide_ite, *]

@[simp] theorem hide_fltWrite (W : Touch) (off : Nat) (v : Word) (recur : Word) (b : Block) (hW : W.link ∧ W.key ∧ W.bbram ∧ W.evr ∧ W.dev ∧ W.pins ∧ W.flt ∧ W.out) :
    hide W (fltWrite off v recur b) = hide W b := by
  unfold fltWrite; simp [hide_ite, *]

@[simp] theorem hide_vltCfgWrite (W : Touch) (v : Word) (x0 : Block) (hW : W.link ∧ W.q ∧ W.work ∧ W.vlt ∧ W.ste ∧ W.sce ∧ W.dge ∧ W.rng ∧ W.key ∧ W.bbram ∧ W.evr ∧ W.dev ∧ W.pins ∧ W.out) :
    hide W (vltCfgWrite v x0) = hide W x0 := by
  unfold vltCfgWrite; simp [hide_ite, *]

@[simp] theorem hide_dgeStatusWrite (W : Touch) (leg : Bool) (v : Word) (recur : Word) (x0 : Block) (hW : W.link ∧ W.dge ∧ W.dev ∧ W.leg ∧ W.out) :
    hide W (dgeStatusWrite leg v recur x0) = hide W x0 := by
  unfold dgeStatusWrite; simp (maxDischargeDepth := 6) [hide_ite, *]

@[simp] theorem hide_dgeWrite (W : Touch) (leg : Bool) (off : Nat) (v : Word) (recur : Word) (b : Block) (hW : W.link ∧ W.dge ∧ W.dev ∧ W.leg ∧ W.out) :
    hide W (dgeWrite leg off v recur b) = hide W b := by
  unfold dgeWrite
  try dsimp only
  repeat' first | (simp (maxDischargeDepth := 6) [hide_ite, *]; done) | (simp [hide, *]; done) | split

@[simp] theorem hide_sceWrite (W : Touch) (off : Nat) (v : Word) (b : Block) (hW : W.link ∧ W.q ∧ W.work ∧ W.vlt ∧ W.ste ∧ W.sce ∧ W.dge ∧ W.rng ∧ W.key ∧ W.bbram ∧ W.evr ∧ W.dev ∧ W.pins ∧ W.out) :
    hide W (sceWrite off v b) = hide W b := by
  unfold sceWrite
  try dsimp only
  repeat' first | (simp [hide_ite, *]; done) | split

@[simp] theorem hide_steWrite (W : Touch) (off : Nat) (v : Word) (b : Block) (hW : W.link ∧ W.q ∧ W.work ∧ W.vlt ∧ W.ste ∧ W.sce ∧ W.dge ∧ W.rng ∧ W.key ∧ W.bbram ∧ W.evr ∧ W.dev ∧ W.pins ∧ W.out) :
    hide W (steWrite off v b) = hide W b := by
  unfold steWrite; simp [hide_ite, *]

@[simp] theorem hide_wdgWrite (W : Touch) (off : Nat) (v : Word) (b : Block) (hW : W.run ∧ W.link ∧ W.q ∧ W.work ∧ W.vlt ∧ W.ste ∧ W.sce ∧ W.dge ∧ W.pke ∧ W.rng ∧ W.key ∧ W.bbram ∧ W.evr ∧ W.dev ∧ W.pins ∧ W.pwr ∧ W.kept ∧ W.kpr ∧ W.tmp ∧ W.otp ∧ W.boot ∧ W.flt ∧ W.rcd ∧ W.wdg ∧ W.leg ∧ W.mon ∧ W.sb ∧ W.out) :
    hide W (wdgWrite off v b) = hide W b := by
  unfold wdgWrite
  try dsimp only
  repeat' first | (simp [hide_ite, *]; done) | split

@[simp] theorem hide_evrWrite (W : Touch) (off : Nat) (v : Word) (recur : Word) (b : Block) (hW : W.link ∧ W.evr ∧ W.dev ∧ W.out) :
    hide W (evrWrite off v recur b) = hide W b := by
  unfold evrWrite; simp [hide_ite, *]

@[simp] theorem hide_tmpWrite (W : Touch) (off : Nat) (v : Word) (b : Block) (hW : W.link ∧ W.dev ∧ W.tmp ∧ W.out) :
    hide W (tmpWrite off v b) = hide W b := by
  unfold tmpWrite; simp [hide_ite, *]

@[simp] theorem hide_blockWrite (W : Touch) (blk : Nat) (off : Nat) (v : Word) (recur : Word) (b : Block) (hW : W.run ∧ W.link ∧ W.q ∧ W.work ∧ W.vlt ∧ W.ste ∧ W.sce ∧ W.dge ∧ W.pke ∧ W.rng ∧ W.key ∧ W.bbram ∧ W.evr ∧ W.dev ∧ W.pins ∧ W.pwr ∧ W.kept ∧ W.kpr ∧ W.tmp ∧ W.otp ∧ W.boot ∧ W.flt ∧ W.rcd ∧ W.wdg ∧ W.leg ∧ W.mon ∧ W.sb ∧ W.out) :
    hide W (blockWrite blk off v recur b) = hide W b := by
  unfold blockWrite
  try dsimp only
  repeat' first | (simp [hide_ite, *]; done) | split

@[simp] theorem hide_adminRegWrite (W : Touch) (off : Nat) (v : Word) (recur : Word) (x0 : Block) (hW : W.link ∧ W.q ∧ W.work ∧ W.vlt ∧ W.ste ∧ W.sce ∧ W.dge ∧ W.rng ∧ W.key ∧ W.bbram ∧ W.evr ∧ W.dev ∧ W.pins ∧ W.rcd ∧ W.leg ∧ W.out) :
    hide W (adminRegWrite off v recur x0) = hide W x0 := by
  unfold adminRegWrite
  try dsimp only
  repeat' first | (simp [hide_ite, *]; done) | split

@[simp] theorem hide_pageWrite (W : Touch) (fn : Nat) (page : Nat) (off : Nat) (v : Word) (recur : Word) (b : Block) (hW : W.link ∧ W.q ∧ W.work ∧ W.vlt ∧ W.ste ∧ W.sce ∧ W.dge ∧ W.rng ∧ W.key ∧ W.bbram ∧ W.evr ∧ W.dev ∧ W.pins ∧ W.rcd ∧ W.leg ∧ W.out) :
    hide W (pageWrite fn page off v recur b) = hide W b := by
  have go : ∀ (m : Nat) (g : Nat → Block → Block) (c : Block), (∀ d e, hide W (g d e) = hide W e) →
      hide W (barWrite fn (fun b => if b.run.state = .frozen then rsvdWrite b
        else match pageDqn b fn page with
          | none => rsvdWrite b
          | some d => g d (if v.toNat &&& m ≠ 0 then rsvdWrite b else b)) c) = hide W c := by
    intro m g c hg
    refine hide_barWrite W _ _ _ (by simp [hW]) ?_
    intro d
    split
    · simp [hW]
    split
    · simp [hW]
    · rw [hg]; split <;> simp [hW]
  unfold pageWrite
  dsimp only
  split
  · simp [hW]
  · simp [hW]
  · refine go _ (fun d b => if bit v.toNat 5 && !bit recur.toNat 5 then onSq d (fun s => { s with dbIgnored := false }) b else b) b ?_
    intro d e
    split <;> simp [hW]
  · refine go _ (fun d b => if bit v.toNat 4 && !bit recur.toNat 4 then onCq d (fun c => { c with headInvalid := false }) b else b) b ?_
    intro d e
    split <;> simp [hW]
  · exact go 0 (fun _ b => b) b (fun _ _ => rfl)
  · exact go 0 (fun _ b => b) b (fun _ _ => rfl)
  · split
    · simp [hW]
    · refine go 0 (fun _ b => rsvdWrite b) b ?_
      intro d e
      simp [hW]

@[simp] theorem hide_msixWrite (W : Touch) (fn : Nat) (off : Nat) (v : Word) (b : Block) (hW : W.link ∧ W.out) :
    hide W (msixWrite fn off v b) = hide W b := by
  unfold msixWrite
  try dsimp only
  repeat' first | (simp [hide_ite, *]; done) | split

@[simp] theorem hide_legLockWrite (W : Touch) (w : Nat) (off : Nat) (v : Word) (recur : Word) (b : Block) (hW : W.link ∧ W.q ∧ W.work ∧ W.vlt ∧ W.ste ∧ W.sce ∧ W.dge ∧ W.rng ∧ W.key ∧ W.bbram ∧ W.evr ∧ W.dev ∧ W.pins ∧ W.leg ∧ W.out) :
    hide W (legLockWrite w off v recur b) = hide W b := by
  unfold legLockWrite
  try dsimp only
  repeat' first | (simp [hide_ite, *]; done) | split

@[simp] theorem hide_legSetup (W : Touch) (resv : Nat) (v : Word) (f : LegRegs → LegRegs) (x0 : Block) (hW : W.link ∧ W.dev ∧ W.leg ∧ W.out) :
    hide W (legSetup resv v f x0) = hide W x0 := by
  unfold legSetup; simp [hide_ite, *]

@[simp] theorem hide_legScWrite (W : Touch) (off : Nat) (v : Word) (b : Block) (hW : W.link ∧ W.q ∧ W.work ∧ W.vlt ∧ W.ste ∧ W.sce ∧ W.dge ∧ W.rng ∧ W.key ∧ W.bbram ∧ W.evr ∧ W.dev ∧ W.pins ∧ W.leg ∧ W.out) :
    hide W (legScWrite off v b) = hide W b := by
  unfold legScWrite; simp [hide_ite, *]

@[simp] theorem hide_legRegWrite (W : Touch) (off : Nat) (v : Word) (recur : Word) (b : Block) (hW : W.run ∧ W.link ∧ W.q ∧ W.work ∧ W.vlt ∧ W.ste ∧ W.sce ∧ W.dge ∧ W.pke ∧ W.rng ∧ W.key ∧ W.bbram ∧ W.evr ∧ W.dev ∧ W.pins ∧ W.pwr ∧ W.kept ∧ W.kpr ∧ W.tmp ∧ W.otp ∧ W.boot ∧ W.flt ∧ W.rcd ∧ W.wdg ∧ W.leg ∧ W.mon ∧ W.sb ∧ W.out) :
    hide W (legRegWrite off v recur b) = hide W b := by
  unfold legRegWrite
  try dsimp only
  repeat' first | (simp [hide_ite, *]; done) | split

@[simp] theorem hide_pf0RegWrite (W : Touch) (off : Nat) (v : Word) (recur : Word) (b : Block) (hW : W.run ∧ W.link ∧ W.q ∧ W.work ∧ W.vlt ∧ W.ste ∧ W.sce ∧ W.dge ∧ W.pke ∧ W.rng ∧ W.key ∧ W.bbram ∧ W.evr ∧ W.dev ∧ W.pins ∧ W.pwr ∧ W.kept ∧ W.kpr ∧ W.tmp ∧ W.otp ∧ W.boot ∧ W.flt ∧ W.rcd ∧ W.wdg ∧ W.leg ∧ W.mon ∧ W.sb ∧ W.out) :
    hide W (pf0RegWrite off v recur b) = hide W b := by
  unfold pf0RegWrite; simp [hide_ite, *]

@[simp] theorem hide_vfRegWrite (W : Touch) (fn : Nat) (off : Nat) (v : Word) (recur : Word) (b : Block) (hW : W.link ∧ W.q ∧ W.work ∧ W.vlt ∧ W.ste ∧ W.sce ∧ W.dge ∧ W.rng ∧ W.key ∧ W.bbram ∧ W.evr ∧ W.dev ∧ W.pins ∧ W.rcd ∧ W.leg ∧ W.out) :
    hide W (vfRegWrite fn off v recur b) = hide W b := by
  unfold vfRegWrite; simp [hide_ite, *]

@[simp] theorem hide_bar0Write (W : Touch) (fn : Nat) (off : Nat) (v : Word) (recur : Word) (b : Block) (hW : W.run ∧ W.link ∧ W.q ∧ W.work ∧ W.vlt ∧ W.ste ∧ W.sce ∧ W.dge ∧ W.pke ∧ W.rng ∧ W.key ∧ W.bbram ∧ W.evr ∧ W.dev ∧ W.pins ∧ W.pwr ∧ W.kept ∧ W.kpr ∧ W.tmp ∧ W.otp ∧ W.boot ∧ W.flt ∧ W.rcd ∧ W.wdg ∧ W.leg ∧ W.mon ∧ W.sb ∧ W.out) :
    hide W (bar0Write fn off v recur b) = hide W b := by
  unfold bar0Write; simp [hide_ite, *]

@[simp] theorem hide_onCfg (W : Touch) (f : PciCfg → PciCfg) (b : Block) (hW : W.link) :
    hide W (onCfg f b) = hide W b := by
  unfold onCfg; simp [hide_ite, *]

@[simp] theorem hide_sriovWrite (W : Touch) (off : Nat) (v : Nat) (b : Block) (hW : W.link ∧ W.q ∧ W.work ∧ W.vlt ∧ W.ste ∧ W.sce ∧ W.dge ∧ W.rng ∧ W.key ∧ W.bbram ∧ W.evr ∧ W.dev ∧ W.pins ∧ W.rcd ∧ W.out) :
    hide W (sriovWrite off v b) = hide W b := by
  unfold sriovWrite
  try dsimp only
  repeat' first | (simp [hide_ite, *]; done) | split

@[simp] theorem hide_devCtrlWrite (W : Touch) (fn : Nat) (v : Nat) (b : Block) (hW : W.link ∧ W.q ∧ W.work ∧ W.vlt ∧ W.ste ∧ W.sce ∧ W.dge ∧ W.rng ∧ W.key ∧ W.bbram ∧ W.evr ∧ W.dev ∧ W.pins ∧ W.rcd ∧ W.leg ∧ W.out) :
    hide W (devCtrlWrite fn v b) = hide W b := by
  unfold devCtrlWrite; simp [hide_ite, *]

@[simp] theorem hide_doeWrite (W : Touch) (off : Nat) (v : Nat) (b : Block) (hW : W.link ∧ W.q ∧ W.work ∧ W.vlt ∧ W.ste ∧ W.sce ∧ W.dge ∧ W.pke ∧ W.rng ∧ W.key ∧ W.bbram ∧ W.evr ∧ W.dev ∧ W.pins ∧ W.rcd ∧ W.out) :
    hide W (doeWrite off v b) = hide W b := by
  unfold doeWrite
  try dsimp only
  repeat' first | (simp [hide_ite, *]; done) | split

@[simp] theorem hide_pf0ConfigWrite (W : Touch) (off : Nat) (n : Nat) (b : Block) (hW : W.link ∧ W.q ∧ W.work ∧ W.vlt ∧ W.ste ∧ W.sce ∧ W.dge ∧ W.pke ∧ W.rng ∧ W.key ∧ W.bbram ∧ W.evr ∧ W.dev ∧ W.pins ∧ W.rcd ∧ W.out) :
    hide W (pf0ConfigWrite off n b) = hide W b := by
  unfold pf0ConfigWrite
  try dsimp only
  repeat' first | (simp [hide_ite, *]; done) | split

@[simp] theorem hide_configWrite (W : Touch) (fn : Nat) (off : Nat) (v : Word) (b : Block) (hW : W.link ∧ W.q ∧ W.work ∧ W.vlt ∧ W.ste ∧ W.sce ∧ W.dge ∧ W.pke ∧ W.rng ∧ W.key ∧ W.bbram ∧ W.evr ∧ W.dev ∧ W.pins ∧ W.rcd ∧ W.leg ∧ W.out) :
    hide W (configWrite fn off v b) = hide W b := by
  unfold configWrite; simp [hide_ite, *]

@[simp] theorem hide_legLockRead (W : Touch) (w : Nat) (off : Nat) (b : Block) (hW : W.leg) :
    hide W (legLockRead w off b).2 = hide W b := by
  unfold legLockRead
  try dsimp only
  repeat' first | (simp [hide_ite, *]; done) | split

@[simp] theorem hide_legRegRead (W : Touch) (off : Nat) (b : Block) (hW : W.link ∧ W.q ∧ W.work ∧ W.vlt ∧ W.ste ∧ W.sce ∧ W.dge ∧ W.rng ∧ W.key ∧ W.bbram ∧ W.evr ∧ W.dev ∧ W.pins ∧ W.leg ∧ W.out) :
    hide W (legRegRead off b).2 = hide W b := by
  unfold legRegRead
  try dsimp only
  repeat' first | (simp [hide_ite, *]; done) | split

@[simp] theorem hide_pf0Reg (W : Touch) (off : Nat) (b : Block) (hW : W.link ∧ W.ste ∧ W.dge ∧ W.rng ∧ W.evr ∧ W.leg ∧ W.out) :
    hide W (pf0Reg off b).2 = hide W b := by
  unfold pf0Reg
  try dsimp only
  repeat' first | (simp [hide_ite, *]; done) | split

@[simp] theorem hide_pf0Word (W : Touch) (off : Nat) (b : Block) (hW : W.link ∧ W.q ∧ W.work ∧ W.vlt ∧ W.ste ∧ W.sce ∧ W.dge ∧ W.rng ∧ W.key ∧ W.bbram ∧ W.evr ∧ W.dev ∧ W.pins ∧ W.leg ∧ W.out) :
    hide W (pf0Word off b).2 = hide W b := by
  unfold pf0Word
  try dsimp only
  repeat' first | (simp [hide_ite, *]; done) | split

@[simp] theorem hide_vfWord (W : Touch) (fn : Nat) (off : Nat) (b : Block) (hW : W.link ∧ W.out) :
    hide W (vfWord fn off b).2 = hide W b := by
  unfold vfWord
  try dsimp only
  repeat' first | (simp [hide_ite, *]; done) | split

@[simp] theorem hide_barWord (W : Touch) (fn : Nat) (off : Nat) (b : Block) (hW : W.link ∧ W.q ∧ W.work ∧ W.vlt ∧ W.ste ∧ W.sce ∧ W.dge ∧ W.rng ∧ W.key ∧ W.bbram ∧ W.evr ∧ W.dev ∧ W.pins ∧ W.leg ∧ W.out) :
    hide W (barWord fn off b).2 = hide W b := by
  unfold barWord
  try dsimp only
  repeat' first | (simp [hide_ite, *]; done) | split

@[simp] theorem hide_barRead (W : Touch) (fn : Nat) (off : Nat) (wide : Bool) (b : Block) (hW : W.link ∧ W.q ∧ W.work ∧ W.vlt ∧ W.ste ∧ W.sce ∧ W.dge ∧ W.rng ∧ W.key ∧ W.bbram ∧ W.evr ∧ W.dev ∧ W.pins ∧ W.leg ∧ W.out) :
    hide W (barRead fn off wide b) = hide W b := by
  unfold barRead; simp [hide_ite, *]

@[simp] theorem hide_configRead (W : Touch) (fn : Nat) (off : Nat) (b : Block) (hW : W.link ∧ W.out) :
    hide W (configRead fn off b) = hide W b := by
  unfold configRead; simp [hide_ite, *]

@[simp] theorem hide_registerWrite (W : Touch) (fn : Nat) (space : RegSpace) (off : Nat) (value : Word) (rest : WriteRest) (b : Block) (hW : W.run ∧ W.link ∧ W.q ∧ W.work ∧ W.vlt ∧ W.ste ∧ W.sce ∧ W.dge ∧ W.pke ∧ W.rng ∧ W.key ∧ W.bbram ∧ W.evr ∧ W.dev ∧ W.pins ∧ W.pwr ∧ W.kept ∧ W.kpr ∧ W.tmp ∧ W.otp ∧ W.boot ∧ W.flt ∧ W.rcd ∧ W.wdg ∧ W.leg ∧ W.mon ∧ W.sb ∧ W.out) :
    hide W (registerWrite fn space off value rest b) = hide W b := by
  unfold registerWrite
  try dsimp only
  repeat' first | (simp [hide_ite, *]; done) | split

@[simp] theorem hide_registerRead (W : Touch) (r : RegRead) (b : Block) (hW : W.link ∧ W.q ∧ W.work ∧ W.vlt ∧ W.ste ∧ W.sce ∧ W.dge ∧ W.rng ∧ W.key ∧ W.bbram ∧ W.evr ∧ W.dev ∧ W.pins ∧ W.leg ∧ W.out) :
    hide W (registerRead r b) = hide W b := by
  unfold registerRead
  try dsimp only
  repeat' first | (simp [hide_ite, *]; done) | split

@[simp] theorem hide_autobaud (W : Touch) (rate : Nat) (b : Block) (hW : W.link ∧ W.mon ∧ W.out) :
    hide W (autobaud rate b) = hide W b := by
  unfold autobaud
  try dsimp only
  repeat' first | (simp [hide_ite, *]; done) | split

@[simp] theorem hide_breakLine (W : Touch) (b : Block) (hW : W.link ∧ W.mon ∧ W.out) :
    hide W (breakLine b) = hide W b := by
  unfold breakLine; simp [hide_ite, *]

@[simp] theorem hide_frameGap (W : Touch) (b : Block) (hW : W.link ∧ W.mon ∧ W.out) :
    hide W (frameGap b) = hide W b := by
  unfold frameGap; simp [hide_ite, *]

@[simp] theorem hide_monIdent (W : Touch) (b : Block) (hW : W.link ∧ W.work ∧ W.out) :
    hide W (monIdent b).2 = hide W b := by
  unfold monIdent
  try dsimp only
  repeat' first | (simp [hide_ite, *]; done) | split

@[simp] theorem hide_monRead (W : Touch) (off : Nat) (b : Block) (hW : W.link ∧ W.ste ∧ W.rng ∧ W.evr ∧ W.out) :
    hide W (monRead off b).2 = hide W b := by
  unfold monRead
  try dsimp only
  repeat' first | (simp [hide_ite, *]; done) | split

@[simp] theorem hide_monReads (W : Touch) (p : Bytes) (b : Block) (hW : W.link ∧ W.ste ∧ W.rng ∧ W.evr ∧ W.out) :
    hide W (monReads p b).2 = hide W b := by
  unfold monReads
  try dsimp only
  repeat' first | (simp [hide_ite, *]; done) | split

@[simp] theorem hide_monWrite (W : Touch) (p : Bytes) (b : Block) (hW : W.run ∧ W.link ∧ W.q ∧ W.work ∧ W.vlt ∧ W.ste ∧ W.sce ∧ W.dge ∧ W.pke ∧ W.rng ∧ W.key ∧ W.bbram ∧ W.evr ∧ W.dev ∧ W.pins ∧ W.pwr ∧ W.kept ∧ W.kpr ∧ W.tmp ∧ W.otp ∧ W.boot ∧ W.flt ∧ W.rcd ∧ W.wdg ∧ W.leg ∧ W.mon ∧ W.sb ∧ W.out) :
    hide W (monWrite p b).2 = hide W b := by
  unfold monWrite
  try dsimp only
  repeat' first | (simp [hide_ite, *]; done) | split

@[simp] theorem hide_monUnit (W : Touch) (tag : Nat) (p : Bytes) (b : Block) (hW : W.link ∧ W.q ∧ W.work ∧ W.vlt ∧ W.ste ∧ W.sce ∧ W.dge ∧ W.rng ∧ W.key ∧ W.bbram ∧ W.evr ∧ W.dev ∧ W.pins ∧ W.pwr ∧ W.leg ∧ W.mon ∧ W.out) :
    hide W (monUnit tag p b).2 = hide W b := by
  unfold monUnit
  try dsimp only
  repeat' first | (simp [hide_ite, *]; done) | split

@[simp] theorem hide_monCommand (W : Touch) (code : Nat) (tag : Nat) (p : Bytes) (b : Block) (hW : W.run ∧ W.link ∧ W.q ∧ W.work ∧ W.vlt ∧ W.ste ∧ W.sce ∧ W.dge ∧ W.pke ∧ W.rng ∧ W.key ∧ W.bbram ∧ W.evr ∧ W.dev ∧ W.pins ∧ W.pwr ∧ W.kept ∧ W.kpr ∧ W.tmp ∧ W.otp ∧ W.boot ∧ W.flt ∧ W.rcd ∧ W.wdg ∧ W.leg ∧ W.mon ∧ W.sb ∧ W.out) :
    hide W (monCommand code tag p b).2 = hide W b := by
  unfold monCommand
  try dsimp only
  repeat' first | (simp [hide_ite, *]; done) | split

@[simp] theorem hide_switchMode (W : Touch) (code : Nat) (mode : MonMode) (a : MonAnswer) (b : Block) (hW : W.link ∧ W.mon ∧ W.out) :
    hide W (switchMode code mode a b) = hide W b := by
  unfold switchMode; simp [hide_ite, *]

@[simp] theorem hide_monFrame (W : Touch) (code : Nat) (body : Bytes) (b : Block) (hW : W.run ∧ W.link ∧ W.q ∧ W.work ∧ W.vlt ∧ W.ste ∧ W.sce ∧ W.dge ∧ W.pke ∧ W.rng ∧ W.key ∧ W.bbram ∧ W.evr ∧ W.dev ∧ W.pins ∧ W.pwr ∧ W.kept ∧ W.kpr ∧ W.tmp ∧ W.otp ∧ W.boot ∧ W.flt ∧ W.rcd ∧ W.wdg ∧ W.leg ∧ W.mon ∧ W.sb ∧ W.out) :
    hide W (monFrame code body b) = hide W b := by
  unfold monFrame
  apply hide_frameRun
  · simp [hW]
  · intro t p c
    (try dsimp only)
    repeat' first
      | (simp (maxDischargeDepth := 6) [hide_ite, *]; done)
      | (simp [hide, *]; done)
      | split

@[simp] theorem hide_monHsm (W : Touch) (tag : Nat) (p : Bytes) (b : Block) (hW : W.link ∧ W.q ∧ W.work ∧ W.vlt ∧ W.sce ∧ W.key ∧ W.bbram ∧ W.evr ∧ W.dev ∧ W.pins ∧ W.kpr ∧ W.mon ∧ W.out) :
    hide W (monHsm tag p b) = hide W b := by
  unfold monHsm; simp [hide_ite, *]

@[simp] theorem hide_sayLines (W : Touch) (lines : List Bytes) (b : Block) (hW : W.out) :
    hide W (sayLines lines b) = hide W b := by
  unfold sayLines; simp [hide_ite, *]

@[simp] theorem hide_refuseLine (W : Touch) (st : Nat) (b : Block) (hW : W.mon ∧ W.out) :
    hide W (refuseLine st b) = hide W b := by
  unfold refuseLine; simp [hide_ite, *]

@[simp] theorem hide_lineRun (W : Touch) (line : Bytes) (b : Block) (hW : W.run ∧ W.link ∧ W.q ∧ W.work ∧ W.vlt ∧ W.ste ∧ W.sce ∧ W.dge ∧ W.pke ∧ W.rng ∧ W.key ∧ W.bbram ∧ W.evr ∧ W.dev ∧ W.pins ∧ W.pwr ∧ W.kept ∧ W.kpr ∧ W.tmp ∧ W.otp ∧ W.boot ∧ W.flt ∧ W.rcd ∧ W.wdg ∧ W.leg ∧ W.mon ∧ W.sb ∧ W.out) :
    hide W (lineRun line b) = hide W b := by
  unfold lineRun
  try dsimp only
  repeat' first | (simp [hide_ite, *]; done) | split

@[simp] theorem hide_takeLine (W : Touch) (text : Bytes) (b : Block) (hW : W.run ∧ W.link ∧ W.q ∧ W.work ∧ W.vlt ∧ W.ste ∧ W.sce ∧ W.dge ∧ W.pke ∧ W.rng ∧ W.key ∧ W.bbram ∧ W.evr ∧ W.dev ∧ W.pins ∧ W.pwr ∧ W.kept ∧ W.kpr ∧ W.tmp ∧ W.otp ∧ W.boot ∧ W.flt ∧ W.rcd ∧ W.wdg ∧ W.leg ∧ W.mon ∧ W.sb ∧ W.out) :
    hide W (takeLine text b) = hide W b := by
  unfold takeLine; simp [hide_ite, *]

@[simp] theorem hide_takeAddress (W : Touch) (setdasa : Bool) (target : Nat) (addr : Nat) (b : Block) (hW : W.sb) :
    hide W (takeAddress setdasa target addr b) = hide W b := by
  unfold takeAddress; simp [hide_ite, *]

end Sys2Proof.Machine
end

