-- ==== Sys2Proof/WellFormed.lean ====
section
/-! DEFINITION. Well-formed commands: an operand that numbers a function, a unit or a queue is a number the spec gives one of those. The
machine gives every command a meaning, well-formed or not; these are the commands that the outside can send. -/

namespace Sys2Proof

/-- A function number: PF0 is 0, the VFs 1 to 255 (R187, R188). -/
def fnNumber (n : Nat) : Bool := decide (n ≤ 255)
/-- A stream lane (R1): 0 to 7. -/
def laneNumber (n : Nat) : Bool := decide (n < 8)
/-- A session core (R1): 0 to 63. -/
def coreNumber (n : Nat) : Bool := decide (n < 64)
/-- A digest pipeline (R350): 0 to 5. -/
def pipeNumber (n : Nat) : Bool := decide (n < 6)
/-- A link module (R183): 0 or 1. -/
def moduleNumber (n : Nat) : Bool := decide (n < 2)
/-- An MSI-X vector (R193): 0 to 2,047. -/
def vectorNumber (n : Nat) : Bool := decide (n < 2048)
/-- A device queue number (R207): 0 to 65,535. -/
def queueNumber (n : Nat) : Bool := decide (n < 65536)
/-- A queue page (R209). -/
def pageNumber (n : Nat) : Bool := decide (n < 65536)
/-- The length of an access in bytes. -/
def accessLength (n : Nat) : Bool := decide (0 < n) && decide (n ≤ 4096)

/-- Every operand of the command is in its range. -/
def wellFormed : Instr → Bool
  | .supplyThresholdCrossing _ _ => true
  | .powerGoodFall => true
  | .romEntry _ => true
  | .hostRelease => true
  | .sysRstNRecognised => true
  | .sysRstNRise => true
  | .vbatLow _ => true
  | .sfdpTimeout _ => true
  | .flashOpComplete _ _ _ => true
  | .listenWindowExpiry _ => true
  | .thawOffer _ _ => true
  | .thawChunk _ => true
  | .thawEnd _ _ => true
  | .thawStatus _ => true
  | .thawOfferTimeout => true
  | .rootRevoke _ => true
  | .bootActivate _ _ => true
  | .lcsGetNonce _ => true
  | .lcsAdvance _ => true
  | .lcsDrainComplete _ => true
  | .transitionReset => true
  | .tokenRootRevoke _ => true
  | .otpProgram _ => true
  | .nonceExpiry => true
  | .hostBootWindowRead _ len => accessLength len
  | .bootWindowWrite _ => true
  | .mbxRead _ => true
  | .mbxProgram _ => true
  | .mbxErase4K _ => true
  | .mbxErase64K _ => true
  | .spitRead _ _ _ _ => true
  | .spitProgram _ _ _ => true
  | .spitErase _ _ => true
  | .spitReadStatus _ => true
  | .spitWriteEnable _ => true
  | .spitWriteDisable _ => true
  | .spitReadSfdp _ _ _ => true
  | .spitReadId _ => true
  | .spitReset _ => true
  | .spitOpcodeRefused _ => true
  | .getRecord _ _ => true
  | .getCert _ => true
  | .attest _ => true
  | .recordGet _ _ => true
  | .certGet _ => true
  | .mctpAttest _ => true
  | .harvestGet _ => true
  | .getVersion _ _ => true
  | .getCapabilities _ _ => true
  | .negotiateAlgorithms _ _ => true
  | .getDigests _ _ => true
  | .getCertificate _ _ => true
  | .challenge _ _ => true
  | .getMeasurements _ _ => true
  | .spdmUnsupportedRequest _ _ => true
  | .keyExchange _ _ => true
  | .finish _ _ => true
  | .endSession _ _ => true
  | .getTdispVersion _ _ => true
  | .getTdispCapabilities _ _ => true
  | .lockInterfaceRequest _ _ => true
  | .getDeviceInterfaceReport _ _ => true
  | .getDeviceInterfaceState _ _ => true
  | .startInterfaceRequest _ _ => true
  | .stopInterfaceRequest _ _ => true
  | .tdiConfigViolation fn => fnNumber fn
  | .linkTrained _ _ _ _ => true
  | .moduleTrainTimeout m => moduleNumber m
  | .retrain => true
  | .dlDown => true
  | .refclkLoss => true
  | .hotReset => true
  | .vfFunctionLevelReset fn => fnNumber fn
  | .pf0FunctionLevelReset => true
  | .vfEnableClear => true
  | .busMasterEnableClear fn => fnNumber fn
  | .busMasterEnableSet fn => fnNumber fn
  | .d3hotEntry fn => fnNumber fn
  | .d0Entry fn => fnNumber fn
  | .hostReadCompletion _ _ _ => true
  | .completionTimeout _ _ _ => true
  | .unsupportedRequest _ _ => true
  | .poisonedBarWrite fn => fnNumber fn
  | .badWidthAccess fn _ _ len => fnNumber fn && accessLength len
  | .hostPwrgdMsg _ => true
  | .hostPwrgdPinChange _ => true
  | .hostPwrgdFall => true
  | .hostPwrgdStable => true
  | .sidebandAck _ => true
  | .hostResetResend => true
  | .msixUnmask fn vec => fnNumber fn && vectorNumber vec
  | .sqDoorbell fn page _ => fnNumber fn && pageNumber page
  | .cqHeadWrite fn page _ => fnNumber fn && pageNumber page
  | .descriptorFetch => true
  | .drainEntry dqn => queueNumber dqn
  | .adminEnable => true
  | .createSq _ => true
  | .createCq _ => true
  | .disableSq _ => true
  | .deleteSq _ => true
  | .deleteCq _ => true
  | .queryQueue _ => true
  | .setWeight _ => true
  | .getHarvest _ => true
  | .setPowerCap _ => true
  | .fenceAll _ => true
  | .xtsEnc _ => true
  | .xtsDec _ => true
  | .gcmEnc _ => true
  | .gcmDec _ => true
  | .ccmEnc _ => true
  | .ccmDec _ => true
  | .chachaPolyEnc _ => true
  | .chachaPolyDec _ => true
  | .ctr _ => true
  | .cbcEnc _ => true
  | .cbcDec _ => true
  | .cmac _ => true
  | .digest _ => true
  | .hmac _ => true
  | .kmac _ => true
  | .digestCompare _ => true
  | .ctxLoad _ => true
  | .unwrapDone _ => true
  | .ctxEvict _ => true
  | .contextUseEnd _ => true
  | .ctxPin _ => true
  | .ctxUnpin _ => true
  | .rngFill _ => true
  | .fence _ => true
  | .nop _ => true
  | .laneAssign => true
  | .keyBankIdleExpiry lane _ => laneNumber lane
  | .steLaneFenceWrite _ => true
  | .sessionDispatch => true
  | .sessionPartDone core => coreNumber core
  | .parkTimeout core => coreNumber core
  | .pendingPark => true
  | .messageAbandon dqn _ => queueNumber dqn
  | .holdWaitTimeout _ => true
  | .coreKeyIdleExpiry core => coreNumber core
  | .sceCoreFenceWrite _ _ => true
  | .sceParkTimeoutWrite _ => true
  | .sceAbandonTimeoutWrite _ => true
  | .dgeRmStart _ _ => true
  | .dgeRmDataWrite _ _ => true
  | .dgeRmFinal _ _ => true
  | .dgeRmAbort _ _ => true
  | .rmDigestDone => true
  | .dgeRmResultRead _ _ => true
  | .pkPublic _ => true
  | .pkSign _ => true
  | .pkVerify _ => true
  | .pkAgree _ => true
  | .kemEncap _ => true
  | .kemDecap _ => true
  | .pkeJobDone _ => true
  | .rngStartupDone _ => true
  | .rngHealthFail _ => true
  | .rngReseedTimer _ => true
  | .rngConsumerTimeout _ => true
  | .rngRawRead => true
  | .keyGenerate _ => true
  | .keyDerive _ => true
  | .importSession _ => true
  | .importSessionExpiry => true
  | .importBlobClear _ => true
  | .importSlotClear _ => true
  | .slotGenerate _ => true
  | .slotErase _ => true
  | .slotStatus _ => true
  | .keyblockImport _ => true
  | .keyblockExport _ => true
  | .kwpExport _ => true
  | .blobRewrap _ => true
  | .eqxOpen _ => true
  | .eqxApprove _ => true
  | .eqxStatus _ => true
  | .eqxClose _ => true
  | .sessionExpiry _ => true
  | .ownerCreate _ => true
  | .ownerUpdate _ => true
  | .ownerDelete _ => true
  | .fnBind _ => true
  | .fnUnbind _ => true
  | .domainCreate _ => true
  | .domainOffer _ => true
  | .offerExpiry => true
  | .domainSponsor _ => true
  | .domainJoin _ => true
  | .domainSend _ => true
  | .domainReceive _ => true
  | .domainRotate _ => true
  | .domainRetire _ => true
  | .domainRevoke _ => true
  | .domainLeave _ => true
  | .harvestClear _ => true
  | .debugUnlock _ => true
  | .updateKeeper _ _ => true
  | .updateKeeperSwitch _ => true
  | .tamperTrigger _ => true
  | .tmpCfgApply _ => true
  | .frostStatus _ => true
  | .frostNonce _ => true
  | .frostNonceExpiry => true
  | .frostRelease _ => true
  | .frostReleaseReset => true
  | .engineAlarm _ => true
  | .unitSelfTestDone _ _ => true
  | .unitReset _ => true
  | .quiesceAck _ _ => true
  | .governorDecision _ => true
  | .avsAck _ => true
  | .avsFault _ => true
  | .wdgCfgWrite _ _ => true
  | .wdgPHostcfgWrite _ => true
  | .wdgCheckin _ _ _ _ => true
  | .wdgWindowOpen _ => true
  | .wdgPeriodEnd _ _ => true
  | .keeperRestartPeriodTimeout => true
  | .hostResetPulseEnd => true
  | .powerCyclePulseEnd => true
  | .wdgHardTimeout _ => true
  | .healthyRunComplete _ => true
  | .tokenRefill _ => true
  | .countsCommitTimer => true
  | .smbusAlertResponse => true
  | .devIrqCauseWrite _ _ => true
  | .devIrqEnableWrite _ => true
  | .registerWrite fn _ _ _ _ => fnNumber fn
  | .legLock _ _ => true
  | .legUnlock _ _ => true
  | .leaseExpiry _ => true
  | .basicCoreReserved => true
  | .legScStart _ => true
  | .legScAbort _ => true
  | .legScDataInWrite _ => true
  | .legScDataOutRead => true
  | .legRngDataRead => true
  | .legWdgKick _ _ _ => true
  | .legWdgCfgWrite _ => true
  | .autobaud _ => true
  | .breakChar => true
  | .monitorLine _ => true
  | .frameGapTimeout => true
  | .help _ => true
  | .status _ => true
  | .ident _ => true
  | .read _ => true
  | .cell _ => true
  | .hsmBlock _ => true
  | .framed _ => true
  | .write _ => true
  | .unitrst _ => true
  | .klog _ => true
  | .batteryDomainPowerUp _ => true
  | .vbatReturn _ => true
  | .sidebandComesUp => true
  | .smbusClockLowTimeout => true
  | .dynamicAddressAssignment _ _ _ => true
  | .laneDescriptorEnd lane => laneNumber lane
  | .digestDescriptorEnd pipe => pipeNumber pipe
  | .latchingLoRead read => fnNumber read.fn

end Sys2Proof
end

