-- ==== Sys2Proof/Tests/Slice0.lean ====
section
/-! SUPPORT. Tests of the model, each about one step or one condition on a small block, and the witnesses that the hypotheses of the statements
can be met. Every state is built from the reset block by the helpers that stand first. -/

open Claims

namespace Sys2Proof.Tests

open Sys2Proof Sys2Proof.Machine Sys2Proof.Claims

set_option maxRecDepth 20000
set_option Elab.async false

/-! ### Helpers -/

/-- `n` bytes, zero but for little-endian fields given as offset, width, value. -/
def fields (n : Nat) (l : List (Nat × Nat × Nat)) : Bytes := l.foldl (fun bs p => patch bs p.1 (lePut p.2.1 p.2.2)) (zeros n)

/-- PF0 as its driver sets it up: it may issue requests, with MSI-X off. -/
def pf0 : FnState := { FnState.fresh with bme := true }

/-- A block in SERVICE: link up, random source ready, owner keys of no domain, the vault ready, no OTP programmed. -/
def serving : Block :=
  { Block.reset with
    run := { Block.reset.run with state := .service }
    link := { LinkSt.reset with phase := .active, vfEnable := true, numVfs := 4, fns := [(0, pf0), (1, pf0)] }
    rng := { RngSt.reset 0 0 0 with state := .ready, inst0 := true, inst1 := true }
    key := { KeySt.reset with deviceRoot := some (zeros 32), localRoot := some (zeros 32), keks := [(0, zeros 32)], blobLimit := 4096 }
    vlt := { VaultSt.reset 64 with ready := true }
    otp := { OtpSt.shipped with cells := [], shadow := [], vaultDie := [0, 0, 0] } }

/-- A state with nothing waiting. -/
def st (b : Block) : State := { blk := b, pending := [] }

/-- An I/O pair 256 and an admin pair 0 of PF0, both ACTIVE with rings of 16. -/
def queues (b : Block) : Block :=
  onSq 256 (fun q => { q with weight := 4 })
    (createSq 256 0 256 256 0x10000 4 1 4 0 (createCq 256 0 256 0x20000 4 0 false
      (createSq 0 0 0 0 0x30000 4 16 1 0 (createCq 0 0 0 0x40000 4 0 false b))))

/-- A descriptor of an opcode with fields. -/
def desc (op : Nat) (l : List (Nat × Nat × Nat)) : Bytes := fields 64 ((0, 1, op) :: l)

/-- Descriptor 7, read from SQ 256 of PF0. -/
def ioJob (op : Nat) (l : List (Nat × Nat × Nat)) : Job := Job.fresh 7 256 0 256 false (desc op l)

/-- Descriptor 7, read from PF0's admin SQ. -/
def adminJob (op : Nat) (l : List (Nat × Nat × Nat)) : Job := Job.fresh 7 0 0 0 false (desc op l)

/-- The block with a descriptor in flight. -/
def withJob (j : Job) (b : Block) : Block := b.onWork (fun w => { w with jobs := w.jobs ++ [j], nextJob := j.id + 1 })

/-- What a state with one command at its front has sent after one step. -/
def sent (c : Instr) (b : Block) : List Out :=
  match step { blk := b, pending := [c] } with
  | .next t => t.blk.out
  | _ => []

/-- The block after one step with one command. -/
def after (c : Instr) (b : Block) : Block :=
  match step { blk := b, pending := [c] } with
  | .next t => t.blk
  | _ => b

/-! ### Well-formedness: each check refuses an ill-formed command -/

theorem test_wellFormed_refuses_function_256 : wellFormed (.poisonedBarWrite 256) = false := by decide
theorem test_wellFormed_refuses_lane_8 : wellFormed (.laneDescriptorEnd 8) = false := by decide
theorem test_wellFormed_refuses_core_64 : wellFormed (.sessionPartDone 64) = false := by decide
theorem test_wellFormed_refuses_pipeline_6 : wellFormed (.digestDescriptorEnd 6) = false := by decide
theorem test_wellFormed_refuses_module_2 : wellFormed (.moduleTrainTimeout 2) = false := by decide
theorem test_wellFormed_refuses_vector_2048 : wellFormed (.msixUnmask 0 2048) = false := by decide
theorem test_wellFormed_refuses_queue_65536 : wellFormed (.drainEntry 65536) = false := by decide
theorem test_wellFormed_refuses_page_65536 : wellFormed (.sqDoorbell 0 65536 0) = false := by decide
theorem test_wellFormed_refuses_empty_access : wellFormed (.hostBootWindowRead 0 0) = false := by decide
theorem test_wellFormed_takes_the_last_function : wellFormed (.poisonedBarWrite 255) = true := by decide
/-! ### Work queues -/

/-- SQ 256 with 4 accepted and unread descriptors. -/
def fed : Block := onSq 256 (fun q => { q with tail := 4 }) (queues serving)

theorem witness_doorbell_reaches : PageReach fed 0 256 256 := by unfold PageReach; decide +kernel
theorem witness_doorbell_clauses : (sqOf (queues serving) 256).state = .active ∧ (sqOf serving 256).state ≠ .active ∧
    (16 : Nat) - ((sqOf fed 256).tail - (sqOf fed 256).head).toNat = 12 := by decide +kernel
/-- R212, R223: a tail of 17 is more than the 16 slots: ERROR, and the SQ drains, which with nothing unread ends at once. -/
theorem test_doorbell_overrun : (sqOf (after (.sqDoorbell 0 256 17) (queues serving)) 256).error = true ∧
    (sqOf (after (.sqDoorbell 0 256 17) (queues serving)) 256).state = .disabled := by decide +kernel
/-- R212: a full ring is accepted. -/
theorem test_doorbell_full : (sqOf (after (.sqDoorbell 0 256 16) (queues serving)) 256).tail = 16 := by decide +kernel

/-- CQ 256 with two entries written, for SQ 256. -/
def written : Block := onSq 256 (fun q => { q with held := 2 })
  (onCq 256 (fun c => { c with written := 2, owners := [some 256, some 256] }) (queues serving))

theorem witness_release_reaches : PageReach written 0 256 256 ∧ (cqOf written 256).active = true := by unfold PageReach; decide +kernel
/-- R216: releasing both entries gives both credits back; a third is refused. -/
theorem test_release_two : (sqOf (after (.cqHeadWrite 0 256 2) written) 256).held = 0 := by decide +kernel
theorem test_release_three : (cqOf (after (.cqHeadWrite 0 256 3) written) 256).headInvalid = true := by decide +kernel

theorem witness_fetch : arbitrate fed = some (256, 4) := by decide +kernel
/-- R213: the four descriptors of the turn are read at once, 256 bytes from the base. -/
theorem test_fetch_four : sent .descriptorFetch fed = [.hostRead 256 0 false 0x10000 256] := by decide +kernel

/-- SQ 256 draining with one unread descriptor. -/
def draining : Block := onSq 256 (fun q => { q with state := .draining, tail := 1 }) (queues serving)

theorem witness_drain : (sqOf draining 256).state = .draining ∧ 0 < unread (sqOf draining 256) ∧ (sqOf draining 256).reading = 0 ∧
    canReserve draining 256 = true ∧ canRead draining (sqOf draining 256).fn = true := by decide +kernel

/-- The admin set-up registers good: rings of 16, aligned bases. -/
def adminSet : Block := serving.onQ (fun q => { q with admin := { q.admin with cfg := 0x0404 } })

theorem witness_admin_enable : adminSet.q.admin.ready = false ∧ adminCfgOk adminSet.q.admin = true ∧ adminCfgOk serving.q.admin = false := by
  decide +kernel
/-- R234: 2^3 slots are too few. -/
theorem test_admin_ring_of_8 : adminCfgOk { serving.q.admin with cfg := 0x0403 } = false := by decide +kernel

/-- An admin command of each kind with operands that no refusal meets, with queue 256 disabled for DELETE_SQ and no SQ for DELETE_CQ. -/
def adminCases : List (Nat × List (Nat × Nat × Nat) × Block) :=
  [(0x80, [(0x04, 2, 257), (0x06, 1, 4), (0x08, 8, 0x50000), (0x20, 2, 256), (0x22, 2, 1), (0x24, 1, 1)], queues serving),
   (0x81, [(0x04, 2, 257), (0x06, 1, 4), (0x08, 8, 0x50000)], queues serving),
   (0x82, [(0x04, 2, 256)], queues serving),
   (0x83, [(0x04, 2, 256)], onSq 256 (fun q => { q with state := .disabled }) (queues serving)),
   (0x84, [(0x04, 2, 256)], dropSq 256 (queues serving)),
   (0x85, [(0x04, 2, 256), (0x18, 8, 0x60000)], queues serving),
   (0x86, [(0x04, 2, 256), (0x24, 1, 9)], queues serving),
   (0x87, [(0x18, 8, 0x60000), (0x28, 4, 196672)], queues serving),
   (0x88, [(0x30, 2, 440)], queues serving),
   (0x89, [], queues serving)]

theorem witness_admin_commands : ∀ p ∈ adminCases,
    AdminReady (withJob (adminJob p.1 p.2.1) p.2.2) (adminJob p.1 p.2.1) p.1 := by
  unfold AdminReady Waiting; decide +kernel
/-- R227: SET_WEIGHT returns the old weight 4 in RESULT (bytes 24 to 31 of the entry) and the SQ has the new one. -/
theorem test_set_weight :
    (sqOf (after (.setWeight 7) (withJob (adminJob 0x86 [(0x04, 2, 256), (0x24, 1, 9)]) (queues serving))) 256).weight = 9 := by decide +kernel

/-! ### Descriptors and contexts -/

/-- A key header: type, algorithm, key bytes and usage, owner 0, for function 0, both worlds, every life-cycle state. -/
def hdr (type alg len usage : Nat) : Bytes :=
  fields 32 [(0, 4, 0x4A4B4231), (4, 1, 1), (5, 1, type), (6, 1, alg), (7, 1, len), (8, 2, usage), (0x0C, 4, 0x100), (0x10, 1, 3), (0x11, 1, 0x1F)]

/-- The attributes of a header as a slot of generation 1 holds them. -/
def attrs (h : Bytes) : Bytes :=
  slice h 5 3 ++ slice h 0x10 2 ++ [0] ++ slice h 8 4 ++ lePut 2 (hReq h % 4096) ++ slice h 0x12 2 ++ lePut 2 1 ++ slice h 0x18 8

/-- Slot 0 RESIDENT at generation 1 with a masked key of zeros under a header, and its CHECK: the handle is 0x100000. -/
def keyed (h : Bytes) (b : Block) : Block :=
  (onSlot 0 (fun v => { v with state := .resident, gen := 1, bytes := sealSlot b 0 (zeros 96 ++ attrs h) }) b).onVlt (fun v => { v with fresh := 1 })

/-- CHECK verifies in any block that keeps the slot and the CHECK key. -/
theorem sound_of {h : Bytes} {b c : Block} (hl : (attrs h).length = 24) (hv : (slotAt c 0).bytes = sealSlot b 0 (zeros 96 ++ attrs h))
    (hk : c.vlt.checkKey = b.vlt.checkKey) : slotSound c 0 = true := by
  have hb : (zeros 96 ++ attrs h).length = 0x78 := by simp [hl, zeros]
  have ht : (sealSlot b 0 (zeros 96 ++ attrs h)).take 0x78 = zeros 96 ++ attrs h := by
    unfold sealSlot; exact List.take_left' hb
  unfold slotSound
  rw [hv, ht]
  simp [sealSlot, hk]

/-- The bytes of slot 0. -/
theorem keyed_bytes (h : Bytes) (b : Block) : (slotAt (keyed h b) 0).bytes = sealSlot b 0 (zeros 96 ++ attrs h) := by
  simp [keyed, slotAt, onSlot, Block.onVlt, tgetD_tmod]

/-- The CHECK of that slot verifies. -/
theorem keyed_sound (h : Bytes) (b : Block) (j : Job) (hl : (attrs h).length = 24) : slotSound (begun (keyed h b) j) 0 = true :=
  sound_of (b := b) hl (keyed_bytes h b) rfl

/-- A context is found where the block but for CHECK allows it. -/
theorem keyed_finds {h : Bytes} {b : Block} {j : Job} (h1 : (attrs h).length = 24 ∧ resolve (begun (keyed h b) j) j.desc = .hit 0 ∧
    useChecks (touch 0 (begun (keyed h b) j)) j.fn j.world j.desc (slotAt (keyed h b) 0).header = none) : FindsContext (keyed h b) j 0 :=
  ⟨h1.2.1, keyed_sound h b j h1.1, h1.2.2⟩

/-- What `keyed_finds` asks. -/
def Fits (h : Bytes) (b : Block) (j : Job) : Prop :=
  (attrs h).length = 24 ∧ resolve (begun (keyed h b) j) j.desc = .hit 0 ∧
    useChecks (touch 0 (begun (keyed h b) j)) j.fn j.world j.desc (slotAt (keyed h b) 0).header = none

/-- Data from 0x10000 and output at 0x20000, an inline IV, and the handle of slot 0; then further fields. -/
def io (flags len param : Nat) (l : List (Nat × Nat × Nat)) : List (Nat × Nat × Nat) :=
  [(0x01, 1, flags), (0x04, 4, 0x100000), (0x10, 8, 0x10000), (0x18, 8, 0x20000), (0x20, 8, len), (0x2E, 2, param)] ++ l

/-- Each opcode that uses a context, as a one-descriptor message where it is a session opcode: the header of its key, its fields. -/
def useCases : List (Nat × Bytes × List (Nat × Nat × Nat)) :=
  [(0x01, hdr 3 1 64 0x0403, io 0x20 64 12 []), (0x02, hdr 3 1 64 0x0403, io 0x20 64 12 []),
   (0x10, hdr 2 0 32 3, io 0x2C 64 0x0C10 []), (0x11, hdr 2 0 32 3, io 0x2C 64 0x4C10 []),
   (0x12, hdr 2 0 32 3, io 0x2C 64 0x0C10 []), (0x13, hdr 2 0 32 3, io 0x2C 64 0x4C10 []),
   (0x14, hdr 4 0 32 3, io 0x2C 64 0x0C10 []), (0x15, hdr 4 0 32 3, io 0x2C 64 0x4C10 []),
   (0x18, hdr 2 0 32 3, io 0x2C 64 4 []), (0x19, hdr 2 0 32 3, io 0x2C 64 0 []), (0x1A, hdr 2 0 32 3, io 0x2C 64 0 []),
   (0x1B, hdr 2 0 32 4, io 0x0C 64 16 [])]

theorem witness_unit_descriptors : ∀ p ∈ useCases, Accepted (keyed p.2.1 (withJob (ioJob p.1 p.2.2) (queues serving))) (ioJob p.1 p.2.2) p.1 ∧
    FindsContext (keyed p.2.1 (withJob (ioJob p.1 p.2.2) (queues serving))) (ioJob p.1 p.2.2) 0 ∧ dMsg (ioJob p.1 p.2.2).desc = 0 := by
  have h : ∀ p ∈ useCases, Accepted (keyed p.2.1 (withJob (ioJob p.1 p.2.2) (queues serving))) (ioJob p.1 p.2.2) p.1 ∧
      Fits p.2.1 (withJob (ioJob p.1 p.2.2) (queues serving)) (ioJob p.1 p.2.2) ∧ dMsg (ioJob p.1 p.2.2).desc = 0 := by
    unfold Accepted Fits Waiting; decide +kernel
  exact fun p hp => ⟨(h p hp).1, keyed_finds (h p hp).2.1, (h p hp).2.2⟩

/-- HMAC, KMAC and DIGEST_COMPARE with a context. -/
def keyedDigests : List (Nat × Bytes × List (Nat × Nat × Nat)) :=
  [(0x21, hdr 5 0 32 4, io 0 64 0x11 []), (0x22, hdr 6 0 32 4, io 0 64 0x18 []), (0x23, hdr 5 0 32 4, io 0 64 0x11 [(0x18, 8, 0), (0x30, 8, 0x8000)])]

theorem witness_digests_with_a_context : ∀ p ∈ keyedDigests,
    Accepted (keyed p.2.1 (withJob (ioJob p.1 p.2.2) (queues serving))) (ioJob p.1 p.2.2) p.1 ∧
    FindsContext (keyed p.2.1 (withJob (ioJob p.1 p.2.2) (queues serving))) (ioJob p.1 p.2.2) 0 ∧ viaVault (ioJob p.1 p.2.2).desc = true := by
  have h : ∀ p ∈ keyedDigests, Accepted (keyed p.2.1 (withJob (ioJob p.1 p.2.2) (queues serving))) (ioJob p.1 p.2.2) p.1 ∧
      Fits p.2.1 (withJob (ioJob p.1 p.2.2) (queues serving)) (ioJob p.1 p.2.2) ∧ viaVault (ioJob p.1 p.2.2).desc = true := by
    unfold Accepted Fits Waiting; decide +kernel
  exact fun p hp => ⟨(h p hp).1, keyed_finds (h p hp).2.1, (h p hp).2.2⟩

/-- Every digest opcode without a context. -/
theorem witness_digests_without_a_context :
    ∀ p ∈ [(0x20, io 0 64 1 [(0x04, 4, 0)]), (0x21, io 0 64 0x11 [(0x04, 4, 0xFFFFFFFF), (0x08, 8, 0x3000), (0x28, 2, 32)]),
        (0x22, io 0 64 0x18 [(0x04, 4, 0xFFFFFFFF), (0x08, 8, 0x3000), (0x28, 2, 128)]), (0x23, io 0 64 1 [(0x04, 4, 0), (0x18, 8, 0), (0x30, 8, 0x8000)])],
      Accepted (withJob (ioJob p.1 p.2) (queues serving)) (ioJob p.1 p.2) p.1 ∧ viaVault (ioJob p.1 p.2).desc = false := by
  unfold Accepted Waiting; decide +kernel

/-- R240: KEY_LEN 129 is too long; R352: S_LEN 65 is above LEN 64, at KMAC's own row whatever the ALG. -/
theorem test_caller_key_of_129 : ownChecks .jtH48F (desc 0x21 (io 0 64 0x11 [(0x04, 4, 0xFFFFFFFF), (0x08, 8, 0x3000), (0x28, 2, 129)])) =
    some (stInvalidField, 0x28) := by decide +kernel
theorem test_hmac_code_on_kmac : ownChecks .jtH48F (desc 0x22 (io 0 64 0x11 [(0x04, 4, 0xFFFFFFFF), (0x08, 8, 0x3000), (0x28, 4, 0x40010)])) =
    some (stInvalidField, 0x2E) := by decide +kernel
/-- R238, R306: an XTS data unit of 2^8 is not allowed; R241: 8 bytes are too few. -/
theorem test_xts_unit_of_256 : ownChecks .jtH48F (desc 0x01 (io 0x20 64 8 [])) = some (stInvalidField, 0x2E) := by decide +kernel
theorem test_xts_of_8_bytes : ownChecks .jtH48F (desc 0x01 (io 0x20 8 12 [])) = some (stInvalidField, 0x20) := by decide +kernel

/-- A first, a later and an open message for MSG_ID 5, for the opcodes that take parts. -/
def partCases (flags : Nat) : List (Nat × List (Nat × Nat × Nat)) :=
  [(0x10, io flags 64 0x0C10 [(0x2C, 2, 5)]), (0x11, io flags 64 0x4C10 [(0x2C, 2, 5)]), (0x14, io flags 64 0x0C10 [(0x2C, 2, 5)]),
   (0x15, io flags 64 0x4C10 [(0x2C, 2, 5)]), (0x18, io flags 64 4 [(0x2C, 2, 5)]), (0x19, io flags 64 0 [(0x2C, 2, 5)]),
   (0x1A, io flags 64 0 [(0x2C, 2, 5)]), (0x1B, io (flags % 32) 64 16 [(0x2C, 2, 5)])]

/-- The block with a parked message for SQ 256 and MSG_ID 5. -/
def messaged (j : Job) (b : Block) : Block := b.onSce (fun x => { x with msgs := [{ Msg.opened b j with ctx := (0, 1), state := .parked }] })

theorem witness_message_parts :
    (∀ p ∈ partCases 0x24, Accepted (withJob (ioJob p.1 p.2) (queues serving)) (ioJob p.1 p.2) p.1 ∧ dMsg (ioJob p.1 p.2).desc ≠ 0 ∧
      msgOf (withJob (ioJob p.1 p.2) (queues serving)) 256 5 = none ∧ dFirst (ioJob p.1 p.2).desc = true) ∧
    (∀ p ∈ partCases 0x20, let j := ioJob p.1 (p.2 ++ [(0x28, 4, 0)])
      Accepted (messaged j (withJob j (queues serving))) j p.1 ∧ dMsg j.desc ≠ 0 ∧ dFirst j.desc = false ∧
      (msgOf (messaged j (withJob j (queues serving))) 256 5).map (·.state) = some .parked) := by
  unfold Accepted Waiting; decide +kernel
/-- R331: a first part while the MSG_ID is open ends with MESSAGE_SEQUENCE, DETAIL 2 (entry bytes 4 and 12). -/
theorem test_first_part_twice : let j := ioJob 0x18 (io 0x24 64 4 [(0x2C, 2, 5)])
    ((sent (.ctr 7) (messaged j (withJob j (queues serving)))).head?.map (fun o => match o with
      | .entryWrite _ _ a e => (a, leAt e 4 2, leAt e 12 4)
      | _ => (0, 0, 0))) = some (0x20000, 0x0302, 2) := by decide +kernel

/-- Management opcodes on slot 0. -/
theorem witness_context_management : ∀ p ∈ [(0x30, [(0x04, 4, 0x100000), (0x08, 8, 0x3000)]), (0x31, [(0x04, 4, 0x100000)]),
    (0x32, [(0x04, 4, 0x100000)]), (0x33, [(0x04, 4, 0x100000)])],
    Accepted (keyed (hdr 2 0 32 3) (withJob (ioJob p.1 p.2) (queues serving))) (ioJob p.1 p.2) p.1 ∧
    FindsContext (keyed (hdr 2 0 32 3) (withJob (ioJob p.1 p.2) (queues serving))) (ioJob p.1 p.2) 0 ∧
    inUse (keyed (hdr 2 0 32 3) (withJob (ioJob p.1 p.2) (queues serving))) 0 = false := by
  have h : ∀ p ∈ [(0x30, [(0x04, 4, 0x100000), (0x08, 8, 0x3000)]), (0x31, [(0x04, 4, 0x100000)]),
      (0x32, [(0x04, 4, 0x100000)]), (0x33, [(0x04, 4, 0x100000)])],
      Accepted (keyed (hdr 2 0 32 3) (withJob (ioJob p.1 p.2) (queues serving))) (ioJob p.1 p.2) p.1 ∧
      Fits (hdr 2 0 32 3) (withJob (ioJob p.1 p.2) (queues serving)) (ioJob p.1 p.2) ∧
      inUse (keyed (hdr 2 0 32 3) (withJob (ioJob p.1 p.2) (queues serving))) 0 = false := by
    unfold Accepted Fits Waiting; decide +kernel
  exact fun p hp => ⟨(h p hp).1, keyed_finds (h p hp).2.1, (h p hp).2.2⟩
/-- R286, R297: CTX_PIN sets PINNED of SFLAGS, CTX_UNPIN clears it; CTX_EVICT frees the slot. -/
theorem test_pinned : (slotAt (pinSlot 0 true (keyed (hdr 2 0 32 3) serving)) 0).pinned = true ∧
    (slotAt (pinSlot 0 false (keyed (hdr 2 0 32 3) serving)) 0).pinned = false := by decide +kernel
theorem test_evicted : (slotAt (eraseCtx 0 (keyed (hdr 2 0 32 3) serving)) 0).state ≠ .resident := by decide +kernel

/-- A load in its unwrap, and a slot that is EVICTING with nothing in it. -/
theorem witness_loads_and_last_uses :
    (let j := { ioJob 0x30 [] with stage := .unwrap 0 }
     jobOf (withJob j serving) 7 = some j ∧ j.stage = .unwrap 0) ∧
    (let b := onSlot 0 (fun v => { v with state := .evicting }) (keyed (hdr 2 0 32 3) serving)
     (slotAt b 0).state = .evicting ∧ inUse b 0 = false) := by decide +kernel

theorem witness_plain_opcodes :
    (∀ p ∈ [(0x7E, [(0x01, 1, 0x10)]), (0x7F, []), (0x50, [(0x18, 8, 0x20000), (0x20, 8, 64)])],
      Accepted (withJob (ioJob p.1 p.2) (queues serving)) (ioJob p.1 p.2) p.1) ∧
    (let b := withJob (ioJob 0x7F []) serving
     let j := { ioJob 0x7E [] with id := 8 }
     canStart (withJob j b) j = false) := by unfold Accepted Waiting; decide +kernel

theorem witness_completion_entry : let j := ioJob 0x7F []
    let b := withJob j (queues serving)
    (jobOf b 7 = some j ∧ j.dqn ≠ ghostQueue ∧ isSession (dOp j.desc) = false ∧ zeroing 0 = false ∧ b.link.writeCheck = false ∧
      ended j.stage = false ∧ fnHalted b j.fn = false ∧ b.link.phase = .active) ∧
    fnHalted (onFn b 0 (fun f => { f with bme := false })) j.fn = true := by decide +kernel
/-- R250: entry 16 of a ring of 16 is the first of the second pass: phase 0. -/
theorem test_phase : phaseAt 15 4 = 1 ∧ phaseAt 16 4 = 0 ∧ phaseAt 31 4 = 0 ∧ phaseAt 32 4 = 1 := by decide +kernel
/-- R203: with Bus Master Enable clear, NOP ends without its entry; setting it again writes the entry. -/
theorem test_halted_entry : let b := onFn (withJob (ioJob 0x7F []) (queues serving)) 0 (fun f => { f with bme := false })
    sent (.nop 7) b = [] ∧ (sent (.busMasterEnableSet 0) (after (.nop 7) b)).length = 1 := by decide +kernel

/-! ### Lanes, cores, pipelines -/

/-- Every lane and core admitted and idle. -/
def engines (b : Block) : Block :=
  (b.onSte (fun x => { x with lanes := x.lanes.map (fun l => { l with state := .idle, admitted := true }) })).onSce
    (fun x => { x with cores := x.cores.map (fun c => { c with state := .idle, admitted := true }) })

/-- Descriptor 7, holding slot 0, at a stage, with source data. -/
def bound (op : Nat) (l : List (Nat × Nat × Nat)) (stage : Stage) (data : Bytes) : Job :=
  { ioJob op l with hdr := if op ≤ 2 then hdr 3 1 64 0x0403 else hdr 2 0 32 3, started := true, ctx := some (0, 1), stage := stage, data := data, dst := Walk.plain 0x20000 64, outLen := 64 }

/-- An XTS descriptor pending, and one running on lane 0. -/
def xtsPending : Block :=
  (keyed (hdr 3 1 64 0x0403) (withJob (bound 0x01 (io 0x20 64 12 []) .pending []) (engines (queues serving)))).onSte (fun x => { x with pending := [7] })
def xtsRunning : Block :=
  onLane 0 (fun l => { l with running := some 7, state := .busy })
    (keyed (hdr 3 1 64 0x0403) (withJob (bound 0x01 (io 0x20 64 12 []) .running (zeros 64)) (engines (queues serving))))

/-- The key that the lane is given. -/
def xtsKey : Bytes := ctxKey xtsPending 0

/-- A descriptor whose context has stayed good takes its key. -/
theorem recheck_good {b : Block} {j : Job} (hc : j.ctx = some (0, 1)) (h : useChecks b j.fn j.world j.desc j.hdr = none ∧ (slotAt b 0).state = .resident ∧
    (slotAt b 0).gen = 1) (hs : slotSound b 0 = true) : recheck b j = .good (ctxKey b 0) := by
  unfold recheck; simp [hc, h.1, h.2.1, h.2.2, hs]

theorem witness_lane_takes : xtsPending.ste.pending = [7] ∧ jobOf xtsPending 7 = some (bound 0x01 (io 0x20 64 12 []) .pending []) ∧
    chooseLane xtsPending (0, 1) = some 0 ∧ (laneAt xtsPending 0).running = none ∧
    recheck xtsPending (bound 0x01 (io 0x20 64 12 []) .pending []) = .good xtsKey ∧ xtsKey.take 32 ≠ slice xtsKey 32 32 :=
  ⟨by decide +kernel, by decide +kernel, by decide +kernel, by decide +kernel,
    recheck_good rfl (by decide +kernel) (sound_of (b := withJob (bound 0x01 (io 0x20 64 12 []) .pending []) (engines (queues serving)))
      (by decide +kernel) (keyed_bytes _ _) rfl), by decide +kernel⟩
/-- A second descriptor of the same context goes to the lane that runs one, once its last source read is out. -/
def laneShared : Block :=
  onLane 0 (fun l => { l with running := some 8, state := .busy, bank := some ⟨0, 1, zeros 64⟩ })
    (withJob { bound 0x01 (io 0x20 64 12 []) .running (zeros 64) with id := 8 } (xtsPending.onSte (fun x =>
      { x with lanes := x.lanes.mapIdx (fun i l => if i = 0 then l else { l with admitted := false }) })))
theorem witness_lane_takes_second : chooseLane laneShared (0, 1) = some 0 ∧ (laneAt laneShared 0).running ≠ none := by decide +kernel
theorem witness_lane_ends : (laneAt xtsRunning 0).running = some 7 ∧
    jobOf xtsRunning 7 = some (bound 0x01 (io 0x20 64 12 []) .running (zeros 64)) := by decide +kernel

theorem witness_key_expiry : (engines serving).ste.lanes[7]? = some { Lane.reset with state := .idle, admitted := true } ∧
    (engines serving).sce.cores[63]? = some { CoreU.reset with state := .idle, admitted := true } := by decide +kernel
theorem witness_fences : RegReach (engines serving) (0xFFFFFFFF - (2 ^ lanesOf .jtH48F - 1)) 0xFF ∧
    RegReach (engines serving) (0xFFFFFFFF - (2 ^ min 32 (coresOf .jtH48F - 32) - 1)) 0xFFFFFFFF := by unfold RegReach; decide +kernel
/-- R317: all eight lanes fenced; a write of 9 bits sets a reserved bit too, which is ignored, and counted (R13). -/
theorem test_lane_fence : (after (.steLaneFenceWrite 0xFF) (engines serving)).ste.fence = 0xFF ∧
    (after (.steLaneFenceWrite 0x1FF) (engines serving)).ste.fence = 0xFF ∧ (after (.steLaneFenceWrite 0x1FF) (engines serving)).dev.rsvdWrites = 1 := by
  decide +kernel
/-- R324: register 1 holds the fence bits of cores 32 to 63. -/
theorem test_core_fence : (after (.sceCoreFenceWrite 1 5) (engines serving)).sce.fence = 5 * 2 ^ 32 := by decide +kernel

/-- A one-descriptor CTR message, pending and then running on core 0. -/
def ctrPending : Block :=
  (keyed (hdr 2 0 32 3) (withJob (bound 0x18 (io 0x2C 64 4 []) .pending []) (engines (queues serving)))).onSce (fun x => { x with pending := [7] })
def ctrRunning : Block :=
  onCore 0 (fun c => { c with job := some 7, state := .busy })
    (keyed (hdr 2 0 32 3) (withJob (bound 0x18 (io 0x2C 64 4 []) .running (zeros 64)) (engines (queues serving))))

/-- A later part whose message is gone waits. -/
def lateWaits : Block :=
  (keyed (hdr 2 0 32 3) (withJob (bound 0x18 (io 0x20 64 4 [(0x2C, 2, 5)]) .pending []) (engines (queues serving)))).onSce (fun x => { x with pending := [7] })

theorem witness_session_dispatch : (firstDispatch lateWaits (lateWaits.sce.pending.take 1024)).isSome = true := by decide +kernel
theorem witness_session_start : let j := bound 0x18 (io 0x2C 64 4 []) .pending []
    jobOf ctrPending 7 = some j ∧ j.due = none ∧ dMsg j.desc = 0 ∧ j.ctx = some (0, 1) ∧ chooseCore ctrPending (0, 1) = some 0 ∧
      recheck ctrPending j = .good (ctxKey ctrPending 0) ∧ partGate ctrPending j none (holdMode ctrPending j.desc (0, 1)) = .go :=
  ⟨by decide +kernel, by decide +kernel, by decide +kernel, by decide +kernel, by decide +kernel,
    recheck_good rfl (by decide +kernel) (sound_of (b := withJob (bound 0x18 (io 0x2C 64 4 []) .pending []) (engines (queues serving)))
      (by decide +kernel) (keyed_bytes _ _) rfl), by decide +kernel⟩
theorem witness_session_part_done : (ctrRunning.sce.cores[0]?).bind (·.job) = some 7 ∧ (jobOf ctrRunning 7).map (·.stage) = some .running := by
  decide +kernel

/-- The message of SQ 256 and MSG_ID 5, bound to core 3 after one part of 64 bytes. -/
def openMsg : Msg := { Msg.opened serving (bound 0x18 (io 0x24 64 4 [(0x2C, 2, 5)]) .arrived []) with
  ctx := (0, 1), state := .bound 3, parts := [{ dst := 0x20000, frag := false, wrote := 64, area := [(0x20000, 64)], len := 64, undef := false }] }
def withMsg : Block :=
  onCore 3 (fun c => { c with msg := some (256, 5), state := .bound }) ((keyed (hdr 2 0 32 3) (engines (queues serving))).onSce
    (fun x => { x with msgs := [openMsg] }))

/-- Every core holds a message and a descriptor waits. -/
def crowded : Block :=
  { ctrPending with sce := { ctrPending.sce with
    msgs := [openMsg], cores := ctrPending.sce.cores.map (fun c => { c with msg := some (256, 5), state := .bound }) } }

theorem witness_parking : ((withMsg.sce.cores[3]?).map (fun c => (c.msg, c.job))) = some (some (256, 5), none) ∧
    (7 ∈ crowded.sce.pending ∧ (jobOf crowded 7).map (fun j => dMsg j.desc) = some 0 ∧
      (List.range crowded.sce.cores.length).any (coreEligible crowded) = false ∧ longestBound crowded = some openMsg) ∧
    (msgOf withMsg 256 5 = some openMsg ∧ parkedCount withMsg < parkedOf withMsg.run.variant) := by decide +kernel
/-- R336: parking frees the core; R337: abandoning leaves a tombstone of 64 bytes zeroed. -/
theorem test_park : ((after (.parkTimeout 3) withMsg).sce.cores[3]?).map (fun c => (c.state, c.msg)) = some (.idle, none) ∧
    (after (.parkTimeout 3) withMsg).sce.msgs.map (·.state) = [.parked] := by decide +kernel
theorem test_abandon : (after (.messageAbandon 256 5) withMsg).sce.tombs = [⟨256, 5, 64, true⟩] := by decide +kernel

/-- A release-on-verify part while a running one holds all of the staging. -/
theorem witness_hold_wait : let j := bound 0x11 (io 0x2C 96 0x4C10 []) .pending []
    let big := { bound 0x11 (io 0x2C (holdAccountOf .jtH48F + 16) 0x4C10 []) .running [] with id := 8 }
    let b : Block := onCore 1 (fun c => { c with job := some 8, state := .busy }) ((keyed (hdr 2 0 32 3) (withJob big (withJob j (engines (queues serving))))).onSce
      (fun x => { x with pending := [7] }))
    7 ∈ b.sce.pending ∧ jobOf b 7 = some j ∧ dFirst j.desc = true ∧ partGate b j none (holdMode b j.desc (0, 1)) = .stageWait := by decide +kernel

theorem witness_timeout_writes : RegReach serving 0xFFFF0000 0xFFFF ∧ coresOf .jtH48F ≠ 0 := by unfold RegReach; decide +kernel
theorem test_abandon_timeout : (after (.sceAbandonTimeoutWrite 60001) serving).sce.abandonMs = 60000 ∧
    (after (.sceParkTimeoutWrite 0) serving).sce.parkUs = 1 := by decide +kernel

/-- A digest of nothing on pipeline 5, and a compare. -/
def hashing (op : Nat) (iv : Bytes) : Block :=
  onPipe 5 (fun p => { p with job := some 7 }) (withJob { bound op (io 0 0 1 [(0x04, 4, 0)]) .running [] with ctx := none, iv := iv, outLen := 32 } (queues serving))

theorem witness_digest_ends : ((hashing 0x20 []).dge.pipes[5]?).bind (·.job) = some 7 ∧ (jobOf (hashing 0x20 []) 7).map (·.stage) = some .running ∧
    (jobOf (hashing 0x23 []) 7).map (fun j => dOp j.desc) = some 0x23 := by decide +kernel

/-- The digest lock held through window 0, a message open, then closed. -/
def digesting (open_ : Bool) : Block :=
  { serving with
    leg := { serving.leg with digest := { serving.leg.digest with holder := some 0 } }
    dge := { serving.dge with rm := { serving.dge.rm with alg := 1, open_ := open_, busy := true } } }

theorem witness_digest_registers : RmReach (digesting true) 0x1FF80000 0x80000001 ∧ RmReach (digesting true) 0x1FF80000 0x40000001 ∧
    RmReach (digesting true) 0x1FF80000 0x20000001 ∧ RmReach (digesting true) 0 0xFFFFFFFF ∧
    (!algKeyed 1 && (algLen 1).isSome && outLenOk 1 0) = true ∧ (digesting true).dge.rm.open_ = true := by
  refine ⟨⟨by unfold RegReach; decide +kernel, 0, by decide⟩, ⟨by unfold RegReach; decide +kernel, 0, by decide⟩,
    ⟨by unfold RegReach; decide +kernel, 0, by decide⟩, ⟨by unfold RegReach; decide +kernel, 0, by decide⟩, by decide +kernel, by decide⟩
theorem witness_digest_result : let b := digesting false
    (b.dge.rm.busy = true ∧ b.dge.rm.open_ = false ∧ b.dge.rm.tail = 0) ∧
    (fnOf b 0).d3hot = false ∧ b.run.state ≠ .frozen ∧ b.leg.digest.holder.isSome = true := by decide +kernel
/-- R359: a read before DONE gives 0 and sets EARLY_READ. -/
theorem test_early_read : sent (.dgeRmResultRead false 0) (digesting false) = [.completion 0 .success (zeros 4)] ∧
    (after (.dgeRmResultRead false 0) (digesting false)).dge.rm.early = true := by decide +kernel
/-- FIPS 180-4: the SHA-256 of nothing begins with 0xE3B0C442. -/
theorem test_sha256_empty : (digestValue 1 32 [] 0 []).take 4 = [0xE3, 0xB0, 0xC4, 0x42] := by decide +kernel

/-! ### Commands of the keeper, public keys, key commands -/

/-- A command block: COMMAND, AUTHORITY, SESSION, parameters. -/
def blk (code auth sid : Nat) (p : Bytes) : Bytes :=
  fields 16 [(0, 4, 0x4A484331), (4, 2, code), (6, 2, auth), (8, 4, sid), (0x0C, 4, p.length)] ++ p

/-- Items of parameters, each from a multiple of 8. -/
def items (l : List Bytes) : Bytes := l.foldl (fun p i => p ++ i ++ zeros ((8 - i.length % 8) % 8)) []

/-- A command that PF0 sent as descriptor 7, at the keeper. -/
def hjob (code auth sid : Nat) (p : Bytes) : HsmJob := ⟨7, .fn 0, false, blk code auth sid p, .waiting, []⟩

/-- The keeper holds a command and its descriptor is in flight, in a life-cycle STATE. -/
def keeping (lcs : Nat) (h : HsmJob) : Block :=
  let b := withJob { adminJob 0x40 [] with started := true, stage := .keeper } (queues serving)
  { b with run := { b.run with lcs := lcs }, kpr := { b.kpr with hsm := [h] } }

/-- Session 5 with its quorum of one, opened by PF0 for a command. -/
def session5 (auth : Nat) (rec path : Bytes) (h : HsmJob) : EqxSession :=
  { sid := 5, authority := auth, opener := .fn 0, nonce := zeros 32, expiry := 100, record := rec, path := path, member := false,
    cmdDigest := cmdDigest h.block, tbs := zeros 184, approved := [0], failures := 0 }
def under (x : EqxSession) (b : Block) : Block := b.onKpr (fun k => { k with sessions := [x] })

/-- A record of which only the QUORUM, 1, matters. -/
def quorum1 : Bytes := fields 816 [(7, 1, 1)]

theorem witness_turns : hsmReady (keeping 3 (hjob 0x52 0xFFFF 0 [])) 0x52 8 = none ∧
    (let h := hjob 0x30 0 0 []
     hsmReady (keeping 3 h) 0x30 7 = some h ∧ runsAlone h.block = true) := by decide +kernel
theorem witness_command_ends : let h := hjob 0x37 0 0 []
    let b := keeping 3 h
    h.req = .fn 0 ∧ (jobOf b 7).map (·.id) = some 7 ∧ b.link.writeCheck = false ∧ fnHalted b 0 = false ∧
      (jobOf b 7).map (fun j : Job => (j.dqn, isSession (dOp j.desc), ended j.stage)) = some (0, false, false) := by decide +kernel

/-- A 16-byte head of a public-key command: set, OUT_LEN, MSG_LEN. -/
def pkh (aset out msg : Nat) : Bytes := fields 16 [(0, 1, aset), (4, 4, out), (8, 4, msg)]

theorem witness_pk_commands : ∀ c ∈ [0x40, 0x41, 0x42, 0x43, 0x44, 0x45], let h := hjob c (if c = 0x42 then 0xFFFF else 0) 0 (pkh 4 4096 0)
    Passes (keeping 3 h) h c (if c = 0x42 then { ruleAny h.block with sender := isFn h.req } else ruleBound (keeping 3 h) h.req h.block) none ∧
    PkRoom (keeping 3 h) (pkUnitOf 4) := by unfold Passes PkRoom; decide +kernel
theorem witness_pk_ends :
    (let h := { hjob 0x40 0 0 [] with stage := .engine }
     let b := (keeping 3 h).onPke (fun p => { p with mod := { p.mod with state := .busy, running := some 7 } })
     (pkAt b .pkMod).state = .busy ∧ b.kpr.hsm.find? (fun x => some x.id == (pkAt b .pkMod).running) = some h ∧ hsmOrphan b h = false ∧
      b.rng.state = .ready) ∧
    (∀ p ∈ [(0x40, items [pkh 4 64 0, zeros 144]), (0x41, items [pkh 1 64 8, zeros 144, zeros 8]), (0x42, items [pkh 1 0 8, zeros 65, zeros 64, zeros 8]),
        (0x43, items [pkh 4 144 0, zeros 144, zeros 65, zeros 32]), (0x44, items [pkh 0x18 2048 0, zeros 1184, zeros 32]),
        (0x45, items [pkh 0x18 144 0, zeros 144, zeros 1088, zeros 32])],
      (pkItems p.1 p.2).isSome = true) := by decide +kernel

/-- A template: as a header with EPOCH, NONCE and BLOB_ID zero. -/
def tmpl : Bytes := hdr 2 0 32 3

theorem witness_blob_commands :
    (let h := hjob 0x30 0 0 tmpl
     KeyTurn (keeping 3 h) h 0x30 lcsAny ∧ fixedItem (bkParam h.block) 0 32 = some (tmpl, 32) ∧ itemsEnd (bkParam h.block) 32 = true ∧
      tmplBad h tmpl = none ∧ asymDead (keeping 3 h) (hType tmpl) = none) ∧
    (let p := items [fields 8 [(4, 4, 144)], zeros 144, tmpl, fields 8 [(0, 4, 64)], zeros 64]
     let h := hjob 0x31 0 0 p
     KeyTurn (keeping 3 h) h 0x31 lcsAny ∧ kekItem p 0 = some (zeros 144, 152) ∧ fixedItem p 152 32 = some (tmpl, 184) ∧
      varItem p 184 = some (zeros 64, 256) ∧ itemsEnd p 256 = true ∧ allZero p 1 3 = true ∧ tmplBad h tmpl = none ∧ 144 ≤ leAt p 4 4) ∧
    (let p := items [fields 8 [(0, 4, 144)], zeros 144]
     let h := hjob 0x3B 0 0 p
     KeyTurn (keeping 1 h) h 0x3B lcsAny ∧ fixedItem p 8 144 = some (zeros 144, 152) ∧ itemsEnd p 152 = true ∧ allZero p 4 4 = true ∧
      144 ≤ leAt p 0 4) := by unfold KeyTurn Passes; decide +kernel
/-- R279: KEY_GENERATE answers with a blob of 144 bytes, one entry after one data write. -/
theorem test_key_generate : (after (.keyGenerate 7) (keeping 3 (hjob 0x30 0 0 tmpl))).kpr.hsm = [] ∧
    ((cqOf (after (.keyGenerate 7) (keeping 3 (hjob 0x30 0 0 tmpl))) 0).written = 1) := by decide +kernel
/-- R279: in BLANK the key commands are refused with 0x0305. -/
theorem test_key_generate_blank : keyGate (keeping 0 (hjob 0x30 0 0 tmpl)) lcsAny = some 0x0305 := by decide +kernel

/-- ATTR of a 32-byte AES key of owner 0 for function 0. -/
def attr : Bytes := fields 16 [(1, 1, 2), (3, 1, 32), (4, 2, 3), (8, 1, 0x1F), (9, 1, 3), (0x0A, 2, 0x100)]

theorem witness_imports :
    (let h := hjob 0x32 0 0 []
     KeyTurn (keeping 2 h) h 0x32 [2] ∧ bkParam h.block = [] ∧ hybridDead (keeping 2 h) = none) ∧
    (let p := items [fields 8 [(0, 4, 1)], tmpl, zeros (0x690 + 48)]
     let h := hjob 0x33 0 5 p
     let x := session5 0 quorum1 [] h
     QuorumTurn (under x (keeping 2 h)) h 0x33 true x [2] ∧ fixedItem p 8 32 = some (tmpl, 40) ∧
      (fixedItem p 40 (0x690 + 32 + 16)).map (fun r => (r.1.length, allZero r.1 0x681 3, itemsEnd p r.2)) = some (0x690 + 48, true, true) ∧
      allZero p 4 4 = true ∧ tmplBad h tmpl = none) ∧
    (let p := items [fields 8 [(0, 4, 1), (4, 1, 63)], attr, zeros (0x690 + 48)]
     let h := hjob 0x34 0 5 p
     let x := session5 0 quorum1 [] h
     QuorumTurn (under x (keeping 2 h)) h 0x34 true x [2] ∧ fixedItem p 8 16 = some (attr, 24) ∧
      (fixedItem p 24 (0x690 + leAt attr 3 1 + 16)).map (fun r => (r.1.length, allZero r.1 0x681 3, itemsEnd p r.2)) = some (0x690 + 48, true, true) ∧
      allZero p 5 3 = true ∧ slotBad (dropSession 5 (under x (keeping 2 h))) h 63 attr = none) := by
  unfold KeyTurn QuorumTurn Passes; decide +kernel

theorem witness_slots :
    (let p := items [fields 8 [(0, 1, 8)], attr]
     let h := hjob 0x35 0 5 p
     let x := session5 0 quorum1 [] h
     QuorumTurn (under x (keeping 3 h)) h 0x35 true x lcsField ∧ fixedItem p 8 16 = some (attr, 24) ∧ itemsEnd p 24 = true ∧ allZero p 1 7 = true ∧
      slotBad (dropSession 5 (under x (keeping 3 h))) h 8 attr = none ∧ asymDead (keeping 3 h) (hType (attrHeader attr)) = none) ∧
    (let p := fields 8 [(0, 1, 63)]
     let h := hjob 0x36 0 5 p
     let x := session5 0 quorum1 [] h
     QuorumTurn (under x (keeping 4 h)) h 0x36 (eraseAllowed h (under x (keeping 4 h))) x lcsAny ∧ p.length = 8 ∧ allZero p 1 7 = true ∧
      ownerSlot 63 = true) ∧
    (let p := fields 8 [(0, 1, 8), (4, 4, 24)]
     let h := hjob 0x37 0 0 p
     KeyTurn (keeping 1 h) h 0x37 lcsAny ∧ p.length = 8 ∧ allZero p 1 3 = true ∧ ownerSlot 8 = true ∧ 24 ≤ leAt p 4 4) := by
  unfold KeyTurn QuorumTurn Passes; decide +kernel
/-- R530: slots 7 and 64 are no owner slots. -/
theorem test_owner_slots : ownerSlot 7 = false ∧ ownerSlot 64 = false := by decide

theorem witness_key_blocks :
    (let kb := List.replicate 80 (0x30 : Byte)
     let p := items [fields 8 [(4, 4, 144)], zeros 144, tmpl, fields 8 [(0, 4, 80)], kb]
     let h := hjob 0x38 0 0 p
     KeyTurn (keeping 2 h) h 0x38 lcsField ∧ kekItem p 0 = some (zeros 144, 152) ∧ fixedItem p 152 32 = some (tmpl, 184) ∧
      varItem p 184 = some (kb, 272) ∧ itemsEnd p 272 = true ∧ allZero p 1 3 = true ∧ tmplBad h tmpl = none) ∧
    (∀ c ∈ [0x39, 0x3A], let p := items [fields 8 [(4, 4, 300)], zeros 144, zeros 144]
     let h := hjob c 0 0 p
     KeyTurn (keeping 3 h) h c lcsField ∧ kekItem p (leAt p 0 1) = some (zeros 144, 152) ∧ fixedItem p 152 144 = some (zeros 144, 296) ∧
      itemsEnd p 296 = true ∧ allZero p 1 3 = true) := by unfold KeyTurn Passes; decide +kernel

/-! ### Equinox sessions, owners, key domains -/

/-- A command at the head of the keeper's list is ready, under a session or none. -/
theorem ready_of (lcs code auth sid : Nat) (p : Bytes) (hc : bkCommand (hjob code auth sid p).block = code) :
    hsmReady (keeping lcs (hjob code auth sid p)) code 7 = some (hjob code auth sid p) := by
  have hl : (keeping lcs (hjob code auth sid p)).kpr.hsm = [hjob code auth sid p] := rfl
  have hk : keeperServes (keeping lcs (hjob code auth sid p)) = true := rfl
  have hi : (hjob code auth sid p).id = 7 := rfl
  have hw : (hjob code auth sid p).stage = .waiting := rfl
  simp [hsmReady, hl, hk, hi, hw, hc]
theorem under_ready (x : EqxSession) (b : Block) (h : HsmJob) {code : Nat} (hr : hsmReady b code 7 = some h) : hsmReady (under x b) code 7 = some h := hr

/-- A live record of an owner with two officers and a quorum of two, that allows functions below 16 (0 only for owner 0). -/
def ownerRec (id seq : Nat) : Bytes :=
  fields 816 [(0, 4, 0x4A4F5231), (4, 2, id), (6, 1, 2), (7, 1, 2), (8, 4, seq), (0x10, 2, if id = 0 then 0xFFFF else 0xFFFE), (0x30, 1, 1), (0x60, 1, 2)]

/-- A session with both approvals of its record. -/
def session2 (auth : Nat) (rec : Bytes) (h : HsmJob) : EqxSession := { session5 auth rec (zeros 576) h with approved := [0, 1] }

theorem witness_session_opens :
    (let p := items [fields 8 [(0, 2, 10), (4, 4, 184)], zeros 48, ownerRec 0 1, zeros 576]
     let h := hjob 0x50 0 0 p
     SessionTurn (keeping 3 h) h 0x50 ∧ fixedItem p 0 8 = some (p.take 8, 8) ∧ fixedItem p 8 48 = some (zeros 48, 56) ∧
      fixedItem p 56 816 = some (ownerRec 0 1, 872) ∧ fixedItem p 872 576 = some (zeros 576, 1448) ∧ itemsEnd p 1448 = true ∧
      10 ≤ leAt p 0 2 ∧ leAt p 2 2 = 0 ∧ (purgeSessions (keeping 3 h)).kpr.sessions.length < 16 ∧
      (purgeSessions (keeping 3 h)).kpr.sessions.any (fun x => x.authority == 0) = false ∧ 184 ≤ leAt p 4 4) := by
  unfold SessionTurn Passes; decide +kernel
theorem witness_session_approves : let p := items [fields 8 [(0, 4, 5), (4, 1, 1)], zeros 97, zeros 1952, zeros 96, zeros 3309]
    let h := hjob 0x51 0 0 p
    let x := session5 0 (ownerRec 0 1) (zeros 576) h
    let b := under x (keeping 3 h)
    SessionTurn b h 0x51 ∧ fixedItem p 0 8 = some (p.take 8, 8) ∧ (pairItem p 8).map (·.2) = some 2064 ∧ (fixedItem p 2064 96).map (·.2) = some 2160 ∧
      (fixedItem p 2160 3309).map (·.2) = some 5469 ∧ itemsEnd p 5469 = true ∧ allZero p 5 3 = true ∧ sessionOf b 5 = some x ∧
      hybridDead b = none ∧ b.time.secs < x.expiry ∧ 1 < leAt x.record 6 1 := by
  refine ⟨⟨under_ready _ _ _ (ready_of _ _ _ _ _ (by decide +kernel)), rfl, by decide +kernel, rfl⟩, by decide +kernel, by decide +kernel, by decide +kernel,
    by decide +kernel, by decide +kernel, by decide +kernel, rfl, rfl, by decide, by decide +kernel⟩
theorem witness_session_status : let h := hjob 0x52 0 0 (fields 4 [(0, 4, 5)])
    let k := hjob 0x53 0 0 (fields 4 [(0, 4, 5)])
    let x := session2 0 (ownerRec 0 1) h
    SessionTurn (keeping 3 h) h 0x52 ∧ fixedOnly (bkParam h.block) 4 = true ∧ sessionOf (keeping 3 h) 5 = none ∧
      SessionTurn (under x (keeping 3 h)) h 0x52 ∧ sessionOf (under x (keeping 3 h)) 5 = some x ∧
      Passes (under x (keeping 3 k)) k 0x53 (ruleClose (under x (keeping 3 k)) k) none ∧ sessionOf (under x (keeping 3 k)) 5 = some x := by
  unfold SessionTurn Passes; decide +kernel
/-- R378: EQX_CLOSE erases the session. -/
theorem test_eqx_close : let k := hjob 0x53 0 0 (fields 4 [(0, 4, 5)])
    (after (.eqxClose 7) (under (session2 0 (ownerRec 0 1) k) (keeping 3 k))).kpr.sessions = [] := by decide +kernel
/-- R379: a quorum of 1 makes no good record. -/
theorem test_records : recordOk (ownerRec 4095 1) = true ∧ recordOk (patch (ownerRec 0 1) 7 [1]) = false := by decide +kernel


/-- A quorum met by an open session lets a command through steps 3 to 5 of R376. -/
theorem gate_of {b : Block} {h : HsmJob} {r : HsmRule} {x : EqxSession} (hs : r.sender = true) (hq : r.quorum = some true) (ha : r.authOk = true)
    (so : sessionOf b (bkSession h.block) = some x) (ex : b.time.secs < x.expiry) (op : x.opener = h.req) (au : x.authority = bkAuth h.block)
    (sd : sessionStands b x = true) (m : x.met = true) (c : x.cmdDigest = cmdDigest h.block) : hsmGate b h r = .passed (some x) := by
  simp only [hsmGate, hs, hq, ha, so, op, au, sd, m, c]
  simp
  omega

/-- A command under the quorum of an owner, in its turn. -/
theorem passes_of {lcs code auth : Nat} {p rec : Bytes} {r : HsmRule} (hc : bkCommand (hjob code auth 5 p).block = code)
    (ha : bkAuth (hjob code auth 5 p).block = auth) (hs : bkSession (hjob code auth 5 p).block = 5) (h1 : r.sender = true)
    (h2 : r.quorum = some true) (h3 : r.authOk = true) (hn : auth ≠ 0x1000) (hm : leAt rec 7 1 ≤ 2) :
    Passes (under (session2 auth rec (hjob code auth 5 p)) (keeping lcs (hjob code auth 5 p))) (hjob code auth 5 p) code r
      (some (session2 auth rec (hjob code auth 5 p))) := by
  have sd : sessionStands (under (session2 auth rec (hjob code auth 5 p)) (keeping lcs (hjob code auth 5 p))) (session2 auth rec (hjob code auth 5 p)) = true := by
    have e : (session2 auth rec (hjob code auth 5 p)).authority = auth := rfl
    simp [sessionStands, e, hn]
  have hm' : (session2 auth rec (hjob code auth 5 p)).met = true := show decide (leAt rec 7 1 ≤ 2) = true by simpa using hm
  exact ⟨ready_of lcs code auth 5 p hc, rfl, gate_of h1 h2 h3 (by rw [hs]; rfl) (show 0 < 100 by decide) rfl (by rw [ha]; rfl) sd hm' rfl, rfl⟩

/-- OWNER_CREATE of owner 3 under the quorum of owner 0: at an empty leaf, and in place of a tombstone. -/
def createEmpty : HsmJob := hjob 0x58 0 5 (items [zeros 8, ownerRec 3 1, zeros 576])
def createAgain : HsmJob := hjob 0x58 0 5 (items [fields 8 [(0, 1, 1)], ownerRec 3 3, zeros 576, tombstoneOf (ownerRec 3 1) 0])

theorem witness_owner_at_empty_leaf : let h := createEmpty
    let p := bkParam h.block
    let x := session2 0 (ownerRec 0 1) h
    Passes (under x (keeping 2 h)) h 0x58 (ruleCreate h (under x (keeping 2 h))) (some x) ∧ createItems p = some (ownerRec 3 1, zeros 576, []) ∧
      leAt p 0 1 ≤ 1 ∧ allZero p 1 7 = true ∧ lcsAny.contains 2 = true ∧ recordOk (ownerRec 3 1) = true := by
  refine ⟨?_, ?_, ?_, ?_, by decide, ?_⟩
  · exact passes_of (by decide +kernel) (by decide +kernel) (by decide +kernel) (by decide +kernel) (by decide +kernel) (by decide +kernel) (by decide)
      (by decide +kernel)
  · decide +kernel
  · decide +kernel
  · decide +kernel
  · decide +kernel
theorem witness_owner_at_tombstone : let h := createAgain
    let p := bkParam h.block
    let x := session2 0 (ownerRec 0 1) h
    Passes (under x (keeping 2 h)) h 0x58 (ruleCreate h (under x (keeping 2 h))) (some x) ∧
      createItems p = some (ownerRec 3 3, zeros 576, tombstoneOf (ownerRec 3 1) 0) ∧ leAt p 0 1 = 1 ∧ allZero p 1 7 = true ∧
      recordOk (ownerRec 3 3) = true := by
  refine ⟨?_, ?_, ?_, ?_, ?_⟩
  · exact passes_of (by decide +kernel) (by decide +kernel) (by decide +kernel) (by decide +kernel) (by decide +kernel) (by decide +kernel) (by decide)
      (by decide +kernel)
  · decide +kernel
  · decide +kernel
  · decide +kernel
  · decide +kernel
theorem witness_owner_updated : let p := ownerRec 0 2
    let h := hjob 0x59 0 5 p
    let x := session2 0 (ownerRec 0 1) h
    Passes (under x (keeping 2 h)) h 0x59 (ruleSelf h (under x (keeping 2 h))) (some x) ∧ fixedItem p 0 816 = some (p, 816) ∧ itemsEnd p 816 = true := by
  exact ⟨passes_of (by decide +kernel) (by decide +kernel) (by decide +kernel) (by decide +kernel) rfl (by decide +kernel) (by decide)
    (by decide +kernel), by decide +kernel, by decide +kernel⟩
theorem witness_owner_deleted : let h := hjob 0x5A 3 5 []
    let x := session2 3 (ownerRec 3 1) h
    Passes (under x (keeping 2 h)) h 0x5A (ruleSelf h (under x (keeping 2 h))) (some x) ∧ bkAuth h.block ≠ 0 ∧ bkParam h.block = [] := by
  exact ⟨passes_of (by decide +kernel) (by decide +kernel) (by decide +kernel) (by decide +kernel) rfl (by decide +kernel) (by decide)
    (by decide +kernel), by decide +kernel, by decide +kernel⟩
theorem witness_owner_deleted_by_0 : let p := items [ownerRec 3 1, zeros 576]
    let h := hjob 0x5A 0 5 p
    let x := session2 0 (ownerRec 0 1) h
    Passes (under x (keeping 2 h)) h 0x5A (ruleSelf h (under x (keeping 2 h))) (some x) ∧ bkAuth h.block = 0 ∧
      fixedItem p 0 816 = some (ownerRec 3 1, 816) ∧ fixedItem p 816 576 = some (zeros 576, 1392) ∧ itemsEnd p 1392 = true := by
  exact ⟨passes_of (by decide +kernel) (by decide +kernel) (by decide +kernel) (by decide +kernel) rfl (by decide +kernel) (by decide)
    (by decide +kernel), by decide +kernel, by decide +kernel, by decide +kernel, by decide +kernel⟩
theorem witness_bindings :
    (let p := items [fields 8 [(0, 2, 1)], ownerRec 3 1, zeros 576]
     let h := hjob 0x5B 0xFFFF 0 p
     let b := keeping 3 h
     Passes b h 0x5B (rulePlain h.req h.block) none ∧ fixedItem p 0 8 = some (p.take 8, 8) ∧ fixedItem p 8 816 = some (ownerRec 3 1, 824) ∧
      fixedItem p 824 576 = some (zeros 576, 1400) ∧ itemsEnd p 1400 = true ∧ allZero p 2 6 = true ∧ recFn (ownerRec 3 1) 1 = true ∧
      recordOk (ownerRec 3 1) = true ∧ bindable b 1 = true ∧ tget b.kpr.bindings 1 = none) ∧
    (let h := hjob 0x5C 0xFFFF 0 (fields 2 [(0, 2, 1)])
     let b := (keeping 3 h).onKpr (fun k => { k with bindings := [(1, 3)] })
     Passes b h 0x5C (rulePlain h.req h.block) none ∧ fixedOnly (bkParam h.block) 2 = true ∧ tget b.kpr.bindings 1 = some 3 ∧ bindable b 1 = true) := by
  unfold Passes; decide +kernel
theorem test_unbind : (after (.fnUnbind 7) ((keeping 3 (hjob 0x5C 0xFFFF 0 (fields 2 [(0, 2, 1)]))).onKpr (fun k => { k with bindings := [(1, 3)] }))).kpr.bindings
    = [] := by decide +kernel

/-- Record 3 of a member of the domain of owner 0's record: epoch 2, previous epoch 1, index 9. -/
def domBytes : Bytes := patch (fields 240 [(1, 1, 3), (4, 2, 2), (6, 2, 1), (8, 2, 9)]) 0x10 (domainIdOf (ownerRec 0 1))

/-- A command of a member, under no session and under the domain authority's. -/
def member (h : HsmJob) : Block :=
  (commitRec 3 (domBytes.drop 1) (keeping 3 h)).onKey (fun k =>
    { k with domState := 1, epoch := 2, root := some (zeros 32), prevRoot := some (1, zeros 32) })
def domSession (h : HsmJob) : EqxSession := { session2 0x1000 (ownerRec 0 1) h with member := true }
def memberOf (h : HsmJob) : Block := under (domSession h) (member h)

theorem payload_of_member (h : HsmJob) : recPayload (member h) 3 = some (slice (domBytes.drop 1) 0 111) := by
  have e : recPayload (member h) 3 = recPayload (commitRec 3 (domBytes.drop 1) (keeping 3 h)) 3 := recPayload_congr 3 rfl rfl
  rw [e, recPayload_commitRec (keeping 3 h) 3 (domBytes.drop 1) rfl rfl rfl rfl (by decide)]
  rfl
theorem dom_of_member (h : HsmJob) : domRec (member h) = 0 :: slice (domBytes.drop 1) 0 111 := by rw [domRec, payload_of_member]
theorem dom_of_memberOf (h : HsmJob) : domRec (memberOf h) = 0 :: slice (domBytes.drop 1) 0 111 := by
  have e : recPayload (memberOf h) 3 = recPayload (member h) 3 := recPayload_congr 3 rfl rfl
  rw [domRec, e, payload_of_member]
/-- What record 3 says: a member with a previous root, not stale, epochs 2 and 1, index 9. -/
theorem dom_fields : let d := (0 : Byte) :: slice (domBytes.drop 1) 0 111
    domMember d = true ∧ domPrevValid d = true ∧ domStale d = false ∧ domEpoch d = 2 ∧ domPrev d = 1 ∧ domIndex d = 9 ∧ domOwners d = 0 ∧
      domainIdOf (ownerRec 0 1) = domId d := by decide +kernel
theorem stands (h : HsmJob) : sessionStands (memberOf h) (domSession h) = true := by
  simp only [sessionStands, dom_of_memberOf, dom_fields.1, if_true, show (domSession h).record = ownerRec 0 1 from rfl, dom_fields.2.2.2.2.2.2.2]
  simp
/-- A command under the domain's quorum, in its turn. -/
theorem turn_of (code : Nat) (p : Bytes) (hc : bkCommand (hjob code 0x1000 5 p).block = code)
    (ha : bkAuth (hjob code 0x1000 5 p).block = 0x1000) (hs : bkSession (hjob code 0x1000 5 p).block = 5) :
    DomainTurn (memberOf (hjob code 0x1000 5 p)) (hjob code 0x1000 5 p) code (quorumRule (hjob code 0x1000 5 p)) (some (domSession (hjob code 0x1000 5 p))) := by
  have hm : (domSession (hjob code 0x1000 5 p)).met = true := show decide (leAt (ownerRec 0 1) 7 1 ≤ 2) = true by decide +kernel
  refine ⟨⟨ready_of 3 code 0x1000 5 p hc, rfl, gate_of rfl rfl ?_ ?_ (show 0 < 100 by decide) rfl (by rw [ha]; rfl) (stands _) hm rfl, rfl⟩, rfl, rfl⟩
  · simp [quorumRule, ruleQuorum, ha]
  · rw [hs]; rfl

/-- A device outside any domain, with no registered owner, under the session of a charter. -/
def outsider (code : Nat) (p : Bytes) : Block :=
  under (session2 0x1000 (ownerRec 0 1) (hjob code 0x1000 5 p)) (commitRec 3 (zeros 239) (keeping 2 (hjob code 0x1000 5 p)))
theorem dom_of_outsider (code : Nat) (p : Bytes) : domRec (outsider code p) = 0 :: slice (zeros 239) 0 111 := by
  have e : recPayload (outsider code p) 3 = recPayload (commitRec 3 (zeros 239) (keeping 2 (hjob code 0x1000 5 p))) 3 :=
    recPayload_congr 3 rfl rfl
  rw [domRec, e, recPayload_commitRec (keeping 2 (hjob code 0x1000 5 p)) 3 (zeros 239) rfl rfl rfl rfl (by decide)]
  rfl
theorem outside_fields : domMember ((0 : Byte) :: slice (zeros 239) 0 111) = false ∧ domOwners ((0 : Byte) :: slice (zeros 239) 0 111) = 0 := by decide +kernel
theorem outside_turn (code : Nat) (p : Bytes) (hc : bkCommand (hjob code 0x1000 5 p).block = code) (ha : bkAuth (hjob code 0x1000 5 p).block = 0x1000)
    (hs : bkSession (hjob code 0x1000 5 p).block = 5) :
    DomainTurn (outsider code p) (hjob code 0x1000 5 p) code (quorumRule (hjob code 0x1000 5 p))
      (some (session2 0x1000 (ownerRec 0 1) (hjob code 0x1000 5 p))) ∧ mayJoin (outsider code p) = true := by
  have hm : (session2 0x1000 (ownerRec 0 1) (hjob code 0x1000 5 p)).met = true := show decide (leAt (ownerRec 0 1) 7 1 ≤ 2) = true by decide +kernel
  have sd : sessionStands (outsider code p) (session2 0x1000 (ownerRec 0 1) (hjob code 0x1000 5 p)) = true := by
    simp only [sessionStands, dom_of_outsider, outside_fields.1]; rfl
  refine ⟨⟨⟨ready_of 2 code 0x1000 5 p hc, rfl, gate_of rfl rfl ?_ ?_ (show 0 < 100 by decide) rfl (by rw [ha]; rfl) sd hm rfl, rfl⟩, rfl, rfl⟩, ?_⟩
  · simp [quorumRule, ruleQuorum, ha]
  · rw [hs]; rfl
  · rw [mayJoin, dom_of_outsider]; simp only [outside_fields.1, outside_fields.2]; rfl

theorem witness_domain_create : let p := fields 2 [(0, 2, 16383)]
    DomainTurn (outsider 0x60 p) (hjob 0x60 0x1000 5 p) 0x60 (quorumRule (hjob 0x60 0x1000 5 p)) (some (session2 0x1000 (ownerRec 0 1) (hjob 0x60 0x1000 5 p))) ∧
      mayJoin (outsider 0x60 p) = true ∧ fixedOnly p 2 = true := by
  have h := outside_turn 0x60 (fields 2 [(0, 2, 16383)]) (by decide +kernel) (by decide +kernel) (by decide +kernel)
  exact ⟨h.1, h.2, by decide +kernel⟩
/-- A device outside any domain, with no registered owner, and a plain command. -/
def outside (h : HsmJob) : Block := commitRec 3 (zeros 239) (keeping 3 h)
theorem dom_of_outside (h : HsmJob) : domRec (outside h) = 0 :: slice (zeros 239) 0 111 := by
  have e : recPayload (outside h) 3 = some (slice (zeros 239) 0 111) := recPayload_commitRec (keeping 3 h) 3 (zeros 239) rfl rfl rfl rfl (by decide)
  rw [domRec, e]

theorem witness_domain_offer : (let h := hjob 0x61 0xFFFF 0 (zeros 8)
     DomainTurn (outside h) h 0x61 (rulePlain h.req h.block) none ∧ fixedOnly (zeros 8) 8 = true ∧ allZero (zeros 8) 1 3 = true ∧
      mayJoin (outside h) = true ∧ hybridDead (outside h) = none) ∧
    (let h := hjob 0x61 0xFFFF 0 (fields 8 [(0, 1, 1)])
     DomainTurn (member h) h 0x61 (rulePlain h.req h.block) none ∧ domMember (domRec (member h)) = true ∧ (member h).key.root.isSome = true) := by
  refine ⟨⟨⟨⟨by decide +kernel, rfl, by decide +kernel, rfl⟩, rfl, rfl⟩, by decide, by decide, ?_, rfl⟩,
    ⟨⟨by decide +kernel, rfl, by decide +kernel, rfl⟩, rfl, rfl⟩, ?_, rfl⟩
  · rw [mayJoin, dom_of_outside]; simp only [outside_fields.1, outside_fields.2]; rfl
  · rw [dom_of_member]; exact dom_fields.1

/-- A package or an offer of 8 bytes behind a pair of keys. -/
def packageParams : Bytes := items [fields 8 [(0, 4, 8)], zeros 8, zeros 97, zeros 1952]

theorem witness_domain_join :
    DomainTurn (outsider 0x63 packageParams) (hjob 0x63 0x1000 5 packageParams) 0x63 (quorumRule (hjob 0x63 0x1000 5 packageParams))
      (some (session2 0x1000 (ownerRec 0 1) (hjob 0x63 0x1000 5 packageParams))) ∧ mayJoin (outsider 0x63 packageParams) = true ∧
    (packageItems packageParams).isSome = true ∧ hybridDead (outsider 0x63 packageParams) = none := by
  have h := outside_turn 0x63 packageParams (by decide +kernel) (by decide +kernel) (by decide +kernel)
  exact ⟨h.1, h.2, by decide +kernel, rfl⟩
theorem witness_domain_sponsor : let p := fields 8 [(0, 2, 10), (4, 4, 4096)] ++ packageParams
    let b := memberOf (hjob 0x62 0x1000 5 p)
    DomainTurn b (hjob 0x62 0x1000 5 p) 0x62 (quorumRule (hjob 0x62 0x1000 5 p)) (some (domSession (hjob 0x62 0x1000 5 p))) ∧
      varItem p 8 = some (zeros 8, 24) ∧ (pairItem p 24).map (fun r => itemsEnd p r.2) = some true ∧
      leAt p 2 2 = 0 ∧ hybridDead b = none ∧ domMember (domRec b) = true ∧ domStale (domRec b) = false ∧ b.key.root ≠ none ∧
      b.bbram.bitmap.contains 10 = false ∧ domIndex (domRec b) = 9 := by
  refine ⟨turn_of _ _ (by decide +kernel) (by decide +kernel) (by decide +kernel), by decide +kernel, by decide +kernel, by decide +kernel, rfl, ?_, ?_,
    (by intro h; cases h), rfl, ?_⟩ <;> rw [dom_of_memberOf]
  · exact dom_fields.1
  · exact dom_fields.2.2.1
  · exact dom_fields.2.2.2.2.2.1
theorem witness_domain_sync : let p := fields 8 [(0, 4, 4096)] ++ packageParams
    let h := hjob 0x64 0xFFFF 0 p
    let k := hjob 0x65 0xFFFF 0 packageParams
    (DomainTurn (member h) h 0x64 (rulePlain h.req h.block) none ∧ fixedItem p 0 4 = some (p.take 4, 4) ∧ varItem p 4 = some (zeros 8, 24) ∧
      (pairItem p 24).map (fun r => itemsEnd p r.2) = some true ∧ domMember (domRec (member h)) = true ∧ (member h).key.root.isSome = true) ∧
    DomainTurn (member k) k 0x65 (rulePlain k.req k.block) none ∧ (packageItems packageParams).isSome = true ∧ hybridDead (member k) = none ∧
      domMember (domRec (member k)) = true := by
  refine ⟨⟨⟨⟨by decide +kernel, rfl, by decide +kernel, rfl⟩, rfl, rfl⟩, by decide +kernel, by decide +kernel, by decide +kernel, ?_, rfl⟩,
    ⟨⟨by decide +kernel, rfl, by decide +kernel, rfl⟩, rfl, rfl⟩, by decide +kernel, rfl, ?_⟩ <;> rw [dom_of_member] <;> exact dom_fields.1
theorem witness_domain_changes : ∀ c ∈ [(0x66, []), (0x67, fields 2 [(0, 2, 1)]), (0x68, fields 2 [(0, 2, 16383)])],
    DomainTurn (memberOf (hjob c.1 0x1000 5 c.2)) (hjob c.1 0x1000 5 c.2) c.1 (quorumRule (hjob c.1 0x1000 5 c.2)) (some (domSession (hjob c.1 0x1000 5 c.2))) := by
  intro c hc
  fin_cases hc <;> exact turn_of _ _ (by decide +kernel) (by decide +kernel) (by decide +kernel)
theorem witness_domain_leave : let h := hjob 0x69 0x1000 5 []
    DomainTurn (memberOf h) h 0x69 (ruleLeave h) (some (domSession h)) ∧ domMember (domRec (memberOf h)) = true := by
  refine ⟨⟨⟨by decide +kernel, rfl, gate_of rfl rfl rfl rfl (by decide) rfl rfl (stands _) (by decide +kernel) rfl, rfl⟩, rfl, rfl⟩, ?_⟩
  rw [dom_of_memberOf]; exact dom_fields.1


/-- The offer that a package names is gone once its command has run; a bad package names none. -/
theorem witness_offer_run : let h := hjob 0x63 0x1000 5 packageParams
    hsmReady (keeping 3 h) 0x63 7 = some h ∧ hsmOrphan (keeping 3 h) h = false ∧ (queues serving).kpr.hsm.any (fun x => x.id == 7) = false := by
  decide +kernel

/-! ### The life cycle -/

/-- LCS_ADVANCE from PROVISION to PRODUCTION, and from BLANK to TEST with a token; TOKEN_ROOT_REVOKE in TEST. -/
def toProduction : HsmJob := hjob 0x11 0 5 (fields 8 [(0, 1, 3)])
def toTest : HsmJob := hjob 0x11 0xFFFF 0 (fields 8 [(0, 1, 1)] ++ zeros tokenLen)
def revokeToken (e : Nat) : HsmJob := hjob 0x12 0xFFFF 0 (fields 8 [(0, 1, e)] ++ zeros tokenLen)

theorem witness_advance_by_quorum : let h := toProduction
    let x := session2 0 (ownerRec 0 1) h
    let b := under x (keeping 2 h)
    Passes b h 0x11 (ruleAdvance h b) (some x) ∧ advanceBad b h = none ∧ (lcsRow b 3).map (·.token) = some none := by
  exact ⟨passes_of (by decide +kernel) (by decide +kernel) (by decide +kernel) (by decide +kernel) (by decide +kernel) (by decide +kernel) (by decide)
    (by decide +kernel), by decide +kernel, by decide +kernel⟩
theorem witness_advance_by_token :
    Passes (keeping 0 toTest) toTest 0x11 (ruleAdvance toTest (keeping 0 toTest)) none ∧ advanceBad (keeping 0 toTest) toTest = none ∧
      (lcsRow (keeping 0 toTest) 1).map (·.token) = some (some tokenTestAdvance) := by unfold Passes; decide +kernel

/-- A transition of the monitor that drains, with nothing left in flight. -/
def draining85 (lcs target : Nat) (r : RngState) : Block :=
  { serving with
    run := { serving.run with lcs := lcs }, rng := { serving.rng with state := r }
    kpr := { serving.kpr with hsm := [{ toTest with req := .monitor, stage := .lcsDrain, note := [BitVec.ofNat 8 target] }] } }

theorem witness_drains : ∀ c ∈ [(0, 1, RngState.ready), (1, 2, .ready), (1, 2, .failed)], let b := draining85 c.1 c.2.1 c.2.2
    b.kpr.hsm.find? (fun y => y.stage == .lcsDrain) = some { toTest with req := .monitor, stage := .lcsDrain, note := [BitVec.ofNat 8 c.2.1] } ∧
      (lcsRow b c.2.1).isSome = true ∧ keeperRuns b = true ∧
      drained b { toTest with req := .monitor, stage := .lcsDrain, note := [BitVec.ofNat 8 c.2.1] } = true := by decide +kernel
/-- R85: with the group's bits taken, a reset is due; with none taken, not. -/
theorem test_drain : (after (.lcsDrainComplete 0xFFF) (draining85 0 1 .ready)).otp.resetDue = true ∧
    (after (.lcsDrainComplete 0) (draining85 0 1 .ready)).otp.resetDue = false := by decide +kernel
theorem test_transition_reset :
    (after .transitionReset (serving.onOtp (fun o => { o with resetDue := true }))).run.state = .reset := by decide +kernel

theorem witness_nonce : let h := hjob 0x10 0xFFFF 0 []
    Passes (keeping 3 h) h 0x10 { ruleAny h.block with sender := isPf0 h.req || !isFn h.req } none ∧ bkParam h.block = [] := by
  unfold Passes; decide +kernel
theorem witness_token_revoke : ∀ e ∈ [0, 3],
    Passes (keeping 1 (revokeToken e)) (revokeToken e) 0x12 (ruleTokenRevoke (revokeToken e) (keeping 1 (revokeToken e))) none ∧
      (bkParam (revokeToken e).block).length = 8 + tokenLen ∧ allZero (bkParam (revokeToken e).block) 1 7 = true ∧
      leAt (bkParam (revokeToken e).block) 0 1 = e := by unfold Passes; decide +kernel

/-- OTP_PROGRAM of the last word, and ROOT_REVOKE of entry 23. -/
def programOtp : HsmJob := hjob 0x13 0 5 (items [fields 8 [(0, 2, 511), (2, 2, 1)], zeros 4])
def revokeRoot : HsmJob := hjob 0x20 0 5 (fields 8 [(0, 1, 23)])

theorem witness_otp_program : let h := programOtp
    let p := bkParam h.block
    let x := session2 0 (ownerRec 0 1) h
    Passes (under x (keeping 2 h)) h 0x13 (ruleQuorum h.req h.block 0 0x0005 0x0005) (some x) ∧ fixedItem p 8 4 = some (zeros 4, 12) ∧
      itemsEnd p 12 = true ∧ leAt p 2 2 = 1 ∧ allZero p 4 4 = true ∧ leAt p 0 2 + 1 ≤ 512 := by
  exact ⟨passes_of (by decide +kernel) (by decide +kernel) (by decide +kernel) (by decide +kernel) rfl (by decide +kernel) (by decide)
    (by decide +kernel), by decide +kernel, by decide +kernel, by decide +kernel, by decide +kernel, by decide +kernel⟩
theorem witness_root_revoke : let h := revokeRoot
    let p := bkParam h.block
    let x := session2 0 (ownerRec 0 1) h
    let b := (under x (keeping 2 h)).onOtp (fun o => { o with cells := [(rootAt 23, 1)] })
    Passes b h 0x20 (ruleQuorum h.req h.block 0 0x0103 0x0103) (some x) ∧ p.length = 8 ∧ allZero p 1 7 = true ∧
      b.run.state = .service ∧ leAt p 0 1 = 23 ∧ rootProgrammed (otpWord b) 23 = true ∧ rootRevoked (otpWord b) 23 = false := by
  exact ⟨passes_of (lcs := 2) (code := 0x20) (auth := 0) (by decide +kernel) (by decide +kernel) (by decide +kernel) (by decide +kernel) rfl (by decide +kernel) (by decide)
    (by decide +kernel), by decide +kernel, by decide +kernel, rfl, by decide +kernel, by decide +kernel, by decide +kernel⟩


/-! ### Records, evidence, activation, update, debug -/

/-- A frame of the monitor. -/
def frame (code tag : Nat) (p : Bytes) : Bytes :=
  let b := lePut 1 code ++ lePut 1 tag ++ lePut 2 p.length ++ p
  b ++ lePut 4 (crc32c b).toNat

/-- The UART locked to a rate, in framed mode. -/
def talking (b : Block) : Block := { b with mon := { MonSt.reset with baud := 1, mode := .framed } }

/-- An Alias and one record in the retained region. -/
def recorded (b : Block) : Block :=
  { b with
    key := { b.key with aliasCdi := some (zeros 32) }
    rcd := { b.rcd with made := true }
    kept := { b.kept with frames := [{ frame := fields 64 [(4, 2, 32), (0x10, 8, 9)], persisted := true }] } }

/-- Flash with nothing programmed, 64 MiB behind chip select 0. -/
def emptyPort : PortView := { cs0 := some ⟨6, true, false, 256, true, true, false⟩, cs1 := none, extents := [], bad := [], fails := [] }
def emptyFlash : FlashView := ⟨emptyPort, emptyPort⟩

theorem witness_host_evidence :
    (∀ sel ∈ [0, 2], let p := fields 16 [(0, 1, sel), (4, 4, 32)]
     let h := hjob 1 0xFFFF 0 p
     let b := recorded (keeping 3 h)
     Passes b h 1 (ruleAny h.block) none ∧ leAt p 1 1 = 0 ∧ ringReadable b = true) ∧
    (∀ n ∈ [8, 64], let p := fields 8 [(0, 1, n)] ++ zeros n
     let h := hjob 3 0xFFFF 0 p
     let b := recorded (keeping 3 h)
     Passes b h 3 (ruleAny h.block) none ∧ p.length = 8 + n ∧ allZero p 1 3 = true ∧ hybridDead b = none ∧ (newestRecord b).isSome = true) := by
  unfold Passes; decide +kernel
theorem witness_host_certificates :
    (∀ which ∈ [0, 3], let p := fields 8 [(0, 1, 2), (1, 1, which), (4, 4, 4096)]
     let h := hjob 2 0xFFFF 0 p
     let b := recorded (keeping 3 h)
     Passes b h 2 (ruleAny h.block) none ∧ p.length = 8 ∧ leAt p 2 2 = 0 ∧ b.key.aliasCdi.isSome = true) ∧
    ∃ out, certOf (recorded (keeping 3 (hjob 2 0xFFFF 0 []))) false .mfg = some out := by
  refine ⟨by unfold Passes; decide +kernel, _, rfl⟩

theorem witness_evidence_served : let b := recorded (talking serving)
    (∀ c ∈ [(0x10, 12), (0x11, 4), (0x13, 1), (0x12, 12)],
      Served b (frame c.1 5 (fields c.2 [(0, 1, if c.1 = 0x12 then 8 else 0)])) c.1 5 (fields c.2 [(0, 1, if c.1 = 0x12 then 8 else 0)])) ∧
      ringReadable b = true ∧ ServedMctp b 0x30 ∧ b.run.state ≠ .frozen ∧ (newestRecord b).isSome = true := by
  unfold Served ServedMctp; decide +kernel
/-- R178: over MCTP a reply bears the code with bit 7 set and, in FROZEN, the status FROZEN with no output. -/
theorem test_certificate_frozen : let b := { serving with run := { serving.run with state := .frozen } }
    certAnswer (zeros 4) b = (lePut 2 stFrozen ++ zeros 8, b) := by decide +kernel

theorem witness_recorder :
    AdminReady (withJob (adminJob 0x87 [(0x28, 8, 0x100000), (0x18, 8, 196672)]) (queues serving)) (adminJob 0x87 [(0x28, 8, 0x100000), (0x18, 8, 196672)]) 0x87 ∧
    (let b : Block := putCell 1023 { EvCell.swept 1023 with used := true } serving
     (evCell b 1023).used = true ∧ (evCell b 1023).tokens < burstOf b (evSeverity (evCell b 1023).code)) ∧
    (let b : Block := serving.onEvr (fun e => { e with tally := [(1, 1)] })
     keeperRuns b = true ∧ b.evr.tally ≠ []) ∧
    (let b : Block := serving.onPins (fun p => { p with sbAlert := true })
     bit b.pins.straps 2 = false ∧ b.pins.sbDisabled = false ∧ b.pins.sbAlert = true) := by
  unfold AdminReady Waiting; decide +kernel
theorem witness_harvest_clear : let h := hjob 0x70 0 5 []
    let x := session2 0 (ownerRec 0 1) h
    Passes (under x (keeping 2 h)) h 0x70 (ruleQuorum h.req h.block 0 0x0506 0x0509) (some x) ∧ (bkParam h.block).all (· == 0) = true := by
  exact ⟨passes_of (by decide +kernel) (by decide +kernel) (by decide +kernel) (by decide +kernel) rfl (by decide +kernel) (by decide)
    (by decide +kernel), by decide +kernel⟩
/-- R441: one token. -/
theorem test_token : (evCell (after (.tokenRefill 5) (putCell 5 { EvCell.swept 5 with used := true } serving)) 5).tokens = 1 := by decide +kernel

/-- A directory with class 0 (chip select 0, slots of 2 MiB) and class 1. -/
def directory : Bytes :=
  fields 4096 [(0, 4, 0x4A445231), (4, 2, 1), (6, 2, 2), (0x14, 4, 0x200000), (0x18, 4, 0x400000), (0x1C, 4, 0x200000), (0x30, 1, 1),
    (0x34, 4, 0x600000), (0x38, 4, 0x800000), (0x3C, 4, 0x200000)]

/-- FLA serves the classes; the keeper runs from slot B, though slot A was accepted. -/
def booted (b : Block) : Block :=
  { b with boot := { b.boot with port := some 0, source := 1, directory := directory, slot := 1, classes := [(0, classAccepted [] [] 0 0x200000 7 false true)] } }

theorem passes_booted {b : Block} {h : HsmJob} {code : Nat} {r : HsmRule} {x : Option EqxSession} (p : Passes b h code r x) :
    Passes (booted b) h code r x := p

theorem witness_activation : ∀ port ≤ 1, let p := fields 8 [(0, 1, port), (1, 1, 1)]
    let h := hjob 0x21 0xFFFF 0 p
    let b := booted (keeping 3 h)
    Passes b h 0x21 (rulePlain h.req h.block) none ∧ p.length = 8 ∧ allZero p 2 6 = true ∧ b.run.state = .service ∧
      b.flt.acts.any (fun a => liveAct b a && a.port == port && a.cls == 1) = false ∧ (port = 0 ↔ b.boot.port = some port) ∧
      (entryFor b.boot.directory 1).isSome = true := by
  unfold Passes; decide +kernel
/-- An activation whose operation ends. -/
def activating1 (step : ActStep) : Block :=
  let h := { hjob 0x21 0xFFFF 0 (fields 8 [(1, 1, 1)]) with stage := .activating }
  let b := onPort 0 (fun p => { p with running := some ⟨1, .read, 0, 64, [], 1, [.keeper 7]⟩ }) (keeping 3 h)
  b.onFlt (fun f => { f with acts := [{ job := 7, port := 0, cls := 1, step := step, dir := directory, toRead := [], closed := [(0x600000, 0x200000)],
                                        manifests := [], seqs := [], slot := 0, image := [], mark := fields 64 [(8, 4, 3)] }] })
theorem witness_activation_ends : ∀ step ∈ [ActStep.dir, .manifest 0, .marker 1, .image, .program, .readback], ∀ ok : Bool,
    ((portOf (activating1 step) 0).running.map (·.waiters)) = some [.keeper 7] ∧
      (actOf (flashOpComplete 0 [] ok (activating1 step)) 7).map (·.2.step) = some step := by decide +kernel
/-- R119: the marker that reads back as written ends BOOT_ACTIVATE, and its slot is open again. -/
theorem test_activated : (after (.flashOpComplete 0 (fields 64 [(8, 4, 3)]) true) (activating1 .readback)).flt.acts = [] ∧
    (after (.flashOpComplete 0 (fields 64 [(8, 4, 3)]) true) (activating1 .readback)).kpr.hsm = [] := by decide +kernel

def updating : HsmJob := hjob 0x22 0 5 (zeros 8)
theorem witness_update : let h := updating
    let x := session2 0 (ownerRec 0 1) h
    let b := booted (under x (keeping 2 h))
    (Passes b h 0x22 (ruleQuorum h.req h.block 0 0x0702 0x0702) (some x) ∧ updateParamsOk (bkParam h.block) = true) ∧ mayUpdate b h ∧
      hybridDead b = none := by
  refine ⟨⟨passes_booted (passes_of (by decide +kernel) (by decide +kernel) (by decide +kernel) (by decide +kernel) rfl
    (by decide +kernel) (by decide) (by decide +kernel)), by decide +kernel⟩, ?_, rfl⟩
  unfold mayUpdate; decide +kernel
theorem witness_update_slot : ∃ e i, newSlot (booted serving) emptyFlash 0 e i := by
  exact ⟨dirEntry directory 0, 0, by decide +kernel, by decide +kernel, by decide +kernel, by decide +kernel⟩
theorem witness_update_switch : let h := { updating with stage := .keeperSwitch }
    let b := (booted (keeping 2 h)).onKpr (fun k => { k with stopped := true, update := some (zeros 4096) })
    b.kpr.hsm.find? (fun y => y.stage == .keeperSwitch) = some h ∧ b.kpr.update.isSome = true ∧ keeperRuns b = true ∧
      writableNow b 0 = true ∧ writableNow b 1 = true := by decide +kernel

/-- DEBUG_UNLOCK of the monitor, in PROVISION and in RETURN. -/
def unlocking (lcs : Nat) : Prop :=
  let h := { hjob 0x71 0 5 [] with req := .monitor }
  let x := { session2 0 (ownerRec 0 1) h with opener := .monitor }
  let b : Block := { serving with run := { serving.run with lcs := lcs }, kpr := { serving.kpr with hsm := [h], sessions := [x] } }
  Passes b h 0x71 (ruleDebug h) (some x) ∧ 2 ≤ b.run.lcs ∧ b.run.lcs ≤ 4 ∧ hybridDead b = none
theorem witness_debug : unlocking 2 ∧ unlocking 4 := by
  constructor <;>
    exact ⟨⟨by decide +kernel, rfl, gate_of (by decide) rfl (by decide +kernel) rfl (by decide) rfl (by decide +kernel) rfl (by decide +kernel) rfl, rfl⟩,
      by decide, by decide, rfl⟩


/-! ### Link, random source, units, governor -/

/-- The host released in SERVICE, power good by message, the link down. -/
def released : Block :=
  { serving with link := { serving.link with phase := .down, pwrgdMsg := true }, pins := { serving.pins with released := true } }

theorem witness_link : (released.link.phase ≠ .active ∧ linkAnswers released = true ∧ (widthOf released 0 .x64 ≠ .none)) ∧
    (linkAnswers { released with run := { released.run with state := .frozen } } = true) ∧
    serving.link.phase = .active ∧ { serving with link := { serving.link with phase := .retrain } }.link.phase ≠ .down := by decide +kernel
theorem witness_functions : (fnEnabled serving 4 = true ∧ fnEnabled serving 5 = false ∧ serving.link.vfEnable = true) ∧
    ((fnOf serving 1).bme = true ∧ (fnOf serving 2).bme = false ∧ (fnOf serving 1).d3hot = false) ∧
    (let b := onFn serving 4 (fun f => { f with d3hot := true })
     fnEnabled b 4 = true ∧ (fnOf b 4).d3hot = true) := by decide +kernel
/-- R203: a function-level reset clears Bus Master Enable of a VF; R188: VF Enable cleared disables every VF. -/
theorem test_vf_resets : (fnOf (after (.busMasterEnableClear 1) serving) 1).bme = false ∧ (after .vfEnableClear serving).link.vfEnable = false ∧
    fnEnabled (after .vfEnableClear serving) 1 = false := by decide +kernel

/-- A read of 128 bytes in flight as one request. -/
def reading (f : WorkSt → WorkSt) : Block :=
  { queues serving with work := f { (queues serving).work with
    reads := [{ num := 3, fn := 0, world := false, kind := .source 7, len := 128, got := [] }]
    pieces := [(256, { num := 3, off := 0, fn := 0, world := false, addr := 0x8000, len := 128 })] } }

theorem witness_reads :
    (∀ res ∈ [(⟨zeros 128, []⟩ : HostData), ⟨zeros 64, [⟨64, 64, .poisoned⟩]⟩], let b := tagFree 256 (poisonNoted 0 res (reading id))
      (tget (reading id).work.pieces 256).map (·.num) = some 3 ∧ (b.work.reads.find? (fun x => x.num == 3)).isSome = true) ∧
    (let b := reading (fun w => { w with reads := [] })
     (tget b.work.pieces 256).isSome = true ∧ ((tagFree 256 (poisonNoted 0 ⟨[], []⟩ b)).work.reads.find? (fun x => x.num == 3)) = none) ∧
    (let b := reading (fun w => { w with pieces := [], timedOut := [(256, 0)] })
     tget b.work.pieces 256 = none ∧ tget b.work.timedOut 256 = some 0) ∧
    (let b := tagFree 256 ((advise 0 aerTimeout (reading id)).onWork (fun w => { w with timedOut := tset w.timedOut 256 0 }))
     ([] : Bytes).length < 128 ∧ (zeros 127).length < 128 ∧ (b.work.reads.find? (fun x => x.num == 3)).isSome = true) := by decide +kernel

theorem witness_bad_requests : (fnEnabled serving 0 = true ∧ implemented 0 0x100000 = false ∧ implemented 1 0 = true ∧ fnEnabled serving 5 = false) ∧
    ((fnOf (onFn serving 0 (fun f => { f with d3hot := true })) 0).d3hot = true) ∧
    (¬ ((2 = 4 ∧ 0 % 4 = 0) ∨ (2 = 8 ∧ 0 % 8 = 0)) ∧ implemented 0 0 = true) ∧ ¬ ((8 = 4 ∧ 4 % 4 = 0) ∨ (8 = 8 ∧ 4 % 8 = 0)) := by decide +kernel
/-- R14: a read of 2 bytes gives ones, and is counted. -/
theorem test_bad_width : sent (.badWidthAccess 0 false 2 2) serving = [.completion 0 .success [0xFF, 0xFF]] ∧
    (after (.badWidthAccess 0 true 2 2) serving).link.badAccess = 1 := by decide +kernel

theorem witness_power_good :
    (serving.run.state = .service ∧ hostPwrgdOk serving = false ∧ serving.pins.pwrgdHold = false) ∧
    (let b := { released with pins := { released.pins with pwrgdHold := true } }
     b.run.state = .service ∧ b.pins.pwrgdHold = true ∧ hostPwrgdOk b = true) ∧
    ({ serving with link := { serving.link with hsPending := some true } }.link.hsPending = some true) ∧ serving.sb.up = false := by decide +kernel
/-- R198: READY 0 leaves first; a HOST_RESET that is not acknowledged is counted. -/
theorem test_handshake : sent .sidebandComesUp serving = [.sideband 4 false] ∧
    (after .hostResetResend { serving with link := { serving.link with hsPending := some true } }).link.hsResends = 1 := by decide +kernel

/-- The random source in a state. -/
def source (r : RngState) : Block := { serving with rng := { serving.rng with state := r } }

theorem witness_random_source : (rngRuns (source .startup) = true ∧ (source .startup).rng.state = .startup) ∧
    (∀ p : Bool, ((healthFailed p serving).rng.state = .ready ∧ (healthFailed p (source .startup)).rng.state = .startup)) ∧
    (fnEnabled serving 0 = true ∧ (fnOf serving 0).d3hot = false ∧ serving.run.state ≠ .frozen) ∧
    (let h := hjob 0x30 0 0 []
     (source .selfTest).rng.state = .selfTest ∧ (keeping 3 h).kpr.hsm.find? (fun x => x.id == h.id && x.stage == .waiting) = some h) ∧
    (let j := { ioJob 0x50 [] with stage := .running }
     (withJob j (source .selfTest)).kpr.hsm.find? (fun x => x.id == j.id && x.stage == .waiting) = none ∧ jobOf (withJob j (source .selfTest)) 7 = some j ∧
       dOp j.desc = 0x50) := by decide +kernel
/-- R372: the third failure in 2^20 raw samples is an alarm, and starts a self-test. -/
theorem test_third_failure : (after (.rngHealthFail false) { serving with rng := { serving.rng with runFails := [0, 0] } }).rng.state = .selfTest ∧
    (after (.rngHealthFail true) serving).rng.state = .startup := by decide +kernel

/-- Every engine of JT-H48F stands by. -/
def alarmable : Block := engines serving
theorem witness_alarms : unitsRun alarmable = true ∧ (laneAt alarmable 7).state = .idle ∧
    ((alarmable.sce.cores[63]?).map (fun c => decide (c.state ≠ .off ∧ c.state ≠ .failed ∧ c.state ≠ .selfTest))) = some true ∧
    ((alarmable.dge.pipes[5]?).map (fun p => (p.failed, p.selfTest))) = some (false, false) ∧
    ((pkAt alarmable .pkMod).state ≠ .failed ∧ (pkAt alarmable .pkMod).state ≠ .selfTest) ∧ alarmable.vlt.failed = false ∧
    (rngRuns alarmable = true ∧ alarmable.rng.state ≠ .failed) := by decide +kernel
/-- R21: an alarm of an idle lane is counted and starts its self-test. -/
theorem test_lane_alarm : ((laneAt (after (.engineAlarm (.lane 7 0)) alarmable) 7).state, (laneAt (after (.engineAlarm (.lane 7 0)) alarmable) 7).alarms) =
    (LaneState.selfTest, 1) := by decide +kernel

theorem witness_unit_reset : (RegReach alarmable 0x7FF0FF00 0x0001000F ∧ RegReach alarmable 0x7FF0FF00 0x8007000F) ∧
    (alarmable.pwr.resetting = none ∧ alarmable.leg.core = none) ∧ bit (0x8001000F : Word).toNat 31 = true ∧
    bit (0x0001000F : Word).toNat 31 = false ∧ unitNamed .jtH48F (bits (0x80070000 : Word).toNat 19 16) (bits (0x80070000 : Word).toNat 7 0) = none ∧
    (unitNamed .jtH48F (bits (0x80010007 : Word).toNat 19 16) (bits (0x80010007 : Word).toNat 7 0)).map (unitFailed alarmable) = some false := by
  unfold RegReach; decide +kernel
theorem witness_unit_failed : unitFailed (source .failed) .rng = true := by decide
theorem witness_quiesce : let b : Block := alarmable.onPwr (fun p => { p with quiesce := [(.lane 7, .reset)] })
    b.pwr.quiesce.find? (fun q => q.1 == .lane 7) = some (.lane 7, .reset) ∧ quiesceWaits b (.lane 7) .reset = false := by decide +kernel
theorem witness_self_test : unitsRun alarmable = true ∧ inSelfTest (onLane 0 (fun l => { l with state := .selfTest }) alarmable) (.lane 0) = true := by
  decide +kernel
/-- R459: UNIT 7 is no unit: RESULT 1. -/
theorem test_no_unit : (after (.unitReset 0x80070000) alarmable).pwr.result = 1 ∧ (after (.unitReset 0x80070000) alarmable).pwr.done = true := by decide +kernel

def cool : Sensors := ⟨25, 25, 900, false, false, 8, 64⟩
theorem witness_governor :
    AdminReady (withJob (adminJob 0x88 [(0x30, 2, 440)]) (queues serving)) (adminJob 0x88 [(0x30, 2, 440)]) 0x88 ∧
    (alarmable.run.state = .service ∧ (∃ d, d = choose (heated cool alarmable) cool)) ∧
    (let b := sensed cool alarmable
     ¬ ((choose (heated cool alarmable) cool).lanes = b.pwr.goalLanes ∧ (choose (heated cool alarmable) cool).cores = b.pwr.goalCores ∧
       (choose (heated cool alarmable) cool).mv = b.pwr.goal)) ∧
    (let d := choose (heated cool alarmable) cool
     let b : Block := alarmable.onPwr (fun p => { p with goalLanes := d.lanes, goalCores := d.cores, goal := d.mv })
     let e := choose (heated cool b) cool
     e.lanes = (sensed cool b).pwr.goalLanes ∧ e.cores = (sensed cool b).pwr.goalCores ∧ e.mv = (sensed cool b).pwr.goal) ∧
    (alarmable.onPwr (fun p => { p with avsBusy := true })).pwr.avsBusy = true ∧
    avsActive (alarmable.onPins (fun p => { p with straps := 8 })) = true := by
  refine ⟨by unfold AdminReady Waiting; decide +kernel, ⟨rfl, _, rfl⟩, by decide +kernel, by decide +kernel, rfl, by decide +kernel⟩


/-! ### Supplies, boot, Thaw -/

/-- A supply that has not started, one that rises, one that is good. -/
def railAt (u : Supply) (started good : Bool) : Block :=
  putRail u { started := started, good := good, startedAt := 0, goodAt := 0, lowAt := 0 } serving

theorem witness_supplies : ∀ u ∈ [Supply.ana, .core, .ucie, .io], (rail (railAt u false false) u).started = false ∧
    ((rail (railAt u true false) u).started = true ∧ (rail (railAt u true false) u).good = false ∧ (rail (railAt u true false) u).goodAt = 0) ∧
    (rail (railAt u true true) u).good = true ∧ (u = .ana ∨ (railAt u false false).sup.pgood = true) := by decide +kernel
theorem witness_power_good_falls : let b := railAt .core true false
    b.sup.pgood = true ∧ railsGood b = false := by decide +kernel
/-- R67: VDD_CORE's start before VDD_ANA is good is fault 1; a good VDD_CORE 1 ms after VDD_UCIE's with VDD_IO started is 2 and 3, shown as 3. -/
theorem test_supply_faults : (after (.supplyThresholdCrossing .core .starts) (putRail .core ⟨false, false, 0, 0, 0⟩ (railAt .ana true false))).sup.fault = 1 ∧
    ((after (.supplyThresholdCrossing .core .good) { railAt .core true false with time := { serving.time with mono := 5000 } }).sup.fault,
     (after (.supplyThresholdCrossing .core .good) { railAt .core true false with time := { serving.time with mono := 5000 } }).sup.faultCount) = (3, 2) := by
  decide +kernel
/-- R71: 2,500 mV is not low. -/
theorem test_battery : (after (.vbatLow 2400) serving).sup.vbatMv = 2400 ∧ (after (.vbatReturn 2500) serving).sup.vbatMv = 2500 := by decide +kernel

/-- A ROM entry with nothing on the flash ports. -/
def entry : BootEnv := { straps := 0, unstable := 0, kat := [], flash := emptyFlash, bbramBad := [], ctlBad := [], weak := [] }

theorem witness_rom : Block.reset.run.state = .reset ∧ railsGood Block.reset = true ∧ Block.reset.sup.held = false ∧
    Block.reset.pins.sysRstLow = false := by decide +kernel

/-- ROM, at its wait for a transport or for SFDP. -/
def walking (w : WalkWait) (order : List Nat) : Block :=
  { serving with run := { serving.run with state := .rom }, boot := { serving.boot with wait := w, order := order } }

theorem witness_walk : ((walking .sfdp [1]).run.state = .rom ∧ (walking .sfdp [1]).boot.wait = .sfdp) ∧ (walking .listen [4]).boot.wait = .listen := by
  decide
/-- R103: a listen window that expires at the last source leads to THAW, its reason 1. -/
theorem test_listen : (after (.listenWindowExpiry emptyFlash) (walking .listen [4])).run.state = .thaw ∧
    (after (.listenWindowExpiry emptyFlash) (walking .listen [4])).boot.thawReason = 1 := by decide +kernel
theorem witness_host_release :
    let b : Block := { released with run := { serving.run with state := .keeperBoot }, boot := { serving.boot with frozenSet := true } }
    b.run.state = .keeperBoot ∧ b.boot.frozenSet = true ∧ b.boot.recordHold = false ∧ hostPwrgdOk b = true := by decide +kernel
/-- R49: SYS_RST_N held low is a chip reset. -/
theorem test_sys_rst : (after .sysRstNRecognised serving).run.state = .reset ∧ (after .sysRstNRecognised serving).pins.sysRstLow = true := by
  decide +kernel

/-- An offer of one image that a transport holds, after `n` bytes. -/
def offered (t n : Nat) : ThawOffer := { newOffer t (fields 8 [(0, 4, 32768), (4, 4, 1)]) 0 with taken := n }

/-- A transport at ROM's position, with the UART talking, and its offer if it has one. -/
def thawing (t : Nat) (o : Option ThawOffer) : Block :=
  talking { walking .listen [t] with boot := { (walking .listen [t]).boot with offer := o } }

theorem witness_thaw_offers : let p := fields 8 [(0, 4, 32768), (4, 4, 1)]
    (Served (thawing 3 none) (frame 1 9 p) 1 9 p ∧ offers (thawing 3 none) 3) ∧ (ServedMctp (thawing 4 none) 0x30 ∧ offers (thawing 4 none) 4) ∧
    (Served (talking serving) (frame 1 9 p) 1 9 p ∧ thawAnswers (talking serving) 3 = true ∧ offersTaken (talking serving) = false) ∧
    (thawAnswers (thawing 4 (some (offered 3 0))) 4 = true ∧ otherOffer (thawing 4 (some (offered 3 0))) 4 = true) := by
  unfold Served ServedMctp offers; decide +kernel
theorem witness_thaw_chunks : ∀ t ∈ [3, 4], let p := fields 12 [(0, 4, 100)]
    let b := thawing t (some (offered t 100))
    Served b (frame 2 9 p) 2 9 p ∧ ServedMctp b 0x30 ∧ portsFree b ∧ chunkNext b t (offered t 100) p ∧ chunkStray b t (offered t 100) (zeros 12) ∧
      chunkNext (thawing t (some (offered t 32760))) t (offered t 32760) (fields 12 [(0, 4, 32760)]) ∧
      chunkStray (thawing t (some (offered t 32760))) t (offered t 32760) (fields 13 [(0, 4, 32760)]) := by
  unfold Served ServedMctp portsFree chunkNext chunkStray; decide +kernel
theorem witness_bundle_gathers : let b := thawing 3 (some (offered 3 0))
    b.boot.offer = some (offered 3 0) ∧ zeros 16383 ≠ [] ∧ (offered 3 0).code = 0 ∧ (offered 3 0).left ≠ 0 ∧
      (offered 3 0).head.length + (zeros 16383).length < manifestLen := by
  refine ⟨rfl, fun h => ?_, rfl, by decide +kernel, ?_⟩
  · have e : (zeros 16383).length = 16383 := List.length_replicate
    rw [h] at e; cases e
  · rw [show (zeros 16383).length = 16383 from List.length_replicate]; decide
theorem witness_thaw_end_and_status : ∀ t ∈ [3, 4], let b := thawing t (some (offered t 100))
    Served b (frame 3 9 []) 3 9 [] ∧ Served b (frame 4 9 []) 4 9 [] ∧ ServedMctp b 0x30 ∧ thawAnswers b t = true ∧ heldOffer b t = some (offered t 100) := by
  unfold Served ServedMctp; decide +kernel
/-- R121: an offer in ROM enters THAW; an END before the bundle is whole fails with FETCH_ERROR. -/
theorem test_thaw : (after (.thawOffer (.mctp 0x30 (fields 8 [(0, 4, 32768), (4, 4, 1)])) emptyFlash) (thawing 4 none)).run.state = .thaw ∧
    sent (.thawEnd (.mctp 0x30 []) emptyFlash) (thawing 4 (some (offered 4 100))) = [.mctp true true 0 [0x7E, 0x83, 1, 0xE]] := by decide +kernel


/-! ### The flash interposer -/

/-- FLA with 64 MiB behind chip select 0, and one rule over its first 16 MiB: all rights to the host, or a verified region to read. -/
def ruled (verified : Bool) : Block :=
  onPort 0 (fun p => { p with
    cs0 := .found ⟨6, true, false, 256, true, true, false⟩
    rules := [(1, { base := 0, size := 0x1000000, rights := 0xFFFF, valid := true, verified := verified, append := false, cls := 1, ledger := 0 })] })
    { serving with flt := { serving.flt with mode := 1, solstice := true } }

theorem witness_window : (∀ v : Bool, (fnOf (ruled v) 0).d3hot = false ∧ (ruled v).run.state ≠ .frozen ∧
      windowPlace (ruled v) 0x40000000 64 = (some 0, true) ∧ windowPlace (ruled v) 0x41000000 1 = (some 0x1000000, true) ∧
      (flashJudge (ruled v) 0 .host opRead 0 64 = .allowed (ruleFor (portOf (ruled v) 0) 0 64)) ∧ (ruleFor (portOf (ruled v) 0) 0 64).isSome = true ∧
      flashJudge (ruled v) 0 .host opRead 0x1000000 1 = .refused false ∧ windowPlace (ruled v) 0 64 = (none, false)) := by decide +kernel
/-- R144: what no class holds is a Completer Abort. -/
theorem test_window_abort : sent (.hostBootWindowRead 0 64) (ruled true) = [.completion 0 .abort []] ∧
    (after (.bootWindowWrite 0x7FFFFFFF) (ruled true)).flt.refuseCount = 1 := by decide +kernel

/-- An operation that runs on FLA. -/
def working (kind : FlashKind) (rank : Nat) : Block :=
  onPort 0 (fun p => { p with running := some ⟨1, kind, 0, 64, [], rank, []⟩ }) (ruled true)
theorem witness_operation_ends : ∀ x ∈ [(FlashKind.fill, 3), (.read, 3), (.program, 4), (.erase64K, 5)],
    ((portOf (working x.1 x.2) 0).running.map (fun o => (o.kind, o.rank, o.waiters))) = some (x.1, x.2, []) ∧
      (ruleFor (portOf (onPort 0 (fun p => { p with running := none }) (working x.1 x.2)) 0) 0 4096).isSome = true := by decide +kernel

theorem witness_mailbox : ∀ cmd ∈ [1, 2, 3, 4],
    let b : Block := { ruled false with flt := { (ruled false).flt with mbxCmd := cmd, mbxAddr := 0x10000 } }
    MbxStarts b 0x80001000 cmd (b.onFlt (fun f => { f with mbxLen := 4096 })) := by unfold MbxStarts RegReach; decide +kernel
/-- R145: a length past the block ends with RESULT 4. -/
theorem test_mailbox : (after (.mbxRead 0x80001000) { ruled false with flt := { (ruled false).flt with mbxCmd := 1, mbxAddr := 1 } }).flt.mbxResult = 4 ∧
    (after (.mbxErase4K 0x80000000) { ruled false with flt := { (ruled false).flt with mbxCmd := 3, mbxAddr := 0x10000 } }).flt.mbxBusy = true := by
  decide +kernel

/-- An allow-list with one opcode of a KIND and 3 address bytes. -/
def spitting (op kind : Nat) : Block := { ruled false with flt := { (ruled false).flt with allow := [(op, 0x030001 + kind * 256)], spitRstEn := true } }
theorem witness_spit : (∀ kind ∈ [0, 1, 2, 3, 5, 6, 7, 8, 9, 10, 11], Allowed (spitting 255 kind) 255 kind) ∧ Allowed (spitting 5 5) 0x05 5 ∧
    (spitting 255 11).flt.spitRstEn = true ∧ ({ serving with flt := { serving.flt with mode := 4 } }.flt.mode = 4) ∧
    ((spitting 255 4).flt.mode ≠ 4 ∧ (spitting 255 4).run.state ≠ .reset ∧ spitKind (spitting 255 4) 255 = none) := by
  unfold Allowed; decide +kernel
/-- R147: an opcode without a KIND alerts with cause 1; R149: the identity is 7F 4A 48. -/
theorem test_spit : ((after (.spitOpcodeRefused 0x99) (spitting 255 9)).pins.spitAlert, (after (.spitOpcodeRefused 0x99) (spitting 255 9)).pins.spitCause) = (true, 1) ∧
    sent (.spitReadId 255) (spitting 255 9) = [.spit [0x7F, 0x4A, 0x48]] := by decide +kernel


/-! ### SPDM and TDISP -/

/-- Session 9, at a stage, its keys of no bytes (AES over no round key leaves a block as it is). -/
def session9 (up : Bool) : SpdmSession :=
  { sid := 9, up := up, ending := false, secret := zeros 96, trans := [], keys := ⟨[], zeros 12, [], zeros 12⟩, reqSeq := 0, rspSeq := 0, next := none }

/-- A requester's record of a session, without the session number. -/
def sealed (req : Bytes) : Bytes :=
  (secSeal { session9 true with rspSeq := 0 } req).drop 4

/-- The keeper serves; the connection of DOE and MCTP at a phase, with one record made, and session 9. -/
def speaking (phase : SpdmPhase) (up : Bool) : Block :=
  let b := recorded serving
  { b with rcd := { b.rcd with mctp := { SpdmConn.reset with phase := phase }, doe := { SpdmConn.reset with phase := phase }, sessions := [session9 up] } }

/-- An SPDM request: version 1.3, its code, two parameters, the rest. -/
def spdm (n code p1 p2 : Nat) (l : List (Nat × Nat × Nat)) : Bytes := fields n ((0, 1, 0x13) :: (1, 1, code) :: (2, 1, p1) :: (3, 1, p2) :: l)

theorem witness_spdm_setup : ∀ via ∈ [SpdmVia.doe, .mctp 0x30],
    (let r : Bytes := [0x10, 0x84, 0, 0]
     SpdmTurn (speaking .none true) 0x84 via r r ∧ inClear via = true) ∧
    (let r := spdm 20 0xE1 0 0 [(12, 4, 4608), (16, 4, 4608)]
     SpdmTurn (speaking .version true) 0xE1 via r r ∧ (connOf (speaking .version true) via).phase = .version ∧ 42 ≤ leAt r 12 4 ∧
       leAt r 12 4 ≤ leAt r 16 4 ∧ (connOf (speaking .ready true) via).phase ≠ .version ∧ SpdmTurn (speaking .ready true) 0xE1 via r r) ∧
    (let r := spdm 36 0xE3 1 0 [(4, 2, 36), (8, 4, 0x80), (12, 4, 2), (32, 1, 2), (33, 1, 0x20), (34, 2, 0x10)]
     SpdmTurn (speaking .capabilities true) 0xE3 via r r ∧ (connOf (speaking .capabilities true) via).phase = .capabilities ∧ 32 ≤ r.length ∧
       leAt r 4 2 = r.length ∧ (algStructs (leAt r 2 1) (r.drop (32 + 4 * (leAt r 28 1 + leAt r 29 1)))).length = leAt r 2 1) := by
  unfold SpdmTurn; decide +kernel
theorem witness_spdm_ready : (∀ via ∈ [SpdmVia.doe, .mctp 0x30], ∀ r ∈ [spdm 4 0x81 0 0 [], spdm 8 0x82 0 0 [(6, 2, 4096)], spdm 44 0x83 0 0xFF [],
      spdm 45 0xE0 1 0xFF [], spdm 12 0xE0 0 0 []],
      SpdmTurn (speaking .ready true) (leAt r 1 1) via r r ∧ spdmReady (speaking .ready true) via = true) ∧
    (leAt (spdm 8 0x82 0 0 [(4, 2, 65535)]) 4 2 = 65535 ∧ summaryKind 0xFF = true) ∧ (newestRecord (speaking .ready true)).isNone = false ∧
    CanSign (speaking .ready true) ∧ (newestRecord serving).isNone = true := by
  unfold SpdmTurn CanSign; decide +kernel
theorem witness_spdm_others : (let r := spdm 4 0xEC 0 0 []
     SpdmTurn (speaking .ready true) 0xEC (.mctp 0x30) r r ∧ spdmBase.contains 0xEC = false ∧ sessionUp (speaking .ready true) (.mctp 0x30) = false) ∧
    (spdmPath (speaking .ready true) (.session 9) = true ∧ spdmOpen (speaking .ready true) (.session 9) [1] = none) := by
  unfold SpdmTurn; decide +kernel

/-- The base point of P-384. -/
def baseX : Nat := 0xAA87CA22BE8B05378EB1C71EF320AD746E1D3B628BA79B9859F741E082542A385502F25DBF55296C3A545E3872760AB7
def baseY : Nat := 0x3617DE4A96262C6F5D9E98BF9292DC29F8F41DBD289A147CE9DA3113B5F0B8C00A60B1CE1D7E819D7A431D7C90EA0E5F

/-- KEY_EXCHANGE with a point. -/
def exchange (point : Bytes) : Bytes := patch (spdm 138 0xE4 0 0 [(4, 2, 1)]) 40 point

theorem witness_key_exchange : ∀ p ∈ [zeros 96, bePut 48 baseX ++ bePut 48 baseY], let r := exchange p
    SpdmTurn (speaking .ready false) 0xE4 .doe r r ∧ 138 + leAt r 136 2 ≤ r.length ∧ leAt r 3 1 = 0 ∧ summaryKind (leAt r 2 1) = true ∧
      (speaking .ready false).rcd.sessions.length < 4 ∧ CanSign (speaking .ready false) ∧
      (pkValid 0x02 (0x04 :: slice r 40 96) = true ↔ p ≠ zeros 96) := by unfold SpdmTurn CanSign; decide +kernel
theorem witness_sessions :
    (let r := spdm 52 0xE5 0 0 []
     SpdmTurn (speaking .ready false) 0xE5 (.session 9) (sealed r) r ∧ (spdmSession (tookRecord (.session 9) (speaking .ready false)) 9).map (·.up) = some false ∧
       r.length = 52) ∧
    (let r := spdm 4 0xEC 0 0 []
     SpdmTurn (speaking .ready true) 0xEC (.session 9) (sealed r) r ∧ (spdmSession (tookRecord (.session 9) (speaking .ready true)) 9).map (·.up) = some true) := by
  unfold SpdmTurn; decide +kernel

/-- FINISH with the right proof. -/
def finishing : Bytes := [0x13, 0xE5, 0, 0] ++ verifyData (zeros 48) "req hs data" (zeros 48) [0x13, 0xE5, 0, 0]
theorem witness_finish : SpdmTurn (speaking .ready false) 0xE5 (.session 9) (sealed finishing) finishing ∧ finishing.length = 52 ∧
    leAt finishing 2 1 = 0 ∧ slice finishing 4 48 = verifyData (zeros 48) "req hs data" (zeros 48) (finishing.take 4) := by unfold SpdmTurn; decide +kernel

/-- A TDISP request for VF 4 in a vendor-defined SPDM request. -/
def tdisp (n kind : Nat) (l : List (Nat × Nat × Nat)) : Bytes := fields n ((0, 1, 0x10) :: (1, 1, kind) :: (4, 1, 4) :: l)
def vendor (m : Bytes) : Bytes :=
  fields 12 [(0, 2, 0xFE13), (4, 2, 3), (6, 1, 2), (7, 2, 1), (9, 2, m.length + 1), (11, 1, 1)] ++ m

/-- VF 4 in a TDISP state, with Bus Master Enable and, where it is not unlocked, a nonce. -/
def locked (t : Tdi) : Block :=
  let b := onFn (speaking .ready true) 4 (fun f => { f with bme := true, tdi := t })
  { b with rcd := { b.rcd with nonces := [(4, zeros 40)] } }

theorem witness_tdisp : ∀ x ∈ [(0x81, 16, Tdi.run), (0x82, 20, .run), (0x83, 36, .configUnlocked), (0x83, 36, .configLocked), (0x84, 20, .configLocked), (0x85, 16, .error),
      (0x86, 48, .configLocked), (0x86, 48, .run), (0x87, 16, .run), (0x87, 16, .configUnlocked)], let m := tdisp x.2.1 x.1 []
    TdispTurn (locked x.2.2) x.1 9 (sealed (vendor m)) m ∧ m.length = x.2.1 ∧ tdispFn m = 4 ∧ (fnOf (locked x.2.2) 4).bme = true ∧
      (fnOf (locked x.2.2) 4).tdi = x.2.2 := by unfold TdispTurn; decide +kernel
theorem witness_tdisp_values : 0 < (interfaceReport (tookRecord (.session 9) (locked .run)) 4).length ∧
    ((tget (locked .configLocked).rcd.nonces 4).map (·.take 32) = some (slice (tdisp 48 0x86 []) 16 32)) ∧
    ¬ ((tget (locked .configLocked).rcd.nonces 4).map (·.take 32) = some (slice (tdisp 48 0x86 [(16, 1, 1)]) 16 32)) ∧
    (tdispOf (vendor (tdisp 16 0x88 []))).map (fun m => (tdispHandler (leAt m 1 1)).isNone) = some true := by decide +kernel
/-- R196: START with the nonce of the lock runs the interface. -/
theorem test_start : (fnOf (after (.startInterfaceRequest 9 (sealed (vendor (tdisp 48 0x86 [])))) (locked .configLocked)) 4).tdi = .run := by decide +kernel


/-! ### Watchdogs, tamper, the basic level -/

/-- An instance armed with slots 0 and 15 in SERVICE, the host released; its window open or not, slots done. -/
def guarded (isP window : Bool) (done : Nat) : Block :=
  onWdgAt isP (fun _ => { WdgInst.reset with cfg := 0x80010010, armed := true, window := window, done := done }) released

/-- The key of slot 15 while no salt is programmed. -/
def key15 : Word := 0x5A0F

theorem witness_watchdogs :
    (∀ p : Bool, keeperRuns serving = true ∧ (wdgAt serving p).armed = false ∧ wdgCounts (guarded p true 0) p = true ∧
      CheckinReaches (guarded p true 0) p key15 ∧ Alone (guarded p true 0) p ∧ (wdgAt (guarded p true 0) p).window = true ∧
      keySlot (guarded p true 0) p (key15.toNat % 65536) = some 15 ∧ bit (wdgAt (guarded p true 0x8000) p).done 15 = true ∧
      keySlot (guarded p true 0) p 0 = none ∧ CheckinReaches (guarded p false 0) p 0 ∧ (wdgAt (guarded p false 0) p).window = false) ∧
    ((guarded true true 0).wdg.p.armed = true ∧ hostInReset (guarded true true 0) = false ∧ (guarded true true 0).wdg.p.hostSet = false ∧
      RegReach (guarded true true 0) 0 0xFFFFFFFF ∧ RegReach (guarded true true 0) 0xFFFF0000 0xFFFF) := by
  unfold CheckinReaches Alone RegReach; decide +kernel
/-- R421: a check-in in the window marks its slot; R424: a second one is counted. -/
theorem test_checkin : (after (.wdgCheckin false key15 .none true) (guarded false true 0)).wdg.d.done = 0x8000 ∧
    (after (.wdgCheckin true key15 .none true) (guarded true true 0x8000)).wdg.p.dups = 1 := by decide +kernel

theorem witness_periods : (∀ p : Bool, wdgCounts (guarded p true 0x8001) p = true ∧ Alone (guarded p true 0x8001) p ∧
      (let x := wdgAt (guarded p true 0x8001) p
       wdgSlots x - (wdgSlots x &&& x.done) = 0) ∧
      (let x := wdgAt (guarded p true 1) p
       wdgSlots x - (wdgSlots x &&& x.done) = 0x8000) ∧
      (wdgAt (onWdgAt p (fun x => { x with hard := some 0 }) released) p).hard.isSome = true) ∧
    ({ serving with wdg := { serving.wdg with d := { serving.wdg.d with await := some 0 } } }.wdg.d.await.isSome = true) ∧
    (serving.onPins (fun p => { p with hostPulse := true })).pins.hostPulse = true ∧
    ((serving.onPins (fun p => { p with platCycle := true })).pins.platCycle = true ∧ serving.pins.hostPulse = false) ∧
    healthyDue ({ serving with time := { serving.time with secs := 900 }, wdg := { serving.wdg with runStart := some 0 } }) = true := by
  unfold Alone; decide +kernel
/-- R425: a hard timer that ends resets the device. -/
theorem test_hard : (after (.wdgHardTimeout true) (onWdgAt true (fun x => { x with hard := some 0 }) released)).run.state = .reset := by decide +kernel

/-- FROZEN, with the monitor locked to a rate. -/
def frozen : Block := talking { serving with run := { serving.run with state := .frozen }, tmp := { serving.tmp with nonce := some (zeros 32, 600) } }

theorem witness_frost : (2 ≤ serving.run.lcs ∧ triggerStands serving 0 = true ∧ triggerStands serving 7 = true) ∧
    (RegReach serving 0xFFFFFFFE 1 ∧ bit (1 : Word).toNat 0 = true ∧ serving.run.lcs = 2 ∧ keeperRuns serving = true) ∧
    (frozen.run.state = .frozen ∧ Served frozen (frame 0x20 1 []) 0x20 1 [] ∧ Served frozen (frame 0x21 1 []) 0x21 1 [] ∧ ServedMctp frozen 0x30 ∧
      (let p := fields 8 [(0, 4, 0x4A465231)]
       Served frozen (frame 0x22 1 p) 0x22 1 p ∧ releaseOk p = true)) ∧
    (∀ c ∈ [0x20, 0x21, 0x22], Served (talking serving) (frame c 1 []) c 1 []) ∧ ServedMctp (talking serving) 0x30 ∧
    { frozen with tmp := { frozen.tmp with releasing := true } }.tmp.releasing = true := by
  unfold RegReach Served ServedMctp
  refine ⟨by decide +kernel, by decide +kernel, ?_, ?_, by decide +kernel, by decide +kernel⟩ <;> decide +kernel
/-- R404: a trigger freezes the device; R411: a release block consumes the nonce. -/
theorem test_frost : (after (.tamperTrigger 7) serving).run.state = .frozen ∧ (after (.tamperTrigger 7) serving).bbram = BbramSt.blank ∧
    (after (.frostRelease (.mctp 0x30 (fields 8 [(0, 4, 0x4A465231)]))) frozen).tmp.nonce = none := by decide +kernel

/-- The session sub-window held with a token; no message, a message of 8 bytes, or one of which 4 bytes of output stand. -/
def basic (busy : Bool) (input given : Nat) : Block :=
  { engines serving with leg := { BasicSt.reset with
      session := { LegLock.reset with holder := some 7 }, rng := { LegLock.reset with holder := some 9 }, busy := busy, core := if busy then some 63 else none
      msg := { LegRegs.reset with len := 8 }, input := zeros input, given := zeros given } }

theorem witness_locks : (∀ w < 3, RegReach serving 0 7 ∧ windowAbsent serving w = false ∧ (lockOf serving w).holder = none) ∧
    (lockOf (basic false 0 0) 1).holder = some 7 ∧ (lockOf (basic false 0 0) 1).holder ≠ some 8 ∧ (lockOf (basic false 0 0) 1).holder.isSome = true := by
  unfold RegReach; decide +kernel
theorem witness_basic : ((basic false 0 0).leg.core = none ∧ basicCore (basic false 0 0) = some 63 ∧
      ((basic false 0 0).sce.cores[63]?).map (·.job) = some none) ∧
    (Held (basic false 0 0) 1 0x5FFFFF00 0x80000010 ∧ (basic false 0 0).leg.startDue = false ∧ bit (0x80000010 : Word).toNat 29 = false) ∧
    (Held (basic true 0 0) 1 0x5FFFFF00 0x20000000 ∧ bit (0x20000000 : Word).toNat 31 = false ∧ (basic true 0 0).leg.busy = true) ∧
    (Held (basic true 4 0) 1 0 0xFFFFFFFF ∧ (basic true 4 0).leg.input.length < 8 ∧ legSpace (basic true 4 0).leg ≠ 0 ∧ 8 ≤ (basic true 8 0).leg.input.length) ∧
    (Reads (basic true 8 4) ∧ (basic true 8 4).leg.taken + 4 ≤ (basic true 8 4).leg.given.length ∧ (basic true 8 0).leg.given.length ≤ (basic true 8 0).leg.taken) ∧
    (RegReach serving 0 7 ∧ windowAbsent serving 1 = false ∧ (lockOf serving 1).holder = none) ∧
    ((basic false 0 0).leg.rng.holder.isSome = true ∧ (basic false 0 0).rng.state = .ready) := by
  unfold Held Reads RegReach; decide +kernel
/-- R474: another token sets BUSY; R480: a word without the lock sets NOT_HELD. -/
theorem test_lock : (lockOf (after (.legLock 1 8) (basic false 0 0)) 1).busy = true ∧ (lockOf (after (.legScDataInWrite 8) serving) 1).notHeld = true := by
  decide +kernel

/-! ### Registers and the monitor -/

theorem witness_register_writes : RegReach serving 0xFFFFFFFE 1 ∧ RegReach serving 0xFFFFFC00 0x3FF ∧ RegReach serving 0xFFFFF8F8 0x707 ∧
    RegReach serving 0xFFFF0000 0xFFFF ∧ RegReach serving 0x40000000 0xBFFFFFFF ∧ RegReach serving 0xFFFFFFF0 15 ∧ RegReach serving 0xFC0 0xFFFFF03F ∧
    RegReach serving 0xFFFFFFE0 0x1F ∧ RegReach serving 0xFFE00000 0x1FFFFF ∧ RegReach serving 0xFFFFF000 0xFFF := by unfold RegReach; decide +kernel
/-- R14: a 64-bit write is two of 32 bits; R11: DEV_LINK_CTRL takes its bit. -/
theorem test_register_write : (after (.registerWrite 0 .bar0 0x404 1 ⟨0, none⟩) serving).link.writeCheck = true ∧
    (after (.registerWrite 0 .bar0 0x40100 0x40000000 ⟨0, none⟩) serving).dev.rsvdWrites = 1 := by decide +kernel
theorem witness_split_write : (0x400 % 8 = 0) ∧ ∃ t, exec (.registerWrite 0 .bar0 0x400 0 ⟨0, none⟩) (st serving) = .next t := ⟨rfl, _, rfl⟩
theorem witness_configuration : ({ serving with link := { serving.link with vfEnable := false, numVfs := 0 } }.link.vfEnable = false ∧
      (255 : Word).toNat % 65536 ≤ 255) ∧ (fnEnabled serving 4 = true ∧ (fnOf serving 4).d3hot = false) ∧
    (let b := serving.onPins (fun p => { p with straps := 4 })
     mctpUp b = true ∧ bit b.pins.straps 2 = true ∧ staticAddress b = 0x30 ∧ b.sb.dynAddr = none) ∧ (3 : Word).toNat % 4 = 3 := by decide +kernel
theorem witness_holes : hole 0x100000 ∧ hole 0xFFFFFF ∧ hole 0x1200000 ∧ hole 0x2008100 ∧ hole 0x3010000 ∧ ¬ hole 0xFFFFF ∧ ¬ hole 0x1000000 ∧
    ¬ hole 0x20080FF ∧ ¬ hole 0x300FFFF ∧ 0x2008100 % 4 = 0 := by
  unfold hole; omega
theorem test_bins : evBin 1 = 1 ∧ evBin 0x3FFFFFFF = 30 ∧ evBin 0x40000000 = 31 ∧ evBin 0xFFFFFFFF = 31 := by decide +kernel

theorem witness_monitor : (∀ c ∈ [0x30, 0x31, 0x32, 0x3F], Served (talking serving) (frame c 1 []) c 1 []) ∧
    (let b := talking { serving with run := { serving.run with lcs := 1 } }
     Served b (frame 0x52 1 []) 0x52 1 [] ∧ Served b (frame 0x50 1 (fields 8 [(0, 4, 0xFFFFC)])) 0x50 1 (fields 8 [(0, 4, 0xFFFFC)]) ∧
       Served b (frame 0x51 1 (lePut 1 255 ++ lePut 1 255)) 0x51 1 (lePut 1 255 ++ lePut 1 255)) ∧
    (let b := talking serving
     Served b (frame 0x33 1 (lePut 4 0xFFFF00 ++ lePut 4 64)) 0x33 1 (lePut 4 0xFFFF00 ++ lePut 4 64) ∧
       Served b (frame 0x34 1 [0xFF, 3]) 0x34 1 [0xFF, 3] ∧ leAt [0xFF, 3] 0 2 = 1023 ∧ Served b (frame 0x40 1 []) 0x40 1 []) := by
  unfold Served; refine ⟨?_, ?_, ?_⟩ <;> decide +kernel
theorem witness_readable : readable (talking serving) (lePut 4 0xFFFF00 ++ lePut 4 64) 0xFFFF00 64 := by
  refine ⟨.inl rfl, by decide, by decide, by decide, by decide, fun h => ?_⟩
  rcases h with h | h <;> exact absurd h (by decide +kernel)
theorem witness_lines : ((talking serving).run.state ≠ .reset ∧ serving.mon.baud = 0 ∧ baudOf 115200 = some 1 ∧ baudOf 100000 = none) ∧
    takesFrame (talking serving) = true ∧
    (∀ t ∈ [ascii "HELP", [], List.replicate 129 0x41], let b : Block := { serving with mon := { MonSt.reset with baud := 1, mode := .line } }
      takesLine b t ∧ (128 < (editLine t).length ↔ t.length = 129) ∧ refusal (echoed t b) 0x30 = 0) ∧
    (lineWords (editLine (ascii "HELP")) = [ascii "HELP"] ∧ lineWords (editLine []) = []) := by unfold takesLine; decide +kernel
/-- R488: 3% from a supported rate is still locked, beyond it is not. -/
theorem test_baud : baudOf 3090000 = some 8 ∧ baudOf 3100000 = none ∧ baudOf 111744 = some 1 := by decide +kernel
theorem witness_debug_codes : (isDebugCode 0x50 = true ∧ isDebugCode 0x52 = true) ∧ KeeperServesCodes serving ∧ serving.run.lcs ≤ 5 ∧
    (let f := frame 0x50 1 (zeros 8)
     takesFrame (talking serving) = true ∧ parseFrame f = some (0x50, 1, zeros 8) ∧ refusal (intoFramed (talking serving)) 0x50 = 1) := by
  unfold KeeperServesCodes; decide +kernel


/-! ### Frames and invariants -/

theorem witness_frames : (∀ c ∈ [Instr.steLaneFenceWrite 1, .parkTimeout 0, .nop 7], dataPath c = true) ∧
    (keeperFamily (.keyGenerate 7) = true ∧ registryFamily (.ownerCreate 7) = true ∧ fuseFamily (.otpProgram 7) = true ∧ activationFamily (.bootActivate 7 emptyFlash) = true) ∧
    (flashFamily (.mbxRead 0) = true ∧ spdmFamily (.getDigests .doe []) = true ∧ tdispFamily (.getTdispVersion 9 []) = true ∧ governorFamily (.avsAck 900) = true) ∧
    (digestRegistersFamily (.dgeRmFinal false 0) = true ∧ basicFamily (.legLock 0 7) = true ∧ serialFamily .breakChar = true ∧
      thawFamily (.thawOffer (.frame []) emptyFlash) = true ∧ timersFamily .offerExpiry = true ∧ interruptsFamily (.poisonedBarWrite 0) = true) ∧
    ∀ c : Instr, ∃ t, exec c (st serving) = .next t := by
  refine ⟨by decide, by decide, by decide, by decide, fun c => ?_⟩
  cases c <;> exact ⟨_, rfl⟩
theorem witness_invariants : bit (otpWord State.reset.blk 8) 0 = true ∧ (∃ t, step State.reset = .next t) ∧
    (∀ mv, Instr.nop 7 ≠ .batteryDomainPowerUp mv) ∧ (∀ env, Instr.nop 7 ≠ .romEntry env) ∧
    State.reset.blk.time.phase < 1000000 ∧ State.reset.blk.time.subsec < 32768 ∧ State.reset.blk.time.secs < 2 ^ 48 ∧ State.reset.blk.sup.ana.good = true ∧
    ¬ ((false : Bool) = true ∨ 2400 ≤ 2399) := by
  refine ⟨by decide +kernel, ⟨_, rfl⟩, by simp, by simp, by decide, by decide, by decide, by decide, by decide⟩
/-- R23: an idle microsecond is counted. -/
theorem test_idle : (match step State.reset with | .next t => t.blk.time.usec | _ => 0) = 1 := by decide +kernel

end Sys2Proof.Tests
end

section
/-! PROOFS. Doorbells (R212): what a value written to Q_SQ_TAIL does to an SQ, and the turn of R220 that a refused one takes from it. -/

namespace Sys2Proof.Doorbells

open Sys2Proof Sys2Proof.Machine Sys2Proof.Claims

/-! ### The outcomes of a doorbell -/

/-- A doorbell through a page that reaches SQ `n` is judged there, and what it lets proceed then proceeds. -/
theorem exec_sqDoorbell_of_pageReach {s : State} {fn page n : Nat} (v : Word) (h : PageReach s.blk fn page n) :
    exec (.sqDoorbell fn page v) s = .next { s with blk := settleAll (doorbell n v s.blk) } := by
  obtain ⟨henabled, hd0, hrun, hpage⟩ := h
  show execSqDoorbell fn page v s = _
  simp [execSqDoorbell, sqDoorbell, barWrite, tailWrite, henabled, hd0, hrun, hpage]

/-- The refusal as O7 words it: ERROR, DRAINING, the event and the queue error, with the turn of R220 left where it was. -/
def refusedKeepingTurn (n : Nat) (b : Block) : Block :=
  queueError 1 n (event 0x400 n (onSq n (fun q => { q with error := true, state := .draining }) b))

/-- The free slots of a ring (R212). -/
def room (q : Sq) : Nat := q.size - (q.tail - q.head).toNat

section
variable {n : Nat} {v : Word} {b : Block}

theorem doorbell_of_not_active (hstate : (sqOf b n).state ≠ .active) :
    doorbell n v b = onSq n (fun q => { q with dbIgnored := true }) b := if_pos hstate

theorem doorbell_of_overrun (hstate : (sqOf b n).state = .active) (hstep : room (sqOf b n) < (v - (sqOf b n).tail).toNat) :
    doorbell n v b = queueError 1 n (event 0x400 n
      (loseTurn n (onSq n (fun q => { q with error := true, state := .draining }) b))) :=
  (if_neg (not_not_intro hstate)).trans (if_pos hstep)

theorem doorbell_of_accepted (hstate : (sqOf b n).state = .active) (hstep : (v - (sqOf b n).tail).toNat ≤ room (sqOf b n)) :
    doorbell n v b = onSq n (fun q => { q with tail := v }) b :=
  (if_neg (not_not_intro hstate)).trans (if_neg (Nat.not_lt.mpr hstep))

/-- An SQ that holds nothing of a turn has none to give up. -/
theorem loseTurn_eq_self (hturn : b.q.lastIo = n → b.q.turnLeft = 0) : loseTurn n b = b := by
  have hq : (if b.q.lastIo = n then { b.q with turnLeft := 0 } else b.q) = b.q := by
    split
    next hlast => rw [← hturn hlast]
    next => rfl
  simp only [loseTurn, Block.onQ, hq]

theorem doorbell_of_overrun_without_turn (hstate : (sqOf b n).state = .active)
    (hstep : room (sqOf b n) < (v - (sqOf b n).tail).toNat) (hturn : b.q.lastIo = n → b.q.turnLeft = 0) :
    doorbell n v b = refusedKeepingTurn n b := by
  rw [doorbell_of_overrun hstate hstep, loseTurn_eq_self (b := onSq n _ b) hturn, refusedKeepingTurn]

end

/-! ### Where O7's three clauses hold -/

/-- O7's three clauses about one doorbell. -/
def Judged (s : State) (fn page n : Nat) (v : Word) : Prop :=
  let q := sqOf s.blk n
  (q.state ≠ .active →
    exec (.sqDoorbell fn page v) s = .next { s with blk := settleAll (onSq n (fun q => { q with dbIgnored := true }) s.blk) }) ∧
  (q.state = .active → room q < (v - q.tail).toNat →
    exec (.sqDoorbell fn page v) s = .next { s with blk := settleAll (refusedKeepingTurn n s.blk) }) ∧
  (q.state = .active → (v - q.tail).toNat ≤ room q →
    exec (.sqDoorbell fn page v) s = .next { s with blk := settleAll (onSq n (fun q => { q with tail := v }) s.blk) })

theorem doorbellJudged_iff :
    Obligations.DoorbellJudged ↔ ∀ (s : State) (fn page n : Nat) (v : Word), PageReach s.blk fn page n → Judged s fn page n v :=
  Iff.rfl

/-- O7 holds of every doorbell to an SQ that is not in the middle of a turn of R220. -/
theorem judged_of_no_turn {s : State} {fn page n : Nat} (v : Word) (hreach : PageReach s.blk fn page n)
    (hturn : s.blk.q.lastIo = n → s.blk.q.turnLeft = 0) : Judged s fn page n v := by
  have hexec := exec_sqDoorbell_of_pageReach v hreach
  refine ⟨fun hstate => ?_, fun hstate hstep => ?_, fun hstate hstep => ?_⟩
  · rw [hexec, doorbell_of_not_active hstate]
  · rw [hexec, doorbell_of_overrun_without_turn hstate hstep hturn]
  · rw [hexec, doorbell_of_accepted hstate hstep]

/-! ### An SQ refused in the middle of its turn -/

/-- A block in SERVICE with SQ 256 of PF0 ACTIVE (16 slots, WEIGHT 12) on CQ 256, the link up and Bus Master Enable set. -/
def weightTwelve : Block :=
  createSq 256 0 256 256 0x10000 4 1 12 0 (createCq 256 0 256 0x20000 4 0 false
    { Block.reset with
      run := { Block.reset.run with state := .service }
      link := { LinkSt.reset with phase := .active, fns := [(0, { FnState.fresh with bme := true })] } })

/-- SQ 256 in the middle of its turn: 12 descriptors are published, and the first read has taken 8 of the 12 that the turn allows. -/
def midTurn : Block := descriptorFetch (sqDoorbell 0 256 12 weightTwelve)

theorem midTurn_pageReach : PageReach midTurn 0 256 256 := by unfold PageReach; decide +kernel

theorem midTurn_active : (sqOf midTurn 256).state = .active := by decide +kernel

theorem room_midTurn : room (sqOf midTurn 256) = 4 := by decide +kernel

theorem step_midTurn : ((17 : Word) - (sqOf midTurn 256).tail).toNat = 5 := by decide +kernel

/-- The model: the refused SQ has given up the 4 descriptors left of its turn. -/
theorem turnLeft_refused : (settleAll (doorbell 256 17 midTurn)).q.turnLeft = 0 := by decide +kernel

/-- O7's wording: the refused SQ keeps them. -/
theorem turnLeft_refusedKeepingTurn : (settleAll (refusedKeepingTurn 256 midTurn)).q.turnLeft = 4 := by decide +kernel

/-- Refutes O7: a refused doorbell also takes from the SQ, which is ACTIVE no longer, what is left of its turn (R220), and O7's second clause
leaves the turn as it was. SQ 256 of `midTurn` has 4 slots of room and 4 descriptors of its turn to go when a tail 5 beyond its own is
written. The first and the third clause hold (`doorbell_of_not_active`, `doorbell_of_accepted`), and outside a turn so does the second
(`judged_of_no_turn`). -/
theorem not_doorbellJudged : ¬ Obligations.DoorbellJudged := by
  intro h
  have hstep : room (sqOf midTurn 256) < ((17 : Word) - (sqOf midTurn 256).tail).toNat := by rw [room_midTurn, step_midTurn]; decide
  obtain ⟨-, hrefused, -⟩ := doorbellJudged_iff.mp h ⟨midTurn, []⟩ 0 256 256 17 midTurn_pageReach
  have hnext := hrefused midTurn_active hstep
  rw [exec_sqDoorbell_of_pageReach 17 midTurn_pageReach] at hnext
  have hblk : settleAll (doorbell 256 17 midTurn) = settleAll (refusedKeepingTurn 256 midTurn) := by injection hnext with hs; injection hs
  have hturn : 0 = 4 := by rw [← turnLeft_refused, hblk, turnLeft_refusedKeepingTurn]
  exact absurd hturn (by decide)

end Sys2Proof.Doorbells
end

section
/-! PROOFS. The bins of an event's value (R438), and what folding an event into a cell does to them. -/

namespace Sys2Proof.EventBins

open Sys2Proof Sys2Proof.Machine

theorem evBin_zero : evBin 0 = 0 := rfl

theorem evBin_of_ne_zero {v : Nat} (hv : v ≠ 0) : evBin v = min 31 (v.log2 + 1) := if_neg hv

theorem evBin_of_two_pow_le_of_lt {v b : Nat} (hb : 1 ≤ b) (hb30 : b ≤ 30) (hlo : 2 ^ (b - 1) ≤ v) (hhi : v < 2 ^ b) : evBin v = b := by
  have hv : v ≠ 0 := Nat.ne_of_gt (Nat.lt_of_lt_of_le (Nat.two_pow_pos _) hlo)
  have hlog : v.log2 = b - 1 := (Nat.log2_eq_iff hv).mpr ⟨hlo, by rwa [Nat.sub_add_cancel hb]⟩
  rw [evBin_of_ne_zero hv, hlog]
  omega

theorem evBin_of_two_pow_thirty_le {v : Nat} (hlo : 2 ^ 30 ≤ v) : evBin v = 31 := by
  have hv : v ≠ 0 := Nat.ne_of_gt (Nat.lt_of_lt_of_le (Nat.two_pow_pos _) hlo)
  have hlog : 30 ≤ v.log2 := (Nat.le_log2 hv).mpr hlo
  rw [evBin_of_ne_zero hv]
  omega

/-- The bins of a cell after an event: the bin of its value is one higher, saturating at 32 bits, and every other bin is as it was. -/
theorem bins_foldInto (c : EvCell) (v ts k : Nat) :
    tgetD 0 (foldInto c v ts).bins k = if k = evBin v then sat32 (tgetD 0 c.bins (evBin v) + 1) else tgetD 0 c.bins k :=
  tgetD_tmod 0 (fun n => sat32 (n + 1)) c.bins (evBin v) k

/-- Settles O53: from the bounds that 2^(b−1) and 2^b set on the value's logarithm, and from reading the bins after the fold. -/
theorem binsOfValues : Obligations.BinsOfValues :=
  ⟨evBin_zero, fun _ _ => evBin_of_two_pow_le_of_lt, fun _ => evBin_of_two_pow_thirty_le,
    fun c v ts => (bins_foldInto c v ts (evBin v)).trans (if_pos rfl)⟩

end Sys2Proof.EventBins
end

section
/-! PROOFS. The basic level: the lease that an access renews (R475), and the words of LEG_RNG_DATA (R484). -/

open Claims

namespace Sys2Proof.BasicLevel

open Sys2Proof Sys2Proof.Machine

/-- What is done to a sub-window's lock turns only on what that lock holds. -/
theorem onLock_congr {w : Nat} {f g : LegLock → LegLock} {b : Block} (h : f (lockOf b w) = g (lockOf b w)) : onLock w f b = onLock w g b := by
  simp only [lockOf] at h
  simp only [onLock, Block.onLeg]
  split_ifs at h ⊢ <;> rw [h]

theorem renew_of_held {b : Block} {w : Nat} (hheld : (lockOf b w).holder.isSome = true) : renew w b = leased w b :=
  onLock_congr (if_pos hheld)

theorem legRng_of_ready {b : Block} (hready : b.rng.state = .ready) :
    legRng b = (leNat (draw0 4 b).1, (draw0 4 b).2.onRng (fun r => { r with bytes := (r.bytes + 4) % 2 ^ 64 })) :=
  if_pos hready

theorem legRng_of_not_ready {b : Block} (hready : b.rng.state ≠ .ready) : legRng b = (0, b) := if_neg hready

/-- A read of LEG_RNG_DATA under its lock answers with what the source gives once the lease is renewed. -/
theorem exec_legRngDataRead_of_held {s : State} (hreads : Reads s.blk) (hheld : s.blk.leg.rng.holder.isSome = true) :
    exec .legRngDataRead s = .next { s with
      blk := reply 0 .success (lePut 4 (legRng (leased 2 s.blk)).1) (legRng (leased 2 s.blk)).2 } := by
  obtain ⟨hd0, hrun⟩ := hreads
  have hlock : (lockOf s.blk 2).holder.isSome = true := hheld
  show execLegRngDataRead s = _
  rw [execLegRngDataRead, legRead_go legRng hd0 hrun rfl hlock, renew_of_held hlock]

/-- Settles O50: the renewal of the lease leaves the random source as it was, so the two cases of R484 are those of the word it gives. -/
theorem basicRandomWords : Obligations.BasicRandomWords := by
  intro s hreads hheld
  have hsource : (leased 2 s.blk).rng = s.blk.rng := rfl
  have hexec := exec_legRngDataRead_of_held hreads hheld
  refine ⟨fun hready => ?_, fun hready => ?_⟩
  · rw [hexec, legRng_of_ready (hsource ▸ hready)]
  · rw [hexec, legRng_of_not_ready (hsource ▸ hready)]

end Sys2Proof.BasicLevel
end

section
/-! PROOFS. Debug codes of the monitor (R495): when the keeper refuses one, and what a frame that is refused does. -/

open Claims

namespace Sys2Proof.DebugCodes

open Sys2Proof Sys2Proof.Machine

/-! ### The rule -/

/-- The classes of R493 that decide a refusal before the debug rule hold no debug code. -/
theorem other_classes_of_isDebugCode {code : Nat} (hdebug : isDebugCode code = true) :
    isThawCode code = false ∧ isReleaseCode code = false ∧ isStatusCode code = false := by
  simp only [isDebugCode, Bool.and_eq_true, decide_eq_true_eq] at hdebug
  simp only [isThawCode, isReleaseCode, isStatusCode, Bool.or_eq_false_iff, Bool.and_eq_false_iff, decide_eq_false_iff_not]
  omega

theorem debugOpened_iff (b : Block) : debugOpened b = true ↔ b.run.lcs ≤ 1 ∨ (b.mon.debugOpen = true ∧ b.run.lcs ≤ 4) := by
  simp only [debugOpened, Bool.or_eq_true, Bool.and_eq_true, decide_eq_true_eq]

/-- Where the keeper serves, the debug rule alone settles a debug code. -/
theorem refusal_of_isDebugCode {b : Block} {code : Nat} (hdebug : isDebugCode code = true) (hkeeper : KeeperServesCodes b) :
    refusal b code = if b.run.lcs ≤ 1 ∨ (b.mon.debugOpen = true ∧ b.run.lcs ≤ 4) then 0 else 1 := by
  obtain ⟨hidle, howner, hkat, hrom, hwinter⟩ := hkeeper
  obtain ⟨hthaw, hrelease, hstatus⟩ := other_classes_of_isDebugCode hdebug
  simp only [← debugOpened_iff]
  cases hopen : debugOpened b <;> simp [refusal, hidle, howner, hkat, hrom, hwinter, hthaw, hrelease, hstatus, hdebug, hopen]

/-! ### The answer -/

/-- A frame of a code that is refused gets its refusal, and the command does not run. -/
theorem frameRun_of_refusal {code tag st : Nat} {body p : Bytes} {b : Block} (f : Nat → Bytes → Block → Block) (htakes : takesFrame b = true)
    (hframe : parseFrame body = some (code, tag, p)) (hrefusal : refusal (intoFramed b) code = st) (hst : st ≠ 0) :
    frameRun code body f b = refuseFrame code tag st (intoFramed b) := by
  simp only [frameRun, htakes, hframe, hrefusal]
  cases st with
  | zero => exact absurd rfl hst
  | succ n => simp

theorem refuseFrame_locked (code tag : Nat) (b : Block) :
    refuseFrame code tag 1 b = uartReply code tag 1 [] (b.onMon (fun m => { m with refused := sat32 (m.refused + 1) })) := rfl

/-- A monitor frame that gets LOCKED is answered with it and counted. -/
theorem monFrame_of_locked {code tag : Nat} {body p : Bytes} {b : Block} (htakes : takesFrame b = true)
    (hframe : parseFrame body = some (code, tag, p)) (hlocked : refusal (intoFramed b) code = 1) :
    monFrame code body b = uartReply code tag 1 [] ((intoFramed b).onMon (fun m => { m with refused := sat32 (m.refused + 1) })) :=
  (frameRun_of_refusal _ htakes hframe hlocked one_ne_zero).trans (refuseFrame_locked code tag (intoFramed b))

/-- Each debug command is the monitor's frame of its own code (R493). -/
theorem exec_debugCommand {c : (Bytes → Instr) × Nat}
    (hc : c ∈ [((fun x => Instr.write x), 0x50), ((fun x => Instr.unitrst x), 0x51), ((fun x => Instr.klog x), 0x52)])
    (body : Bytes) (s : State) : exec (c.1 body) s = .next { s with blk := monFrame c.2 body s.blk } := by
  simp only [List.mem_cons, List.not_mem_nil, or_false] at hc
  rcases hc with rfl | rfl | rfl <;> rfl

/-- Settles O55: where the keeper serves, the debug rule alone decides (`refusal_of_isDebugCode`), and a LOCKED frame never reaches its
command (`monFrame_of_locked`). -/
theorem debugCommandsOpen : Obligations.DebugCommandsOpen := by
  refine ⟨fun b code hdebug hkeeper _ => ⟨fun hblank => ?_, fun _ hlast hopen => ?_, fun hfirst _ hclosed => ?_, fun hretired => ?_⟩, ?_⟩
  · exact (refusal_of_isDebugCode hdebug hkeeper).trans (if_pos (.inl hblank))
  · exact (refusal_of_isDebugCode hdebug hkeeper).trans (if_pos (.inr ⟨hopen, hlast⟩))
  · exact (refusal_of_isDebugCode hdebug hkeeper).trans (if_neg (by simpa [hclosed] using Nat.lt_of_succ_le hfirst))
  · exact (refusal_of_isDebugCode hdebug hkeeper).trans (if_neg (by omega))
  · intro c hc s body tag p htakes hframe hlocked
    rw [exec_debugCommand hc, monFrame_of_locked htakes hframe hlocked]

end Sys2Proof.DebugCodes
end

section
/-! PROOFS. The offsets of BAR0 that nothing implements (R502), and how a request there is answered (R201). -/

namespace Sys2Proof.UnimplementedRange

open Sys2Proof Sys2Proof.Machine

/-! ### What goes out over the host link -/

/-- What is emitted is sent or held back; nothing else of the block changes. -/
theorem emit_cases (fn : Nat) (o : Out) (b : Block) :
    emit fn o b = { b with out := b.out ++ [o] } ∨ emit fn o b = b.onLink (fun l => { l with held := l.held ++ [(fn, o)] }) :=
  ite_eq_or_eq _ _ _

@[simp] theorem emit_dev (fn : Nat) (o : Out) (b : Block) : (emit fn o b).dev = b.dev :=
  (emit_cases fn o b).elim (congrArg Block.dev) (congrArg Block.dev)

@[simp] theorem fnOf_emit (fn n : Nat) (o : Out) (b : Block) : fnOf (emit fn o b) n = fnOf b n :=
  (emit_cases fn o b).elim (congrArg (fnOf · n)) (congrArg (fnOf · n))

@[simp] theorem reply_dev (fn : Nat) (st : CplStatus) (data : Bytes) (b : Block) : (reply fn st data b).dev = b.dev :=
  emit_dev noFn (.completion fn st data) b

/-! ### AER (R201) -/

/-- The AER state in which `advise` leaves the function: the error latched, and whether it counts as Advisory Non-Fatal. -/
def advised (i : Nat) (b : Block) (a : Aer) : Aer := { aerSet i a with advisory := a.advisory || !bit b.link.cfg.aerSev i }

/-- An error the device recovers from is latched, and then ERR_COR goes out for it or does not. -/
theorem advise_cases (fn i : Nat) (b : Block) :
    advise fn i b = noteAer fn (advised i b) b ∨ advise fn i b = emit noFn (.errCor fn) (noteAer fn (advised i b) b) :=
  ite_eq_or_eq _ _ _

@[simp] theorem advise_dev (fn i : Nat) (b : Block) : (advise fn i b).dev = b.dev := by
  rcases advise_cases fn i b with h | h
  · rw [h]; rfl
  · rw [h, emit_dev]; rfl

theorem aer_noteAer (fn : Nat) (f : Aer → Aer) (b : Block) : (fnOf (noteAer fn f b) fn).aer = f (fnOf b fn).aer := by
  rw [noteAer, fnOf_onFn, if_pos rfl]

/-- The function's AER state after `advise`, whether or not ERR_COR went out. -/
theorem aer_advise (fn i : Nat) (b : Block) : (fnOf (advise fn i b) fn).aer = advised i b (fnOf b fn).aer := by
  rcases advise_cases fn i b with h | h
  · rw [h, aer_noteAer]
  · rw [h, fnOf_emit, aer_noteAer]

theorem aer_unsupported_advise (fn : Nat) (b : Block) : (fnOf (advise fn aerUnsupported b) fn).aer.unsupported = true := by
  rw [aer_advise]
  exact Bool.or_true _

/-! ### The map -/

/-- Within its 64 MiB, PF0's BAR0 implements an offset exactly when it is in none of R502's four ranges. -/
theorem implemented_pf0_eq_false_iff {off : Nat} (hoff : off < 0x4000000) : implemented 0 off = false ↔ Claims.hole off := by
  simp only [implemented, if_true, Bool.or_eq_false_iff, Bool.and_eq_false_iff, decide_eq_false_iff_not, Claims.hole]
  omega

theorem lt_of_hole {off : Nat} (hhole : Claims.hole off) : off < 0x4000000 := by
  unfold Claims.hole at hhole
  omega

theorem not_implemented_of_hole {off : Nat} (hhole : Claims.hole off) : implemented 0 off = false :=
  (implemented_pf0_eq_false_iff (lt_of_hole hhole)).mpr hhole

theorem fnEnabled_pf0 (b : Block) : fnEnabled b 0 = true := rfl

/-! ### The answer -/

section
variable {fn off : Nat} {s : State} (henabled : fnEnabled s.blk fn = true) (hrange : implemented fn off = false)
include henabled hrange

/-- A request to an offset that an enabled function does not implement: the row of R201, with no completion when it is posted. -/
theorem exec_unimplementedRange (posted : Bool) :
    exec (.unsupportedRequest (.unimplementedRange fn off) posted) s = .next { s with blk := unsupported fn posted s.blk } := by
  show execUnsupportedRequest (.unimplementedRange fn off) posted s = _
  rw [execUnsupportedRequest, badRequest, if_pos ⟨henabled, hrange⟩]

/-- An aligned register write there is the same request, posted. -/
theorem exec_registerWrite_of_not_implemented (haligned : off % 4 = 0) (v recur : Word) :
    exec (.registerWrite fn .bar0 off v ⟨recur, none⟩) s = .next { s with blk := unsupported fn true s.blk } := by
  show execRegisterWrite fn .bar0 off v ⟨recur, none⟩ s = _
  simp [execRegisterWrite, registerWrite, bar0Write, haligned, henabled, hrange]

end

/-- Settles O52: the four ranges are the complement of the map (`implemented_pf0_eq_false_iff`), a request and an aligned write there come to
the one row of R201, and neither the AER bits nor a completion touches the device registers. -/
theorem unimplementedOffsets : Obligations.UnimplementedOffsets := by
  refine ⟨fun off hoff => implemented_pf0_eq_false_iff hoff, fun s off hhole => ?_⟩
  have henabled := fnEnabled_pf0 s.blk
  have hrange := not_implemented_of_hole hhole
  exact ⟨aer_unsupported_advise 0 s.blk, exec_unimplementedRange henabled hrange false, exec_unimplementedRange henabled hrange true,
    fun haligned v => exec_registerWrite_of_not_implemented henabled hrange haligned v 0, advise_dev 0 aerUnsupported s.blk,
    congrArg DevSt.rsvdWrites ((reply_dev 0 .unsupported [] _).trans (advise_dev 0 aerUnsupported s.blk))⟩

end Sys2Proof.UnimplementedRange
end

section
/-! PROOFS. Frames: the units that a command can change, read off the Touch laws family by family. -/

namespace Sys2Proof.Frames

open Sys2Proof Sys2Proof.Machine

/-! ### Sets of units -/

/-- No unit is looked away from. -/
def nothing : Touch := ⟨false, false, false, false, false, false, false, false, false, false, false, false, false, false, false, false, false, false, false, false, false, false, false, false, false, false, false, false, false, false, false, false, false⟩

/-- Every unit is looked away from. -/
def everything : Touch := ⟨true, true, true, true, true, true, true, true, true, true, true, true, true, true, true, true, true, true, true, true, true, true, true, true, true, true, true, true, true, true, true, true, true⟩

/-- `W` looks away from whatever `V` does. -/
def Covers (W V : Touch) : Prop :=
  (V.run = true → W.run = true) ∧ (V.variant = true → W.variant = true) ∧ (V.lcs = true → W.lcs = true) ∧ (V.time = true → W.time = true) ∧
  (V.link = true → W.link = true) ∧ (V.q = true → W.q = true) ∧ (V.work = true → W.work = true) ∧ (V.vlt = true → W.vlt = true) ∧
  (V.ste = true → W.ste = true) ∧ (V.sce = true → W.sce = true) ∧ (V.dge = true → W.dge = true) ∧ (V.pke = true → W.pke = true) ∧
  (V.rng = true → W.rng = true) ∧ (V.key = true → W.key = true) ∧ (V.bbram = true → W.bbram = true) ∧ (V.evr = true → W.evr = true) ∧
  (V.dev = true → W.dev = true) ∧ (V.pins = true → W.pins = true) ∧ (V.pwr = true → W.pwr = true) ∧ (V.kept = true → W.kept = true) ∧
  (V.kpr = true → W.kpr = true) ∧ (V.sup = true → W.sup = true) ∧ (V.tmp = true → W.tmp = true) ∧ (V.otp = true → W.otp = true) ∧
  (V.cells = true → W.cells = true) ∧ (V.boot = true → W.boot = true) ∧ (V.flt = true → W.flt = true) ∧ (V.rcd = true → W.rcd = true) ∧
  (V.wdg = true → W.wdg = true) ∧ (V.leg = true → W.leg = true) ∧ (V.mon = true → W.mon = true) ∧ (V.sb = true → W.sb = true) ∧
  (V.out = true → W.out = true)

theorem Covers.refl (W : Touch) : Covers W W := by simp [Covers]

/-- The units of the data path. -/
def dataPathUnits : Touch := { nothing with
    link := true, q := true, work := true, vlt := true, ste := true, sce := true, dge := true, rng := true, key := true, bbram := true, evr :=
    true, dev := true, pins := true, out := true }

/-- The units of the commands on keys, sessions, records and public keys. -/
def keeperUnits : Touch := { nothing with
    link := true, q := true, work := true, vlt := true, ste := true, sce := true, dge := true, pke := true, rng := true, key := true, bbram :=
    true, evr := true, dev := true, pins := true, kpr := true, rcd := true, mon := true, out := true }

/-- The units of the commands on the registry and the domain. -/
def registryUnits : Touch := { nothing with
    link := true, q := true, work := true, vlt := true, ste := true, sce := true, dge := true, rng := true, key := true, bbram := true, evr :=
    true, dev := true, pins := true, kpr := true, tmp := true, leg := true, mon := true, out := true }

/-- The units of the commands on OTP. -/
def fuseUnits : Touch := { nothing with
    link := true, q := true, work := true, vlt := true, ste := true, sce := true, dge := true, rng := true, key := true, bbram := true, evr :=
    true, dev := true, pins := true, kpr := true, otp := true, mon := true, out := true }

/-- The units of an activation. -/
def activationUnits : Touch := { nothing with
    link := true, q := true, work := true, vlt := true, ste := true, sce := true, dge := true, rng := true, key := true, bbram := true, evr :=
    true, dev := true, pins := true, kpr := true, flt := true, mon := true, out := true }

/-- The units of the commands of the flash interposer. -/
def flashUnits : Touch := { nothing with
    link := true, key := true, bbram := true, evr := true, dev := true, pins := true, flt := true, out := true }

/-- The units of SPDM requests. -/
def spdmUnits : Touch := { nothing with
    link := true, pke := true, rng := true, key := true, bbram := true, evr := true, dev := true, pins := true, rcd := true, out := true }

/-- The units of TDISP requests. -/
def tdispUnits : Touch := { nothing with
    link := true, rng := true, rcd := true, out := true }

/-- The units of the governor. -/
def governorUnits : Touch := { nothing with
    link := true, q := true, work := true, vlt := true, ste := true, sce := true, dge := true, rng := true, key := true, bbram := true, evr :=
    true, dev := true, pins := true, pwr := true, out := true }

/-- The units of the register mode of the digest engine. -/
def digestRegistersUnits : Touch := { nothing with
    link := true, dge := true, dev := true, leg := true, out := true }

/-- The units of the basic level. -/
def basicUnits : Touch := { nothing with
    link := true, q := true, work := true, vlt := true, ste := true, sce := true, dge := true, rng := true, key := true, bbram := true, evr :=
    true, dev := true, pins := true, leg := true, out := true }

/-- The units of requests that the state alone serves. -/
def serialUnits : Touch := { nothing with
    link := true, pke := true, rng := true, key := true, bbram := true, evr := true, dev := true, pins := true, tmp := true, mon := true, out :=
    true }

/-- The units of offers and chunks of Thaw. -/
def thawUnits : Touch := { nothing with
    run := true, link := true, rng := true, key := true, bbram := true, evr := true, dev := true, pins := true, kept := true, boot := true, flt
    := true, rcd := true, wdg := true, mon := true, out := true }

/-- The units of expiries. -/
def timersUnits : Touch := { nothing with
    ste := true, sce := true, rng := true, key := true, evr := true, kpr := true, tmp := true, otp := true, boot := true }

/-- The units of the interrupt registers. -/
def interruptsUnits : Touch := { nothing with
    link := true, dev := true, out := true }

/-! ### From a hidden difference to a frame -/

/-- The block `b` with the units that `W` names taken from `t`. -/
def keep (W : Touch) (b t : Block) : Block :=
  { run := if W.run then t.run else b.run
    time := if W.time then t.time else b.time
    link := if W.link then t.link else b.link
    q := if W.q then t.q else b.q
    work := if W.work then t.work else b.work
    vlt := if W.vlt then t.vlt else b.vlt
    ste := if W.ste then t.ste else b.ste
    sce := if W.sce then t.sce else b.sce
    dge := if W.dge then t.dge else b.dge
    pke := if W.pke then t.pke else b.pke
    rng := if W.rng then t.rng else b.rng
    key := if W.key then t.key else b.key
    bbram := if W.bbram then t.bbram else b.bbram
    evr := if W.evr then t.evr else b.evr
    dev := if W.dev then t.dev else b.dev
    pins := if W.pins then t.pins else b.pins
    pwr := if W.pwr then t.pwr else b.pwr
    kept := if W.kept then t.kept else b.kept
    kpr := if W.kpr then t.kpr else b.kpr
    sup := if W.sup then t.sup else b.sup
    tmp := if W.tmp then t.tmp else b.tmp
    otp := if W.otp then t.otp else b.otp
    boot := if W.boot then t.boot else b.boot
    flt := if W.flt then t.flt else b.flt
    rcd := if W.rcd then t.rcd else b.rcd
    wdg := if W.wdg then t.wdg else b.wdg
    leg := if W.leg then t.leg else b.leg
    mon := if W.mon then t.mon else b.mon
    sb := if W.sb then t.sb else b.sb
    out := if W.out then t.out else b.out }

theorem eq_ite_of_ite_eq_ite {α : Type} {w : Bool} {p q x y : α} (h : (if w then p else x) = if w then q else y) : x = if w then x else y := by
  cases w
  · exact h
  · rfl

/-- Two blocks with no difference but in what `W` looks away from. -/
theorem eq_keep_of_hide_eq {W : Touch} {b t : Block} (h : hide W t = hide W b) : t = keep W b t := by
  cases t
  cases b
  simp only [hide, Block.mk.injEq] at h
  simp only [keep, Block.mk.injEq]
  revert h
  repeat' apply And.imp
  all_goals exact eq_ite_of_ite_eq_ite

/-- The difference that a next state makes is that of its block. -/
theorem hide_of_next {W : Touch} {b : Block} {s t : State} (h : Host.Outcome.next (φ := Fault) (ρ := Refusal) { s with blk := b } = .next t)
    (hb : hide W b = hide W s.blk) : hide W t.blk = hide W s.blk := by
  cases h
  exact hb

/-! ### Commands that hand one meaning to another -/

@[simp] theorem hide_rmAccess_rmCtrl (W : Touch) (leg : Bool) (v : Nat) (b : Block) (hW : W.leg ∧ W.dge) :
    hide W (rmAccess leg (rmCtrl v) b) = hide W b := by simp [hW]

@[simp] theorem hide_rmAccess_rmData (W : Touch) (leg : Bool) (v : Word) (b : Block) (hW : W.leg ∧ W.dge) :
    hide W (rmAccess leg (rmData v) b) = hide W b := by simp [hW]

@[simp] theorem hide_evidenceRun_getRecord (W : Touch) (f : FlashView) (id : Nat) (b : Block)
    (hW : W.link ∧ W.q ∧ W.work ∧ W.vlt ∧ W.ste ∧ W.sce ∧ W.dge ∧ W.rng ∧ W.key ∧ W.bbram ∧ W.evr ∧ W.dev ∧ W.pins ∧ W.kpr ∧ W.mon ∧ W.out) :
    hide W (evidenceRun 1 .none (getRecord f) id b) = hide W b := by simp [hW]

@[simp] theorem hide_inFrozen_frostNonce (W : Touch) (u : Nat) (p : Bytes) (b : Block) (hW : W.rng ∧ W.tmp) :
    hide W (inFrozen frostNonce u p b).2 = hide W b := by simp [hW]

@[simp] theorem hide_inFrozen_frostRelease (W : Touch) (u : Nat) (p : Bytes) (b : Block) (hW : W.tmp) :
    hide W (inFrozen frostRelease u p b).2 = hide W b := by simp [hW]

@[simp] theorem hide_unlessFrozen_recordGet (W : Touch) (f : FlashView) (u : Nat) (p : Bytes) (b : Block) (hW : W.out) :
    hide W (unlessFrozen (recordGet f) u p b).2 = hide W b := by simp [hW]

@[simp] theorem hide_viaRun_recordGet (W : Touch) (f : FlashView) (via : Via) (b : Block) (hW : W.link ∧ W.mon ∧ W.out) :
    hide W (viaRun 0x10 via (unlessFrozen (recordGet f)) b) = hide W b := by simp [hW]

@[simp] theorem hide_unlessFrozen_attestGet (W : Touch) (u : Nat) (p : Bytes) (b : Block)
    (hW : W.link ∧ W.pke ∧ W.rng ∧ W.key ∧ W.bbram ∧ W.evr ∧ W.dev ∧ W.pins ∧ W.out) :
    hide W (unlessFrozen attestGet u p b).2 = hide W b := by simp [hW]

@[simp] theorem hide_viaRun_thawTakes (W : Touch) (f : FlashView) (via : Via) (b : Block)
    (hW : W.run ∧ W.link ∧ W.rng ∧ W.key ∧ W.bbram ∧ W.evr ∧ W.dev ∧ W.pins ∧ W.boot ∧ W.flt ∧ W.rcd ∧ W.wdg ∧ W.mon ∧ W.out) :
    hide W (viaRun 0x02 via (thawTakes f) b) = hide W b := by simp [hW]

/-- The commands that may program fuses. -/
def programsFuses : Instr → Bool
  | .lcsDrainComplete _ | .tokenRootRevoke _ | .otpProgram _ | .rootRevoke _ | .healthyRunComplete _ | .romEntry _ => true
  | _ => false

/-! ### The families of the statements -/

section

variable {W : Touch} {c : Instr} {s t : State} (h : exec c s = .next t)
include h

theorem hide_exec_of_dataPath (hW : Covers W dataPathUnits) (hc : Claims.dataPath c = true) : hide W t.blk = hide W s.blk := by
  simp [Covers, dataPathUnits, nothing] at hW
  revert h
  cases c <;> cases hc
  all_goals
    intro h
    refine hide_of_next h ?_
    simp [hW]

theorem hide_exec_of_keeperFamily (hW : Covers W keeperUnits) (hc : Claims.keeperFamily c = true) : hide W t.blk = hide W s.blk := by
  simp [Covers, keeperUnits, nothing] at hW
  revert h
  cases c <;> cases hc
  all_goals
    intro h
    refine hide_of_next h ?_
    simp [hW]

theorem hide_exec_of_registryFamily (hW : Covers W registryUnits) (hc : Claims.registryFamily c = true) : hide W t.blk = hide W s.blk := by
  simp [Covers, registryUnits, nothing] at hW
  revert h
  cases c <;> cases hc
  all_goals
    intro h
    refine hide_of_next h ?_
    simp [hW]

theorem hide_exec_of_fuseFamily (hW : Covers W fuseUnits) (hc : Claims.fuseFamily c = true)
    (hcells : W.cells = true ∨ programsFuses c = false) : hide W t.blk = hide W s.blk := by
  simp [Covers, fuseUnits, nothing] at hW
  revert h hcells
  cases c <;> cases hc
  all_goals
    intro h hcells
    simp only [programsFuses, Bool.true_eq_false, or_false, or_true] at hcells
    refine hide_of_next h ?_
    simp [hW, hcells]

theorem hide_exec_of_activationFamily (hW : Covers W activationUnits) (hc : Claims.activationFamily c = true) : hide W t.blk = hide W s.blk := by
  simp [Covers, activationUnits, nothing] at hW
  revert h
  cases c <;> cases hc
  all_goals
    intro h
    refine hide_of_next h ?_
    simp [hW]

theorem hide_exec_of_flashFamily (hW : Covers W flashUnits) (hc : Claims.flashFamily c = true) : hide W t.blk = hide W s.blk := by
  simp [Covers, flashUnits, nothing] at hW
  revert h
  cases c <;> cases hc
  all_goals
    intro h
    refine hide_of_next h ?_
    simp [hide_ite, hW]

theorem hide_exec_of_spdmFamily (hW : Covers W spdmUnits) (hc : Claims.spdmFamily c = true) : hide W t.blk = hide W s.blk := by
  simp [Covers, spdmUnits, nothing] at hW
  revert h
  cases c <;> cases hc
  all_goals
    intro h
    refine hide_of_next h ?_
    simp [hW]

theorem hide_exec_of_tdispFamily (hW : Covers W tdispUnits) (hc : Claims.tdispFamily c = true) : hide W t.blk = hide W s.blk := by
  simp [Covers, tdispUnits, nothing] at hW
  revert h
  cases c <;> cases hc
  all_goals
    intro h
    refine hide_of_next h ?_
    simp [hW]

theorem hide_exec_of_governorFamily (hW : Covers W governorUnits) (hc : Claims.governorFamily c = true) : hide W t.blk = hide W s.blk := by
  simp [Covers, governorUnits, nothing] at hW
  revert h
  cases c <;> cases hc
  all_goals
    intro h
    refine hide_of_next h ?_
    simp [hW]

theorem hide_exec_of_digestRegistersFamily (hW : Covers W digestRegistersUnits) (hc : Claims.digestRegistersFamily c = true) : hide W t.blk = hide W s.blk := by
  simp [Covers, digestRegistersUnits, nothing] at hW
  revert h
  cases c <;> cases hc
  all_goals
    intro h
    refine hide_of_next h ?_
    simp [hW]

theorem hide_exec_of_basicFamily (hW : Covers W basicUnits) (hc : Claims.basicFamily c = true) : hide W t.blk = hide W s.blk := by
  simp [Covers, basicUnits, nothing] at hW
  revert h
  cases c <;> cases hc
  all_goals
    intro h
    refine hide_of_next h ?_
    simp [hW]

theorem hide_exec_of_serialFamily (hW : Covers W serialUnits) (hc : Claims.serialFamily c = true) : hide W t.blk = hide W s.blk := by
  simp [Covers, serialUnits, nothing] at hW
  revert h
  cases c <;> cases hc
  all_goals
    intro h
    refine hide_of_next h ?_
    simp [hW]

theorem hide_exec_of_thawFamily (hW : Covers W thawUnits) (hc : Claims.thawFamily c = true) : hide W t.blk = hide W s.blk := by
  simp [Covers, thawUnits, nothing] at hW
  revert h
  cases c <;> cases hc
  all_goals
    intro h
    refine hide_of_next h ?_
    simp [hW]

theorem hide_exec_of_timersFamily (hW : Covers W timersUnits) (hc : Claims.timersFamily c = true) : hide W t.blk = hide W s.blk := by
  simp [Covers, timersUnits, nothing] at hW
  revert h
  cases c <;> cases hc
  all_goals
    intro h
    refine hide_of_next h ?_
    simp [hW]

theorem hide_exec_of_interruptsFamily (hW : Covers W interruptsUnits) (hc : Claims.interruptsFamily c = true) : hide W t.blk = hide W s.blk := by
  simp [Covers, interruptsUnits, nothing] at hW
  revert h
  cases c <;> cases hc
  all_goals
    intro h
    refine hide_of_next h ?_
    simp [hW]

end

/-! ### The commands of no family -/

/-- The commands of no family that leave the clocks and the supplies alone. -/
def deviceFamily : Instr → Bool
  | .hostRelease | .sysRstNRecognised | .sysRstNRise | .sfdpTimeout _ | .listenWindowExpiry _ | .thawEnd _ _ | .lcsAdvance _
  | .transitionReset | .bootWindowWrite _ | .harvestGet _ | .spdmUnsupportedRequest _ _ | .stopInterfaceRequest _ _ | .moduleTrainTimeout _
  | .retrain | .dlDown | .refclkLoss | .hotReset | .vfFunctionLevelReset _ | .pf0FunctionLevelReset | .vfEnableClear
  | .hostReadCompletion _ _ _ | .completionTimeout _ _ _ | .hostPwrgdMsg _ | .hostPwrgdPinChange _ | .hostPwrgdFall | .hostPwrgdStable
  | .sidebandAck _ | .hostResetResend | .descriptorFetch | .adminEnable | .getHarvest _ | .sceParkTimeoutWrite _
  | .sceAbandonTimeoutWrite _ | .rmDigestDone | .rngStartupDone _ | .rngHealthFail _ | .rngConsumerTimeout _ | .rngRawRead | .debugUnlock _
  | .updateKeeper _ _ | .updateKeeperSwitch _ | .tamperTrigger _ | .tmpCfgApply _ | .frostReleaseReset | .engineAlarm _
  | .unitSelfTestDone _ _ | .unitReset _ | .quiesceAck _ _ | .wdgCfgWrite _ _ | .wdgPHostcfgWrite _ | .wdgCheckin _ _ _ _
  | .wdgWindowOpen _ | .wdgPeriodEnd _ _ | .keeperRestartPeriodTimeout | .hostResetPulseEnd | .powerCyclePulseEnd | .wdgHardTimeout _
  | .healthyRunComplete _ | .countsCommitTimer | .smbusAlertResponse | .registerWrite _ _ _ _ _ | .legWdgKick _ _ _ | .legWdgCfgWrite _
  | .monitorLine _ | .help _ | .status _ | .ident _ | .read _ | .cell _ | .hsmBlock _ | .framed _ | .write _ | .unitrst _ | .klog _
  | .sidebandComesUp | .smbusClockLowTimeout | .dynamicAddressAssignment _ _ _ | .latchingLoRead _ => true
  | _ => false

/-- The commands that move the clocks or change the supplies. -/
def supplyFamily : Instr → Bool
  | .supplyThresholdCrossing _ _ | .vbatLow _ | .vbatReturn _ | .powerGoodFall | .batteryDomainPowerUp _ | .romEntry _ => true
  | _ => false

/-- Every command is of one family. -/
theorem family_of_instr (c : Instr) :
    (Claims.dataPath c || Claims.keeperFamily c || Claims.registryFamily c || Claims.fuseFamily c || Claims.activationFamily c || Claims.flashFamily c ||
      Claims.spdmFamily c || Claims.tdispFamily c || Claims.governorFamily c || Claims.digestRegistersFamily c || Claims.basicFamily c ||
      Claims.serialFamily c || Claims.thawFamily c || Claims.timersFamily c || Claims.interruptsFamily c || deviceFamily c || supplyFamily c) = true := by
  cases c <;> rfl

/-- What a command changes besides the facts that outlive most: all but the clocks, the supplies, the variant, STATE and the fuse cells. -/
def deviceUnits : Touch := { everything with
    variant := false, lcs := false, time := false, sup := false, cells := false }

theorem hide_exec_of_deviceFamily {W : Touch} {c : Instr} {s t : State} (hW : Covers W deviceUnits) (hc : deviceFamily c = true)
    (hcells : W.cells = true ∨ programsFuses c = false) (h : exec c s = .next t) : hide W t.blk = hide W s.blk := by
  simp [Covers, deviceUnits, everything] at hW
  revert h hcells
  cases c <;> cases hc
  all_goals
    intro hcells h
    simp only [programsFuses, Bool.true_eq_false, or_false, or_true] at hcells
    refine hide_of_next h ?_
    simp [hide_ite, hW, hcells]

theorem hide_exec {W : Touch} {c : Instr} {s t : State} (hW : Covers W deviceUnits) (hsupply : supplyFamily c = false)
    (hcells : W.cells = true ∨ programsFuses c = false) (h : exec c s = .next t) : hide W t.blk = hide W s.blk := by
  have hc := family_of_instr c
  simp only [Bool.or_eq_true, hsupply, Bool.false_eq_true, or_false] at hc
  have hunits := hW
  simp [Covers, deviceUnits, everything] at hunits
  obtain ((((((((((((((hc | hc) | hc) | hc) | hc) | hc) | hc) | hc) | hc) | hc) | hc) | hc) | hc) | hc) | hc) | hc := hc
  · exact hide_exec_of_dataPath h (by simp [Covers, dataPathUnits, nothing, hunits]) hc
  · exact hide_exec_of_keeperFamily h (by simp [Covers, keeperUnits, nothing, hunits]) hc
  · exact hide_exec_of_registryFamily h (by simp [Covers, registryUnits, nothing, hunits]) hc
  · exact hide_exec_of_fuseFamily h (by simp [Covers, fuseUnits, nothing, hunits]) hc hcells
  · exact hide_exec_of_activationFamily h (by simp [Covers, activationUnits, nothing, hunits]) hc
  · exact hide_exec_of_flashFamily h (by simp [Covers, flashUnits, nothing, hunits]) hc
  · exact hide_exec_of_spdmFamily h (by simp [Covers, spdmUnits, nothing, hunits]) hc
  · exact hide_exec_of_tdispFamily h (by simp [Covers, tdispUnits, nothing, hunits]) hc
  · exact hide_exec_of_governorFamily h (by simp [Covers, governorUnits, nothing, hunits]) hc
  · exact hide_exec_of_digestRegistersFamily h (by simp [Covers, digestRegistersUnits, nothing, hunits]) hc
  · exact hide_exec_of_basicFamily h (by simp [Covers, basicUnits, nothing, hunits]) hc
  · exact hide_exec_of_serialFamily h (by simp [Covers, serialUnits, nothing, hunits]) hc
  · exact hide_exec_of_thawFamily h (by simp [Covers, thawUnits, nothing, hunits]) hc
  · exact hide_exec_of_timersFamily h (by simp [Covers, timersUnits, nothing, hunits]) hc
  · exact hide_exec_of_interruptsFamily h (by simp [Covers, interruptsUnits, nothing, hunits]) hc
  · exact hide_exec_of_deviceFamily hW hc hcells h

theorem hide_exec_of_supplyFamily {W : Touch} {c : Instr} {s t : State} (hW : Covers W deviceUnits) (hsup : W.sup = true)
    (hc : supplyFamily c = true) (htime : W.time = true ∨ ∀ mv, c ≠ .batteryDomainPowerUp mv)
    (hrom : W.lcs = true ∧ W.cells = true ∨ ∀ env, c ≠ .romEntry env) (h : exec c s = .next t) : hide W t.blk = hide W s.blk := by
  simp [Covers, deviceUnits, everything] at hW
  revert h htime hrom
  cases c <;> cases hc
  all_goals
    intro htime hrom h
    simp at htime hrom
    refine hide_of_next h ?_
    simp [hW, hsup, htime, hrom]

/-! ### The frames -/

/-- A family whose commands make no difference but in the units that `V` names has the frame of those units. -/
theorem spares_of_hide {family : Instr → Bool} {V : Touch} {k : Block → Block → Block} (hk : ∀ b t, keep V b t = k b t)
    (hfamily : ∀ {c : Instr} {s t : State}, exec c s = .next t → family c = true → hide V t.blk = hide V s.blk) : Claims.Spares family k :=
  fun _ s t hc h => (eq_keep_of_hide_eq (hfamily h hc)).trans (hk s.blk t.blk)

/-- Settles O56: the laws of the data path's operations, family by family. -/
theorem dataPathFrame : Obligations.DataPathFrame :=
  spares_of_hide (fun _ _ => rfl) (fun h hc => hide_exec_of_dataPath h (.refl _) hc)

/-- Settles O57, one conjunct for each group of HSM commands. -/
theorem keeperCommandFrame : Obligations.KeeperCommandFrame :=
  ⟨spares_of_hide (fun _ _ => rfl) (fun h hc => hide_exec_of_keeperFamily h (.refl _) hc),
    spares_of_hide (fun _ _ => rfl) (fun h hc => hide_exec_of_registryFamily h (.refl _) hc),
    spares_of_hide (V := { fuseUnits with cells := true }) (fun _ _ => rfl)
      (fun h hc => hide_exec_of_fuseFamily h (by simp [Covers, fuseUnits, nothing]) hc (.inl rfl)),
    spares_of_hide (fun _ _ => rfl) (fun h hc => hide_exec_of_activationFamily h (.refl _) hc)⟩

/-- Settles O58, one conjunct for each family. -/
theorem smallFamiliesFrame : Obligations.SmallFamiliesFrame :=
  ⟨spares_of_hide (fun _ _ => rfl) (fun h hc => hide_exec_of_flashFamily h (.refl _) hc),
    spares_of_hide (fun _ _ => rfl) (fun h hc => hide_exec_of_spdmFamily h (.refl _) hc),
    spares_of_hide (fun _ _ => rfl) (fun h hc => hide_exec_of_tdispFamily h (.refl _) hc),
    spares_of_hide (fun _ _ => rfl) (fun h hc => hide_exec_of_governorFamily h (.refl _) hc),
    spares_of_hide (fun _ _ => rfl) (fun h hc => hide_exec_of_digestRegistersFamily h (.refl _) hc),
    spares_of_hide (fun _ _ => rfl) (fun h hc => hide_exec_of_basicFamily h (.refl _) hc),
    spares_of_hide (fun _ _ => rfl) (fun h hc => hide_exec_of_serialFamily h (.refl _) hc),
    spares_of_hide (fun _ _ => rfl) (fun h hc => hide_exec_of_thawFamily h (.refl _) hc),
    spares_of_hide (fun _ _ => rfl) (fun h hc => hide_exec_of_timersFamily h (.refl _) hc),
    spares_of_hide (fun _ _ => rfl) (fun h hc => hide_exec_of_interruptsFamily h (.refl _) hc)⟩

/-! ### Whole-machine frames -/

/-- Everything but the clocks is looked away from. -/
def sightOfTime : Touch := { everything with time := false }

/-- Everything but the supplies is looked away from. -/
def sightOfSupplies : Touch := { everything with sup := false }

/-- Everything but the variant is looked away from. -/
def sightOfVariant : Touch := { everything with variant := false }

/-- Everything but the life-cycle STATE in force is looked away from. -/
def sightOfState : Touch := { everything with lcs := false }

theorem covers_sightOfTime : Covers sightOfTime deviceUnits := by simp [Covers, sightOfTime, deviceUnits, everything]
theorem covers_sightOfSupplies : Covers sightOfSupplies deviceUnits := by simp [Covers, sightOfSupplies, deviceUnits, everything]
theorem covers_sightOfVariant : Covers sightOfVariant deviceUnits := by simp [Covers, sightOfVariant, deviceUnits, everything]
theorem covers_sightOfState : Covers sightOfState deviceUnits := by simp [Covers, sightOfState, deviceUnits, everything]

section

variable {c : Instr} {s t : State} (h : exec c s = .next t)
include h

theorem time_eq_of_exec (hc : ∀ mv, c ≠ .batteryDomainPowerUp mv) : t.blk.time = s.blk.time := by
  have hhide : hide sightOfTime t.blk = hide sightOfTime s.blk := by
    cases hsupply : supplyFamily c with
    | false => exact hide_exec covers_sightOfTime hsupply (.inl rfl) h
    | true => exact hide_exec_of_supplyFamily covers_sightOfTime rfl hsupply (.inr hc) (.inl ⟨rfl, rfl⟩) h
  exact congrArg (·.time) hhide

theorem sup_eq_of_exec (hc : supplyFamily c = false) : t.blk.sup = s.blk.sup :=
  congrArg (·.sup) (hide_exec covers_sightOfSupplies hc (.inl rfl) h)

theorem variant_eq_of_exec : t.blk.run.variant = s.blk.run.variant := by
  have hhide : hide sightOfVariant t.blk = hide sightOfVariant s.blk := by
    cases hsupply : supplyFamily c with
    | false => exact hide_exec covers_sightOfVariant hsupply (.inl rfl) h
    | true => exact hide_exec_of_supplyFamily covers_sightOfVariant rfl hsupply (.inl rfl) (.inl ⟨rfl, rfl⟩) h
  exact congrArg (·.run.variant) hhide

theorem lcs_eq_of_exec (hc : ∀ env, c ≠ .romEntry env) : t.blk.run.lcs = s.blk.run.lcs := by
  have hhide : hide sightOfState t.blk = hide sightOfState s.blk := by
    cases hsupply : supplyFamily c with
    | false => exact hide_exec covers_sightOfState hsupply (.inl rfl) h
    | true => exact hide_exec_of_supplyFamily covers_sightOfState rfl hsupply (.inl rfl) (.inr hc) h
  exact congrArg (·.run.lcs) hhide

end

theorem supplyFamily_eq_false {c : Instr} (hcross : ∀ u x, c ≠ .supplyThresholdCrossing u x) (hlow : ∀ mv, c ≠ .vbatLow mv)
    (hreturn : ∀ mv, c ≠ .vbatReturn mv) (hfall : c ≠ .powerGoodFall) (hup : ∀ mv, c ≠ .batteryDomainPowerUp mv)
    (hrom : ∀ env, c ≠ .romEntry env) : supplyFamily c = false := by
  rw [← Bool.not_eq_true]
  intro hc
  cases c <;> cases hc
  · exact hcross _ _ rfl
  · exact hfall rfl
  · exact hrom _ rfl
  · exact hlow _ rfl
  · exact hup _ rfl
  · exact hreturn _ rfl

theorem variant_idleStep (b : Block) : (idleStep b).run.variant = b.run.variant :=
  congrArg (·.run.variant) (hide_idleStep sightOfVariant b (by simp [sightOfVariant, everything]))

/-- Settles O59: with everything but the clocks, or but the supplies, looked away from, no other command makes a difference. -/
theorem clocksAndSuppliesFrame : Obligations.ClocksAndSuppliesFrame := by
  refine ⟨fun _ _ _ hc h => time_eq_of_exec h hc, fun c s t hcross hlow hreturn hfall hup hrom h => sup_eq_of_exec h ?_⟩
  exact supplyFamily_eq_false hcross hlow hreturn hfall hup hrom

/-- Settles O6: with everything but the variant looked away from, no step makes a difference; with everything but STATE, none but ROM entry. -/
theorem lifeCycleStateOnlyAtRomEntry : Obligations.LifeCycleStateOnlyAtRomEntry := by
  refine ⟨fun v s t hv h => ?_, fun _ _ _ hc h => lcs_eq_of_exec h hc⟩
  obtain ⟨b, _ | ⟨c, rest⟩⟩ := s
  · cases h
    exact (variant_idleStep b).trans hv
  · exact (variant_eq_of_exec (show exec c ⟨b, rest⟩ = .next t from h)).trans hv

end Sys2Proof.Frames
end

section
/-! PROOFS. Fuses are never programmed back (R82). -/

namespace Sys2Proof.Fuses

open Sys2Proof Sys2Proof.Machine Sys2Proof.Frames

/-- Every fuse bit that is 1 in `b` is 1 in `c`. -/
def Kept (b c : Block) : Prop := ∀ w k, (otpWord b w).testBit k = true → (otpWord c w).testBit k = true

theorem Kept.refl (b : Block) : Kept b b := fun _ _ h => h

theorem Kept.trans {b c d : Block} (hbc : Kept b c) (hcd : Kept c d) : Kept b d := fun w k h => hcd w k (hbc w k h)

/-- Everything but the fuse cells is looked away from. -/
def sightOfFuses : Touch := { everything with cells := false }

theorem covers_sightOfFuses : Covers sightOfFuses deviceUnits := by simp [Covers, sightOfFuses, deviceUnits, everything]

theorem kept_of_hide_eq {b c : Block} (h : hide sightOfFuses c = hide sightOfFuses b) : Kept b c := by
  have hcells : c.otp.cells = b.otp.cells := congrArg (·.otp.cells) h
  intro w k hbit
  rwa [otpWord, hcells]

/-- An operation that leaves the fuse cells alone can follow one that programs them. -/
theorem Kept.then {b c : Block} {f : Block → Block} (h : Kept b c) (hf : hide sightOfFuses (f c) = hide sightOfFuses c) : Kept b (f c) :=
  h.trans (kept_of_hide_eq hf)

theorem kept_otpProgram (w v : Nat) (b : Block) : Kept b (otpProgram w v b) := fun m i => testBit_otpProgram w v m i b

theorem kept_programLcs (v : Nat) (b : Block) : Kept b (programLcs v b) := (kept_otpProgram 0 _ b).trans (kept_otpProgram 1 _ _)

theorem kept_foldl {α : Type} {f : Block → α → Block} (hf : ∀ c x, Kept c (f c x)) (l : List α) (b : Block) : Kept b (l.foldl f b) := by
  induction l generalizing b with
  | nil => exact .refl b
  | cons x l ih => exact (hf b x).trans (ih (f b x))

/-! ### What programs fuses -/

theorem kept_ite {b c d : Block} {p : Prop} [Decidable p] (hc : Kept b c) (hd : Kept b d) : Kept b (if p then c else d) := by
  split
  · exact hc
  · exact hd

theorem kept_arbAdvance (c s : Nat) (b : Block) : Kept b (arbAdvance c s b) :=
  kept_foldl (fun b _ => kept_ite (.refl b) (kept_otpProgram _ _ b)) _ b

theorem kept_programSecret (b : Block) : Kept b (programSecret b) := by
  have hdraw : Kept b (drawSeed 32 b).2 := kept_of_hide_eq (by simp [sightOfFuses, everything])
  exact (hdraw.trans (kept_foldl (fun b _ => kept_otpProgram _ _ b) _ _)).trans (kept_otpProgram _ _ _)

/-- The end of a drain (R85): the groups are programmed, and the command is answered. -/
theorem kept_drainEnds {b c : Block} (hbc : Kept b c) (h : HsmJob) (target v : Nat) (p : Prop) [Decidable p] :
    Kept b (if p then settleAll ((hsmOk h target [] (programLcs v c)).onOtp (fun o => { o with resetDue := true }))
      else settleAll (hsmFail h 0x0008 0 (programLcs v c))) := by
  have hlcs : Kept b (programLcs v c) := hbc.trans (kept_programLcs v c)
  refine kept_ite (hlcs.trans (kept_of_hide_eq ?_)) (hlcs.trans (kept_of_hide_eq ?_))
  all_goals simp [sightOfFuses, everything]

theorem kept_drainComplete (took : Nat) (b : Block) : Kept b (drainComplete took b) := by
  unfold drainComplete
  dsimp only
  split
  · exact .refl b
  split
  · exact .refl b
  split
  · exact .refl b
  split
  · exact kept_of_hide_eq (by simp [sightOfFuses, everything])
  split
  · exact .refl b
  split
  · exact kept_drainEnds (kept_programSecret b) _ _ _ _
  · exact kept_drainEnds (.refl b) _ _ _ _

theorem kept_fused {f : Block → Block} (hf : ∀ b, Kept b (f b)) (h : HsmJob) (why : Nat) (b : Block) : Kept b (fused h why f b) := by
  refine kept_ite ((hf b).then (f := hsmOk h 0 []) ?_) (kept_of_hide_eq ?_)
  all_goals simp [sightOfFuses, everything]

theorem kept_tokenThen {f : Block → Block} (hf : ∀ b, Kept b (f b)) (h : HsmJob) (t : Bytes) (kind src dst : Nat) (b : Block) :
    Kept b (tokenThen h t kind src dst f b) := by
  unfold tokenThen
  split
  · exact kept_of_hide_eq (by simp [sightOfFuses, everything])
  · exact kept_of_hide_eq (by simp [sightOfFuses, everything])
  · exact (kept_of_hide_eq (by simp [sightOfFuses, everything])).trans (hf _)

theorem kept_hsmFail (h : HsmJob) (why result : Nat) (b : Block) : Kept b (hsmFail h why result b) :=
  kept_of_hide_eq (by simp [sightOfFuses, everything])

theorem kept_tokenRevoke (h : HsmJob) (b : Block) : Kept b (tokenRevoke h b) :=
  kept_ite (kept_hsmFail _ _ _ b) (kept_tokenThen (fun c => kept_ite (kept_hsmFail _ _ _ c) (kept_ite (kept_hsmFail _ _ _ c)
    (kept_fused (fun d => kept_otpProgram _ _ d) _ _ c))) _ _ _ _ _ b)

theorem kept_otpProgramCmd (h : HsmJob) (b : Block) : Kept b (otpProgramCmd h b) := by
  unfold otpProgramCmd
  dsimp only
  split
  · exact kept_hsmFail _ _ _ b
  · exact kept_ite (kept_hsmFail _ _ _ b) (kept_ite (kept_hsmFail _ _ _ b) (kept_ite (kept_hsmFail _ _ _ b)
      (kept_fused (kept_foldl (fun c _ => kept_otpProgram _ _ c) _) _ _ b)))

theorem kept_rootRevoke (h : HsmJob) (b : Block) : Kept b (rootRevoke h b) :=
  kept_ite (kept_hsmFail _ _ _ b) (kept_ite (kept_hsmFail _ _ _ b) (kept_ite (kept_hsmFail _ _ _ b) (kept_ite (kept_hsmFail _ _ _ b)
    (kept_fused (fun c => kept_otpProgram _ _ c) _ _ b))))

/-- An HSM command whose own effect keeps the fuses keeps them, whatever R376 makes of it. -/
theorem kept_hsmRun {own : HsmJob → Option EqxSession → Block → Block} (hown : ∀ h x b, Kept b (own h x b)) (code id : Nat)
    (rule : HsmJob → Block → HsmRule) (rnd : HsmJob → Randomness) (b : Block) : Kept b (hsmRun code id rule rnd own b) := by
  unfold hsmRun
  split
  · exact .refl b
  split
  · exact kept_of_hide_eq (by simp [sightOfFuses, everything])
  split
  · exact kept_of_hide_eq (by simp [hide_ite, sightOfFuses, everything])
  next session _ =>
    split
    · exact kept_of_hide_eq (by simp [sightOfFuses, everything])
    split
    · exact .refl b
    have hsettle (c : Block) : Kept c (settleAll c) := kept_of_hide_eq (by simp [sightOfFuses, everything])
    cases session with
    | none => exact (hown _ none b).trans (hsettle _)
    | some x => exact ((kept_of_hide_eq (by simp [sightOfFuses, everything])).trans (hown _ (some x) _)).trans (hsettle _)

theorem kept_advanceRollback (bad : List Nat) (b : Block) : Kept b (advanceRollback bad b) := by
  refine kept_foldl (fun b c => kept_ite (kept_ite ?_ (kept_arbAdvance _ _ b)) (.refl b)) _ b
  exact kept_of_hide_eq (by simp [sightOfFuses, everything])

theorem kept_healthyRun (bad : List Nat) (b : Block) : Kept b (healthyRun bad b) := by
  refine kept_ite (Kept.trans ?_ (kept_advanceRollback bad _)) (.refl b)
  exact kept_of_hide_eq (by simp [sightOfFuses, everything])

theorem kept_completeGroups (weak : List Nat) (b : Block) : Kept b (completeGroups weak b) := by
  have hevent (c : Block) (g : Nat) : Kept c (event 0x080 g (programLcs (groupBits g) c)) :=
    (kept_programLcs _ c).then (f := event 0x080 g) (by simp [sightOfFuses, everything])
  exact (kept_foldl hevent _ b).then (f := fun c => (c.onOtp _).onRun _) (by simp [sightOfFuses, everything])

theorem kept_romBegins (env : BootEnv) (b : Block) : Kept b (romBegins env b) := by
  refine Kept.then (f := fun c => checkTag (loadShadow c)) (Kept.trans (kept_of_hide_eq ?_) (kept_completeGroups env.weak _)) ?_
  all_goals simp [sightOfFuses, everything]

theorem kept_romEntry (env : BootEnv) (b : Block) : Kept b (romEntry env b) := by
  unfold romEntry
  refine kept_ite (.refl b) (kept_ite ((kept_romBegins env b).trans (kept_of_hide_eq ?_)) (kept_ite ?_ ?_))
  · simp [sightOfFuses, everything]
  · exact (kept_romBegins env b).trans (kept_of_hide_eq (by simp [sightOfFuses, everything]))
  · exact (kept_romBegins env b).trans (kept_of_hide_eq (by simp [sightOfFuses, everything]))

/-! ### Every step -/

theorem kept_exec {c : Instr} {s t : State} (h : exec c s = .next t) : Kept s.blk t.blk := by
  cases hc : programsFuses c with
  | false => exact kept_of_hide_eq (by
      cases hsupply : supplyFamily c with
      | false => exact hide_exec covers_sightOfFuses hsupply (.inr hc) h
      | true => exact hide_exec_of_supplyFamily covers_sightOfFuses rfl hsupply (.inl rfl) (.inr fun env hrom => by subst hrom; cases hc) h)
  | true =>
    revert h
    cases c <;> cases hc
    case true.lcsDrainComplete.refl took => rintro ⟨⟩; exact kept_drainComplete took s.blk
    case true.tokenRootRevoke.refl id => rintro ⟨⟩; exact kept_hsmRun (fun h _ b => kept_tokenRevoke h b) _ _ _ _ s.blk
    case true.otpProgram.refl id => rintro ⟨⟩; exact kept_hsmRun (fun h _ b => kept_otpProgramCmd h b) _ _ _ _ s.blk
    case true.rootRevoke.refl id => rintro ⟨⟩; exact kept_hsmRun (fun h _ b => kept_rootRevoke h b) _ _ _ _ s.blk
    case true.healthyRunComplete.refl bad => rintro ⟨⟩; exact kept_healthyRun bad s.blk
    case true.romEntry.refl env => rintro ⟨⟩; exact kept_romEntry env s.blk

theorem kept_idleStep (b : Block) : Kept b (idleStep b) := kept_of_hide_eq (by simp [sightOfFuses, everything])

/-- Settles O4: a command either leaves the fuse cells alone, or programs them, which only sets bits. -/
theorem fuseBitsStay : Obligations.FuseBitsStay := by
  intro w k ⟨b, pending⟩ t hbit hstep
  cases pending with
  | nil => cases hstep; exact kept_idleStep b w k hbit
  | cons c rest => exact kept_exec (show exec c ⟨b, rest⟩ = .next t from hstep) w k hbit

end Sys2Proof.Fuses
end

section
/-! PROOFS. A step runs the front command or lets a microsecond pass; every command answers; the clocks of R23. -/

namespace Sys2Proof.Steps

open Sys2Proof Sys2Proof.Machine Sys2Proof.Frames

/-! ### Steps -/

/-- Equal blocks give equal next states. -/
theorem next_congr {s : State} {b c : Block} (h : b = c) :
    Host.Outcome.next (φ := Fault) (ρ := Refusal) { s with blk := b } = .next { s with blk := c } := by rw [h]

/-- Settles O1. -/
theorem stepRunsFrontCommand : Obligations.StepRunsFrontCommand := fun _ _ _ => rfl

theorem blk_eq_of_next_eq {s : State} {b c : Block}
    (h : Host.Outcome.next (φ := Fault) (ρ := Refusal) { s with blk := b } = .next { s with blk := c }) : b = c :=
  congrArg State.blk (Host.Outcome.next.inj h)

theorem exec_eq_next (c : Instr) (s : State) : ∃ b : Block, exec c s = .next ⟨b, s.pending⟩ := by
  cases c <;> exact ⟨_, rfl⟩

/-- Settles O3: every arm of exec is a next state, and so is an idle step. -/
theorem everyCommandAnswers : Obligations.EveryCommandAnswers := by
  refine ⟨exec_eq_next, fun ⟨b, pending⟩ => ?_⟩
  cases pending with
  | nil => exact ⟨_, rfl⟩
  | cons c rest =>
    obtain ⟨t, ht⟩ := exec_eq_next c ⟨b, rest⟩
    exact ⟨_, ht⟩

/-- Settles O5: the fuses of `OtpSt.shipped`. -/
theorem resetFuses : Obligations.ResetFuses := by
  unfold Obligations.ResetFuses
  decide +kernel

/-! ### The clocks (R23) -/

/-- The crystal runs: the battery domain has a supply (R71). -/
def crystalRuns (b : Block) : Bool := b.sup.ana.good || decide (2400 ≤ b.sup.vbatMv)

/-- The clocks `n` microseconds later, with the 1 MHz reference there or not, and the crystal running or not. -/
def clocksAfter (n : Nat) (reference crystal : Bool) (t : TimeSt) : TimeSt :=
  let ph := t.phase + 32768 * n
  let sub := t.subsec + ph / 1000000
  { mono := t.mono + n
    usec := if reference then t.usec + n else t.usec
    phase := if crystal then ph % 1000000 else t.phase
    subsec := if crystal then sub % 32768 else t.subsec
    secs := if crystal then (t.secs + sub / 32768) % 2 ^ 48 else t.secs }

theorem tick_eq (b : Block) : tick b = b.onTime (clocksAfter 1 b.sup.ana.good (crystalRuns b)) := rfl

theorem clocksAfter_zero {t : TimeSt} (reference crystal : Bool) (hphase : t.phase < 1000000) (hsub : t.subsec < 32768) (hsecs : t.secs < 2 ^ 48) :
    clocksAfter 0 reference crystal t = t := by
  have hph : t.phase / 1000000 = 0 := Nat.div_eq_of_lt hphase
  have hsb : t.subsec / 32768 = 0 := Nat.div_eq_of_lt hsub
  simp only [clocksAfter, Nat.mul_zero, Nat.add_zero, hph, hsb, Nat.mod_eq_of_lt hphase, Nat.mod_eq_of_lt hsub, Nat.mod_eq_of_lt hsecs, ite_self]

/-- One microsecond after `n` of them. -/
theorem clocksAfter_one_clocksAfter (n : Nat) (reference crystal : Bool) (t : TimeSt) :
    clocksAfter 1 reference crystal (clocksAfter n reference crystal t) = clocksAfter (n + 1) reference crystal t := by
  cases crystal <;> cases reference
  all_goals
    simp only [clocksAfter, if_true, TimeSt.mk.injEq, Bool.false_eq_true, if_false, true_and]
    omega

theorem tick_iterate {b : Block} (hphase : b.time.phase < 1000000) (hsub : b.time.subsec < 32768) (hsecs : b.time.secs < 2 ^ 48) (n : Nat) :
    tick^[n] b = b.onTime (clocksAfter n b.sup.ana.good (crystalRuns b)) := by
  induction n with
  | zero => rw [Function.iterate_zero_apply, Block.onTime, clocksAfter_zero _ _ hphase hsub hsecs]
  | succ n ih =>
    rw [Function.iterate_succ_apply', ih, tick_eq]
    exact congrArg (fun t => { b with time := t }) (clocksAfter_one_clocksAfter n _ _ _)

/-- What an idle step does besides the tick leaves the clocks alone. -/
theorem time_idleStep (b : Block) : (idleStep b).time = (tick b).time := by
  unfold idleStep
  refine congrArg (·.time) (?_ : hide sightOfTime _ = hide sightOfTime (tick b))
  simp [sightOfTime, everything]

/-- A million microseconds are one second of the crystal. -/
theorem clocksAfter_million {t : TimeSt} (reference : Bool) (hphase : t.phase < 1000000) (hsub : t.subsec < 32768) :
    clocksAfter 1000000 reference true t =
      { mono := t.mono + 1000000, usec := if reference then t.usec + 1000000 else t.usec, phase := t.phase, subsec := t.subsec,
        secs := (t.secs + 1) % 2 ^ 48 } := by
  simp only [clocksAfter, if_true, TimeSt.mk.injEq, true_and, and_true]
  refine ⟨?_, ?_, ?_⟩ <;> omega

/-- Settles O2: by induction `n` ticks are one step of the crystal's count by 32,768 `n` millionths of a sub-second (`tick_iterate`). -/
theorem idleStepsKeepTime : Obligations.IdleStepsKeepTime := by
  refine ⟨fun b => ⟨rfl, time_idleStep b⟩, fun b hphase hsub hsecs => ?_⟩
  have hcrystal : crystalRuns b = true ↔ b.sup.ana.good = true ∨ 2400 ≤ b.sup.vbatMv := by simp [crystalRuns]
  simp only [tick_iterate hphase hsub hsecs, onTime_time, ← hcrystal]
  cases hrun : crystalRuns b with
  | true =>
    rw [clocksAfter_million _ hphase hsub]
    simp
  | false => simp [clocksAfter]

end Sys2Proof.Steps
end

section
/-! PROOFS. The turn of an HSM command (R376). -/

namespace Sys2Proof.Turns

open Sys2Proof Sys2Proof.Machine Sys2Proof.Steps

/-! ### A command whose turn has not come -/

section

variable {b : Block} {code id : Nat} (hr : hsmReady b code id = none)
include hr

theorem importRun_waits (rnd : Randomness) (f : HsmJob → Block → Block) : importRun code rnd f id b = b := by
  simp only [importRun, hr]
  exact hsmRun_waits _ _ _ hr

theorem offerRun_waits (after : Block) : offerRun code id b after = after := by
  simp only [offerRun, hr]

end

theorem eraseJudged_waits {b : Block} {id : Nat} (hr : hsmReady b 0x36 id = none) : eraseJudged id b = b := by
  simp only [eraseJudged, hr]

/-- A command of the keeper that runs as R376 says, and no more, changes nothing out of turn. -/
theorem exec_eq_self_of_waits {c : Instr} {s : State} {code id : Nat} {rule : HsmJob → Block → HsmRule} {rnd : HsmJob → Randomness}
    {own : HsmJob → Option EqxSession → Block → Block} (hc : exec c s = .next { s with blk := hsmRun code id rule rnd own s.blk })
    (hr : hsmReady s.blk code id = none) : exec c s = .next s := by
  rw [hc, hsmRun_waits rule rnd own hr]

section

variable {s : State} {id : Nat}

theorem importBlobClear_waits (hr : hsmReady s.blk 0x33 id = none) : exec (.importBlobClear id) s = .next s :=
  next_congr (importRun_waits hr .needed importBlob)

theorem importSlotClear_waits (hr : hsmReady s.blk 0x34 id = none) : exec (.importSlotClear id) s = .next s :=
  next_congr (importRun_waits hr .none importSlot)

theorem slotErase_waits (hr : hsmReady s.blk 0x36 id = none) : exec (.slotErase id) s = .next s := by
  show Host.Outcome.next { s with blk := keyQuorumRun 0x36 .none eraseAllowed slotErase id (eraseJudged id s.blk) } = _
  rw [eraseJudged_waits hr]
  exact next_congr (hsmRun_waits _ _ _ hr)

theorem domainJoin_waits (hr : hsmReady s.blk 0x63 id = none) : exec (.domainJoin id) s = .next s :=
  next_congr ((offerRun_waits hr _).trans (hsmRun_waits _ _ _ hr))

theorem domainReceive_waits (hr : hsmReady s.blk 0x65 id = none) : exec (.domainReceive id) s = .next s :=
  next_congr ((offerRun_waits hr _).trans (hsmRun_waits _ _ _ hr))

end

/-- The commands of `hsmCommands` out of turn: five run something about R376's steps, which waits with them. -/
theorem waits_of_hsmCommands {p : (Nat → Instr) × Nat} (hp : p ∈ Claims.hsmCommands) {s : State} {id : Nat}
    (hr : hsmReady s.blk p.2 id = none) : exec (p.1 id) s = .next s := by
  unfold Claims.hsmCommands at hp
  fin_cases hp
  -- The five, by their places in the list, the last one first.
  on_goal 39 => exact domainReceive_waits hr
  on_goal 37 => exact domainJoin_waits hr
  on_goal 13 => exact slotErase_waits hr
  on_goal 11 => exact importSlotClear_waits hr
  on_goal 10 => exact importBlobClear_waits hr
  all_goals exact exec_eq_self_of_waits rfl hr

/-! ### Commands that run alone -/

/-- What a command's turn rests on. -/
theorem of_hsmReady {b : Block} {code id : Nat} {h : HsmJob} (hr : hsmReady b code id = some h) :
    b.kpr.hsm.find? (fun x => x.id == id) = some h ∧ bkCommand h.block = code ∧ h.stage = .waiting ∧ keeperServes b = true ∧
      (runsAlone h.block = false ∨
        (b.kpr.hsm.takeWhile (fun x => x.id != id)).all (fun x => !runsAlone x.block || x.stage == .lcsDrain) = true) := by
  simp only [hsmReady] at hr
  split at hr
  · cases hr
  next x hfind =>
    split at hr
    next hturn => cases hr; exact ⟨hfind, hturn⟩
    next => cases hr

/-- Settles O18. -/
theorem keeperCommandsTakeTurns : Obligations.KeeperCommandsTakeTurns := by
  refine ⟨fun p hp s id hr => waits_of_hsmCommands hp hr, fun b code id h hr halone x hx hxalone => ?_⟩
  obtain ⟨-, -, -, -, hturn⟩ := of_hsmReady hr
  rw [halone] at hturn
  have hall := List.all_eq_true.mp (hturn.resolve_left (by decide)) x hx
  simpa [hxalone] using hall

end Sys2Proof.Turns
end

section
/-! PROOFS. Descriptor reads (R213, R217, R220, R223): what a read of the device leaves, the credits reserved for it, the SQ that the arbiter picks. -/

namespace Sys2Proof.DescriptorReads

open Sys2Proof Sys2Proof.Machine Sys2Proof.Frames

/-! ### A read that is issued -/

/-- The units of a read request that goes out. -/
def requestUnits : Touch := { nothing with link := true, work := true, out := true }

theorem q_pumpReads (b : Block) : (pumpReads b).q = b.q :=
  congrArg (·.q) (hide_pumpReads requestUnits b (by simp [requestUnits]))

theorem reads_sendPiece (b : Block) (p : ReadPiece) : (sendPiece b p).work.reads = b.work.reads := by
  unfold sendPiece
  dsimp only
  split
  · split <;> rfl
  · rfl

theorem reads_foldl_sendPiece (ps : List ReadPiece) (b : Block) : (ps.foldl sendPiece b).work.reads = b.work.reads := by
  induction ps generalizing b with
  | nil => rfl
  | cons p ps ih => rw [List.foldl_cons, ih, reads_sendPiece]

theorem reads_pumpReads (b : Block) : (pumpReads b).work.reads = b.work.reads := reads_foldl_sendPiece _ _

/-- A read takes its place behind those outstanding. -/
theorem reads_issueRead (fn : Nat) (world : Bool) (kind : ReadKind) (segs : List (Nat × Nat)) (b : Block) :
    (issueRead fn world kind segs b).work.reads = b.work.reads ++
      [{ num := b.work.nextRead, fn := fn, world := world, kind := kind, len := (segs.map (·.2)).sum, got := [] }] :=
  reads_pumpReads _

@[simp] theorem q_issueRead (fn : Nat) (world : Bool) (kind : ReadKind) (segs : List (Nat × Nat)) (b : Block) :
    (issueRead fn world kind segs b).q = b.q := q_pumpReads _

theorem sqOf_congr {b c : Block} (h : b.q.sqs = c.q.sqs) (n : Nat) : sqOf b n = sqOf c n := by rw [sqOf, sqOf, h]

theorem sqOf_issueRead (fn : Nat) (world : Bool) (kind : ReadKind) (segs : List (Nat × Nat)) (b : Block) (n : Nat) :
    sqOf (issueRead fn world kind segs b) n = sqOf b n := sqOf_congr (congrArg (·.sqs) (q_issueRead fn world kind segs b)) n

/-! ### The turn and the credits -/

/-- Giving up the turn touches nothing but the turn. -/
theorem yieldTurn_cases (b : Block) : yieldTurn b = b ∨ yieldTurn b = b.onQ (fun q => { q with turnLeft := 0 }) := by
  unfold yieldTurn
  split
  · right; simp [loseTurn, Block.onQ]
  · exact .inl rfl

@[simp] theorem work_yieldTurn (b : Block) : (yieldTurn b).work = b.work :=
  (yieldTurn_cases b).elim (congrArg Block.work) (congrArg Block.work)

@[simp] theorem link_yieldTurn (b : Block) : (yieldTurn b).link = b.link :=
  (yieldTurn_cases b).elim (congrArg Block.link) (congrArg Block.link)

@[simp] theorem sqOf_yieldTurn (b : Block) (n : Nat) : sqOf (yieldTurn b) n = sqOf b n :=
  (yieldTurn_cases b).elim (congrArg (sqOf · n)) (congrArg (sqOf · n))

/-- The credits got are at most those asked for, all of them are held by the SQ, and nothing but its queue unit changes. -/
theorem reserveUpTo_spec (n k : Nat) (b : Block) :
    (reserveUpTo n k b).1 ≤ k ∧ sqOf (reserveUpTo n k b).2 n = { sqOf b n with held := (sqOf b n).held + (reserveUpTo n k b).1 } ∧
      (reserveUpTo n k b).2.work = b.work ∧ (reserveUpTo n k b).2.link = b.link := by
  induction k generalizing b with
  | zero => exact ⟨Nat.le_refl 0, rfl, rfl, rfl⟩
  | succ k ih =>
    rw [reserveUpTo]
    split
    · obtain ⟨hle, hsq, hwork, hlink⟩ := ih (reserve n b)
      refine ⟨Nat.succ_le_succ hle, ?_, hwork, hlink⟩
      rw [hsq, reserve, sqOf_onSq, if_pos rfl]
      exact congrArg (fun c => { sqOf b n with held := c }) (Nat.add_right_comm _ 1 _)
    · exact ⟨Nat.zero_le _, rfl, rfl, rfl⟩

theorem one_le_reserveUpTo {n k : Nat} {b : Block} (hk : 0 < k) (hcredit : canReserve b n = true) : 1 ≤ (reserveUpTo n k b).1 := by
  cases k with
  | zero => exact absurd hk (Nat.lt_irrefl 0)
  | succ k => simp [reserveUpTo, hcredit]

/-! ### The choice of the arbiter -/

theorem mem_of_roundNext {ns : List Nat} {last n : Nat} (h : roundNext ns last = some n) : n ∈ ns := by
  unfold roundNext at h
  split at h
  next m hfind => cases h; exact List.mem_of_find?_eq_some hfind
  next => exact List.mem_of_head? h

theorem readable_of_arbitrate {b : Block} {n left : Nat} (h : arbitrate b = some (n, left)) : readable b n = true := by
  simp only [arbitrate] at h
  split at h
  next m hround =>
    cases h
    exact (List.mem_filter.mp (List.mem_filter.mp (mem_of_roundNext hround)).1).2
  next =>
    split at h
    · cases h
    split at h
    next hturn =>
      cases h
      simp only [Bool.and_eq_true, List.contains_iff_mem] at hturn
      exact (List.mem_filter.mp hturn.1).2
    next =>
      obtain ⟨m, hround, heq⟩ := Option.map_eq_some_iff.mp h
      cases heq
      exact (List.mem_filter.mp (List.mem_filter.mp (mem_of_roundNext hround)).1).2

theorem of_readable {b : Block} {n : Nat} (h : readable b n = true) :
    0 < unread (sqOf b n) ∧ (sqOf b n).reading = 0 ∧ canReserve b n = true := by
  simp only [readable, Bool.and_eq_true, decide_eq_true_eq] at h
  tauto

theorem worldOf_congr {b c : Block} (h : b.link = c.link) (fn : Nat) : worldOf b fn = worldOf c fn := by
  rw [worldOf, worldOf, fnOf, fnOf, h]

/-- Noting which SQ was read last changes no SQ. -/
theorem sqOf_noteTurn (n k left m : Nat) (b : Block) :
    sqOf (b.onQ (fun q => if n < 256 then { q with lastAdm := n } else { q with lastIo := n, turnLeft := left - k })) m = sqOf b m := by
  refine sqOf_congr ?_ m
  rw [onQ_q]
  split <;> rfl

/-- Settles O9: the SQ picked has an unread descriptor and a credit (`readable_of_arbitrate`), so between 1 and the least of the bounds are
reserved (`reserveUpTo_spec`), and the read that goes out leaves the queues alone (`q_issueRead`). -/
theorem descriptorReadBounds : Obligations.DescriptorReadBounds := by
  intro s n left harb hleft
  obtain ⟨hunread, -, hcredit⟩ := of_readable (readable_of_arbitrate harb)
  rw [sqOf_yieldTurn] at hunread
  dsimp only
  have hsize : 0 < (sqOf s.blk n).size := Nat.two_pow_pos _
  have hslot := Nat.mod_lt (sqOf s.blk n).head.toNat hsize
  generalize hasked : min (min 8 left) (min (unread (sqOf s.blk n)) ((sqOf s.blk n).size - (sqOf s.blk n).head.toNat % (sqOf s.blk n).size)) = asked
  obtain ⟨hgot, hsq, hwork, hlink⟩ := reserveUpTo_spec n asked (yieldTurn s.blk)
  have hone := one_le_reserveUpTo (k := asked) (by omega) hcredit
  generalize hr : reserveUpTo n asked (yieldTurn s.blk) = r at hgot hsq hwork hlink hone
  have hexec : descriptorFetch s.blk = issueRead (sqOf s.blk n).fn (worldOf r.2 (sqOf s.blk n).fn) (.descs n r.1)
      [((sqOf s.blk n).base + 64 * ((sqOf s.blk n).head.toNat % (sqOf s.blk n).size), 64 * r.1)]
      (yieldTurn ((onSq n (fun q => { q with reading := r.1 }) r.2).onQ (fun q =>
        if n < 256 then { q with lastAdm := n } else { q with lastIo := n, turnLeft := left - r.1 }))) := by
    simp only [descriptorFetch, harb, sqOf_yieldTurn, hasked, hr]
    rfl
  refine ⟨r.1, ⟨descriptorFetch s.blk, s.pending⟩, rfl, hone, by omega, by omega, by omega, by omega, ?_, ?_, ?_, ?_⟩
  · rw [hexec, sqOf_issueRead, sqOf_yieldTurn, sqOf_noteTurn, sqOf_onSq, if_pos rfl, hsq, sqOf_yieldTurn]
  · rw [hexec, sqOf_issueRead, sqOf_yieldTurn, sqOf_noteTurn, sqOf_onSq, if_pos rfl]
  · rw [hexec, sqOf_issueRead, sqOf_yieldTurn, sqOf_noteTurn, sqOf_onSq, if_pos rfl, hsq, sqOf_yieldTurn]
  · have hblk : r.2.work = s.blk.work := hwork.trans (work_yieldTurn s.blk)
    have hworld : worldOf r.2 (sqOf s.blk n).fn = worldOf s.blk (sqOf s.blk n).fn := worldOf_congr (hlink.trans (link_yieldTurn s.blk)) _
    rw [hexec, reads_issueRead, work_yieldTurn, onQ_work, onSq, onQ_work, hblk, hworld]
    rfl

end Sys2Proof.DescriptorReads
end

section
/-! PROOFS. The completion entry of a descriptor (R248 to R255), and its being held while its function is halted (R203). -/

namespace Sys2Proof.Completions

open Sys2Proof Sys2Proof.Machine Sys2Proof.Frames Sys2Proof.UnimplementedRange

@[simp] theorem length_lePut (n v : Nat) : (lePut n v).length = n := by
  induction n generalizing v with
  | zero => rfl
  | succ n ih => rw [lePut, List.length_cons, ih]

theorem length_entryBytes (qid cmd status cflags head detail bytes result : Nat) :
    (entryBytes qid cmd status cflags head detail bytes result).length = 32 := by
  simp [entryBytes]

/-! ### What goes out -/

/-- A message owed goes out behind what went out already, or does not go out. -/
theorem out_msixOwe (fn vec : Nat) (b : Block) : ∃ rest, (msixOwe fn vec b).out = b.out ++ rest := by
  simp only [msixOwe]
  split
  · exact ⟨[], (List.append_nil _).symm⟩
  split
  · exact ⟨[], (List.append_nil _).symm⟩
  · rcases emit_cases fn (.msix fn (msixEntry (fnOf b fn) vec).addr (msixEntry (fnOf b fn) vec).data) b with h | h
    · exact ⟨[_], by rw [msixSend, h]⟩
    · exact ⟨[], by rw [msixSend, h]; exact (List.append_nil _).symm⟩

/-- What MSI-X changes. -/
def msixUnits : Touch := { nothing with link := true, out := true }

@[simp] theorem q_msixOwe (fn vec : Nat) (b : Block) : (msixOwe fn vec b).q = b.q :=
  congrArg (·.q) (hide_msixOwe msixUnits fn vec b (by simp [msixUnits]))

@[simp] theorem q_emit (fn : Nat) (o : Out) (b : Block) : (emit fn o b).q = b.q :=
  congrArg (·.q) (hide_emit msixUnits fn o b (by simp [msixUnits]))

theorem out_emit_of_carried {b : Block} {fn : Nat} (hphase : b.link.phase = .active) (hfn : fnHalted b fn = false) (o : Out) :
    (emit fn o b).out = b.out ++ [o] := by
  rw [emit, if_pos ⟨hphase, .inr hfn⟩]

theorem cqOf_congr {b c : Block} (h : b.q.cqs = c.q.cqs) (n : Nat) : cqOf b n = cqOf c n := by rw [cqOf, cqOf, h]

/-! ### The entry -/

section

variable (dqn cmd status cflags detail bytes result : Nat) (quiet : Bool) (b : Block)

/-- The entry that comes next in the CQ of an SQ. -/
def nextEntry : Bytes :=
  let q := sqOf b dqn
  entryBytes q.qid cmd status (cflags + phaseAt (cqOf b q.cq).written (cqOf b q.cq).sizeLog2) q.head.toNat detail bytes result

theorem written_writeEntry :
    (cqOf (writeEntry dqn cmd status cflags detail bytes result quiet b) (sqOf b dqn).cq).written = (cqOf b (sqOf b dqn).cq).written + 1 := by
  have hput (c : Block) (hc : c.q = b.q) (f : Cq → Cq) (hf : ∀ x, (f x).written = x.written + 1) :
      (cqOf (onCq (sqOf b dqn).cq f c) (sqOf b dqn).cq).written = (cqOf b (sqOf b dqn).cq).written + 1 := by
    rw [cqOf_onCq, if_pos rfl, hf, cqOf_congr (congrArg (·.cqs) hc)]
  simp only [writeEntry]
  split
  · rw [cqOf_congr (congrArg (·.cqs) (q_msixOwe _ _ _))]
    exact hput _ (q_emit _ _ _) _ fun _ => rfl
  · exact hput _ (q_emit _ _ _) _ fun _ => rfl

theorem out_writeEntry (hphase : b.link.phase = .active) (hfn : fnHalted b (cqOf b (sqOf b dqn).cq).fn = false) :
    let c := cqOf b (sqOf b dqn).cq
    ∃ rest, (writeEntry dqn cmd status cflags detail bytes result quiet b).out = b.out ++
      .entryWrite c.fn (worldOf b c.fn) (c.base + 32 * (c.written.toNat % c.size)) (nextEntry dqn cmd status cflags detail bytes result b) :: rest := by
  intro c
  have hout := out_emit_of_carried hphase hfn (.entryWrite c.fn (worldOf b c.fn) (c.base + 32 * (c.written.toNat % c.size))
    (nextEntry dqn cmd status cflags detail bytes result b))
  simp only [writeEntry]
  split
  · obtain ⟨rest, hrest⟩ := out_msixOwe c.fn c.vector (onCq (sqOf b dqn).cq (fun c => { c with
      written := c.written + 1, owners := c.owners ++ [some dqn] }) (emit c.fn (.entryWrite c.fn (worldOf b c.fn)
        (c.base + 32 * (c.written.toNat % c.size)) (nextEntry dqn cmd status cflags detail bytes result b)) b))
    refine ⟨rest, hrest.trans ?_⟩
    rw [onCq, onQ_out, hout, List.append_assoc]
    rfl
  · exact ⟨[], hout⟩

end
/-! ### The end of a descriptor -/

/-- Dropping a descriptor and its reads touches the work alone. -/
theorem q_removeJob (id : Nat) (b : Block) : (removeJob id b).q = b.q := rfl
theorem out_removeJob (id : Nat) (b : Block) : (removeJob id b).out = b.out := rfl

section

variable {b : Block} {j : Job} {v : Verdict} (hj : jobOf b j.id = some j) (hsession : isSession (dOp j.desc) = false)
  (hzero : zeroing v.status = false) (hcheck : b.link.writeCheck = false) (hend : ended j.stage = false)

include hj hzero hcheck hend in
/-- With WRITE_CHECK off and nothing to zero, a descriptor ends at once. -/
theorem concludeCore_eq_finishEntry : concludeCore j.id v b = finishEntry j v false b := by
  simp [concludeCore, hj, hend, hzero, hcheck]

theorem noteStatus_eq_self (hblob : v.status ≠ stBlobIntegrity) (b : Block) (hsession : isSession (dOp j.desc) = false) : noteStatus j v b = b := by
  simp [noteStatus, hblob, hsession]

include hzero in
theorem bytesDone_eq_bytes (hpast : v.past = none) : bytesDone v = v.bytes := by
  simp [bytesDone, hpast, hzero]

theorem cflagsOf_eq (hpast : v.past = none) : cflagsOf j v false = flag v.prov 1 + flag j.loaded 3 + flag j.resumed 4 := by
  simp [cflagsOf, hpast, flag]

end

/-- Settles O14: the descriptor ends at once (`concludeCore_eq_finishEntry`); its entry is written (`out_writeEntry`, `written_writeEntry`) or, while its
function is halted, held. -/
theorem completionEntryWritten : Obligations.CompletionEntryWritten := by
  intro b j v hj hghost hsession hzero hcheck hpast hblob hend
  dsimp only
  have hfinish := concludeCore_eq_finishEntry hj hzero hcheck hend
  refine ⟨length_entryBytes _ _ _ _ _ _ _ _, fun hruns => ?_, fun hhalted => ?_⟩
  · have hconclude : concludeCore j.id v b = removeJob j.id (writeEntry j.dqn (dCmd j.desc) v.status
        (flag v.prov 1 + flag j.loaded 3 + flag j.resumed 4) v.detail v.bytes v.result (dFlag j.desc 7) b) := by
      rw [hfinish, finishEntry, if_neg hghost, hruns, if_neg Bool.false_ne_true, entryOut, hsession, if_neg Bool.false_ne_true,
        noteStatus_eq_self hblob _ hsession, bytesDone_eq_bytes hzero hpast, cflagsOf_eq hpast]
    rw [hconclude]
    refine ⟨written_writeEntry _ _ _ _ _ _ _ _ b, jobOf_removeJob _ _, fun hphase hfn => ?_⟩
    exact out_writeEntry _ _ _ _ _ _ _ _ b hphase hfn
  · rw [hfinish, finishEntry, if_neg hghost, if_pos hhalted]

end Sys2Proof.Completions
end

section
/-! PROOFS. Released counts (R216), and admin commands (R223, R227): what a DISABLE_SQ takes from the turn of its SQ (R220). -/

namespace Sys2Proof.QueueCommands

open Sys2Proof Sys2Proof.Machine Sys2Proof.Claims Sys2Proof.Steps

/-! ### Released counts -/

/-- A value written to Q_CQ_HEAD through a page that reaches an ACTIVE CQ is judged there. -/
theorem exec_cqHeadWrite_of_pageReach {s : State} {fn page n : Nat} (v : Word) (h : PageReach s.blk fn page n) (hactive : (cqOf s.blk n).active = true) :
    exec (.cqHeadWrite fn page v) s = .next { s with blk := settleAll (releaseTo n v s.blk) } := by
  obtain ⟨henabled, hd0, hrun, hpage⟩ := h
  show execCqHeadWrite fn page v s = _
  simp [execCqHeadWrite, cqHeadWrite, barWrite, henabled, hd0, hrun, hpage, hactive]

/-- Settles O8: the two branches of `releaseTo`. -/
theorem completionHeadJudged : Obligations.CompletionHeadJudged := by
  intro s fn page n v hreach hactive
  rw [exec_cqHeadWrite_of_pageReach v hreach hactive]
  exact ⟨fun hk => next_congr (congrArg settleAll (if_pos hk)), fun hk => next_congr (congrArg settleAll (if_neg (Nat.not_le.mpr hk)))⟩

/-! ### DISABLE_SQ of an SQ in the middle of its turn -/

/-- DISABLE_SQ of SQ 256, read from PF0's admin SQ. -/
def disableDesc : Bytes := patch (patch (zeros 64) 0 (lePut 1 0x82)) 4 (lePut 2 256)

def disableJob : Job := Job.fresh 7 0 0 0 false disableDesc

/-- SQ 256 in the middle of a turn, with 4 descriptors of it to go, and the descriptor that disables it. -/
def disabling : Block := Doorbells.midTurn.onWork (fun w => { w with jobs := [disableJob] })

theorem disableJob_ready : AdminReady disabling disableJob 0x82 := by
  unfold AdminReady Waiting
  decide +kernel

/-- O10's wording of the DISABLE_SQ: the turn of R220 stays where it was. -/
def disabledKeepingTurn (b : Block) (j : Job) : Block :=
  setStage j.id (.disable (aDqn (begun b j) j)) (onSq (aDqn (begun b j) j) (fun q => { q with state := .draining }) (begun b j))

theorem turnLeft_disableSqCmd : (disableSqCmd disableJob.id disabling).q.turnLeft = 0 := by decide +kernel

theorem turnLeft_disabledKeepingTurn : (settleAll (disabledKeepingTurn disabling disableJob)).q.turnLeft = 4 := by decide +kernel

/-- Refutes O10: a DISABLE_SQ also takes from its SQ, which is ACTIVE no longer, what is left of its turn (R220), and O10's third admin clause leaves
the turn as it was. -/
theorem not_adminQueueCommands : ¬ Obligations.AdminQueueCommands := by
  rintro ⟨-, hact⟩
  obtain ⟨-, -, hdisable, -⟩ := hact ⟨disabling, []⟩ disableJob
  have hblk : disableSqCmd disableJob.id disabling = settleAll (disabledKeepingTurn disabling disableJob) :=
    blk_eq_of_next_eq (s := ⟨disabling, []⟩) (hdisable disableJob_ready)
  have hturn : 0 = 4 := by rw [← turnLeft_disableSqCmd, hblk, turnLeft_disabledKeepingTurn]
  exact absurd hturn (by decide)

end Sys2Proof.QueueCommands
end

section
/-! PROOFS. Descriptors that wait: what starts them, how their contexts are found, and the opcodes that need no unit (R239, R290, R297, R331). -/

namespace Sys2Proof.Descriptors

open Sys2Proof Sys2Proof.Machine Sys2Proof.Claims Sys2Proof.Steps

/-! ### A descriptor starts -/

/-- The command of an opcode on a descriptor that checks 1 to 4 accept goes on from `begun`. -/
theorem startOp_of_accepted {b : Block} {j : Job} {op : Nat} (go : Job → Block → Block) (h : Accepted b j op) :
    startOp op j.id go b = settleAll (go j (begun b j)) := by
  obtain ⟨⟨hj, hs, ho, hc⟩, hd, hg, hk⟩ := h
  exact startOp_go go hj hs ho hd hg hc hk

theorem dOp_of_accepted {b : Block} {j : Job} {op : Nat} (h : Accepted b j op) : dOp j.desc = op := h.1.2.2.1

theorem jobOf_begun {b : Block} {j : Job} (h : jobOf b j.id = some j) : jobOf (begun b j) j.id = some { j with started := true } := by
  simp [begun, jobOf_onJob, h]

/-! ### Its context (R290, R297, R299) -/

section

variable {b : Block} {j : Job} {slot op : Nat} (ha : Accepted b j op) (hf : FindsContext b j slot)
include ha hf

/-- What resolution reads of a descriptor that finds its context. -/
theorem context_facts : jobOf (begun b j) j.id = some { j with started := true } ∧ dOp j.desc = op ∧
    resolve (begun b j) j.desc = .hit slot ∧ slotSound (begun b j) slot = true ∧ j.dqn ≠ ghostQueue ∧
    slotAt (begun b j) slot = slotAt b slot ∧
    useChecks (touch slot (begun b j)) j.fn j.world j.desc (slotAt b slot).header = none := by
  obtain ⟨⟨hj, -, ho, -⟩, -, hg, -⟩ := ha
  obtain ⟨hr, hs, hu⟩ := hf
  exact ⟨jobOf_begun hj, ho, hr, hs, hg, rfl, hu⟩

/-- A descriptor of no management opcode enters the list of its unit. -/
theorem startResolve_enqueues (hop : op ≠ 0x30 ∧ op ≠ 0x31 ∧ op ≠ 0x32 ∧ op ≠ 0x33) :
    settleAll (startResolve j.id (begun b j)) = queued b j slot := by
  simp [startResolve, resolved, queued, context_facts ha hf, hop]

theorem startResolve_ctxLoad (ho : op = 0x30) : startResolve j.id (begun b j) =
    concludeCore j.id (success 0 (handleOf slot (slotAt b slot).gen)) (touch slot (begun b j)) := by
  simp [startResolve, resolved, context_facts ha hf, ho]

theorem startResolve_ctxEvict (ho : op = 0x31) : startResolve j.id (begun b j) =
    if inUse (touch slot (begun b j)) slot then setStage j.id (.evictWait slot) (eraseCtx slot (touch slot (begun b j)))
    else concludeCore j.id (success 0 0) (eraseCtx slot (touch slot (begun b j))) := by
  simp [startResolve, resolved, context_facts ha hf, ho]

theorem startResolve_ctxPin (ho : op = 0x32) : startResolve j.id (begun b j) =
    concludeCore j.id (success 0 (handleOf slot (slotAt b slot).gen)) (pinSlot slot true (touch slot (begun b j))) := by
  simp [startResolve, resolved, context_facts ha hf, ho]

theorem startResolve_ctxUnpin (ho : op = 0x33) : startResolve j.id (begun b j) =
    concludeCore j.id (success 0 0) (pinSlot slot false (touch slot (begun b j))) := by
  simp [startResolve, resolved, context_facts ha hf, ho]

end

/-! ### Check 5 of a session descriptor (R331) -/

section

variable {b : Block} {j : Job} {op : Nat} (ha : Accepted b j op)
include ha

/-- The command of a session opcode whose message is not just being opened goes on to check 5. -/
theorem sessionCmd_of_accepted (hm : ∀ m, msgOf b j.dqn (dMsg j.desc) = some m → dMsg j.desc ≠ 0 → m.state ≠ .opening) :
    sessionCmd op j.id b = settleAll (sessionCheck j (begun b j)) := by
  unfold sessionCmd
  rw [startOp_of_accepted _ ha]
  have hmsg : msgOf (begun b j) j.dqn (dMsg j.desc) = msgOf b j.dqn (dMsg j.desc) := rfl
  cases h : msgOf b j.dqn (dMsg j.desc) with
  | none => simp only [hmsg, h]
  | some m => simp only [hmsg, h]; rw [if_neg (fun hc => hm m h hc.1 hc.2.1)]

theorem sessionCmd_single {slot : Nat} (hf : FindsContext b j slot) (h0 : dMsg j.desc = 0)
    (hop : op ≠ 0x30 ∧ op ≠ 0x31 ∧ op ≠ 0x32 ∧ op ≠ 0x33) : sessionCmd op j.id b = queued b j slot := by
  rw [sessionCmd_of_accepted ha (fun _ _ h => absurd h0 h)]
  simp only [sessionCheck, h0, if_true]
  exact startResolve_enqueues ha hf hop

variable (h0 : dMsg j.desc ≠ 0)
include h0

theorem sessionCmd_opens (hn : msgOf b j.dqn (dMsg j.desc) = none) (hd : dFirst j.desc = true) :
    sessionCmd op j.id b = settleAll (startResolve j.id ((dropTomb j.dqn (dMsg j.desc) (begun b j)).onSce (fun x => { x with
      msgs := x.msgs ++ [Msg.opened (dropTomb j.dqn (dMsg j.desc) (begun b j)) { j with started := true }] }))) := by
  rw [sessionCmd_of_accepted ha (fun m h => by simp [hn] at h)]
  have hmsg : msgOf (begun b j) j.dqn (dMsg j.desc) = none := hn
  simp only [sessionCheck, h0, if_false, hd, if_true, hmsg]
  rfl

variable {m : Msg} (hm : msgOf b j.dqn (dMsg j.desc) = some m) (ho : m.state ≠ .opening)
include hm ho

theorem sessionCmd_first_again (hd : dFirst j.desc = true) :
    sessionCmd op j.id b = settleAll (concludeCore j.id (verdict stMessageSequence 2 0 0) (begun b j)) := by
  rw [sessionCmd_of_accepted ha (fun k h _ => by rw [hm] at h; cases h; exact ho)]
  have hmsg : msgOf (begun b j) j.dqn (dMsg j.desc) = some m := hm
  simp only [sessionCheck, h0, if_false, hd, if_true, hmsg, Option.isSome]

theorem sessionCmd_later (hd : dFirst j.desc = false) :
    sessionCmd op j.id b = settleAll
      (if m.opcode = op ∧ m.handle = dHandle j.desc ∧ m.param = dParam j.desc then enqueue j.id (begun b j)
       else concludeCore j.id (verdict stMessageSequence 3 0 0) (begun b j)) := by
  rw [sessionCmd_of_accepted ha (fun k h _ => by rw [hm] at h; cases h; exact ho)]
  have hmsg : msgOf (begun b j) j.dqn (dMsg j.desc) = some m := hm
  simp only [sessionCheck, h0, if_false, hd, hmsg, dOp_of_accepted ha, ← not_and_or, ite_not, Bool.false_eq_true]

end

/-- The command of a digest opcode: by its context, or straight to the digest list. -/
theorem digestCmd_viaVault {b : Block} {j : Job} {slot op : Nat} (ha : Accepted b j op) (hf : FindsContext b j slot)
    (hv : viaVault j.desc = true) (hop : op ≠ 0x30 ∧ op ≠ 0x31 ∧ op ≠ 0x32 ∧ op ≠ 0x33) : digestCmd op j.id b = queued b j slot := by
  unfold digestCmd
  rw [startOp_of_accepted _ ha]
  simp only [hv, if_true]
  exact startResolve_enqueues ha hf hop

theorem digestCmd_ownKey {b : Block} {j : Job} {op : Nat} (ha : Accepted b j op) (hv : viaVault j.desc = false) :
    digestCmd op j.id b = settleAll (enqueue j.id (begun b j)) := by
  unfold digestCmd
  rw [startOp_of_accepted _ ha]
  simp [hv]

/-! ### The statements -/

theorem descriptorEntersItsUnit : Claims.DescriptorEntersItsUnit := by
  refine ⟨fun p hp s j slot ha hf => ?_, fun p hp s j slot ha h0 hf => ?_, fun p hp s j ha => ⟨fun slot hv hf => ?_, fun hv => ?_⟩⟩
  · have go : ∀ op, op ≠ 0x30 ∧ op ≠ 0x31 ∧ op ≠ 0x32 ∧ op ≠ 0x33 → Accepted s.blk j op →
        vaultCmd op j.id s.blk = queued s.blk j slot := fun op hop ha =>
      (startOp_of_accepted _ ha).trans (startResolve_enqueues ha hf hop)
    fin_cases hp
    · exact next_congr (go 0x01 (by decide) ha)
    · exact next_congr (go 0x02 (by decide) ha)
  · fin_cases hp <;> exact next_congr (sessionCmd_single ha hf h0 (by decide))
  · fin_cases hp <;> exact next_congr (digestCmd_viaVault ha hf hv (by decide))
  · fin_cases hp <;> exact next_congr (digestCmd_ownKey ha hv)

theorem messagePartsInSequence : Claims.MessagePartsInSequence := by
  intro p hp s j ha h0 b mid
  refine ⟨fun hn hd => ?_, fun m hm ho hd => ?_, fun m hm ho hd => ?_⟩
  · fin_cases hp <;> exact next_congr (sessionCmd_opens ha h0 hn hd)
  · fin_cases hp <;> exact next_congr (sessionCmd_first_again ha h0 hm ho hd)
  · fin_cases hp <;> exact next_congr (sessionCmd_later ha h0 hm ho hd)

/-- Settles O11: an accepted descriptor that finds its context is enqueued; check 5 by whether its message is open. -/
theorem descriptorsEnterTheirUnits : Obligations.DescriptorsEnterTheirUnits := ⟨descriptorEntersItsUnit, messagePartsInSequence⟩

theorem contextManagement : Claims.ContextManagement := by
  intro s j slot hf b h
  refine ⟨fun ha => ?_, fun ha => ?_, fun ha => ?_, fun ha => ?_⟩
  · exact next_congr ((startOp_of_accepted _ ha).trans (congrArg settleAll (startResolve_ctxLoad ha hf rfl)))
  · exact next_congr ((startOp_of_accepted _ ha).trans (congrArg settleAll (startResolve_ctxEvict ha hf rfl)))
  · exact next_congr ((startOp_of_accepted _ ha).trans (congrArg settleAll (startResolve_ctxPin ha hf rfl)))
  · exact next_congr ((startOp_of_accepted _ ha).trans (congrArg settleAll (startResolve_ctxUnpin ha hf rfl)))

theorem loadsAndLastUses : Claims.LoadsAndLastUses := by
  refine ⟨fun s j slot hj hs hv => ?_, fun s slot hs hu => ?_⟩
  · refine next_congr ?_
    show unwrapEvent j.id s.blk = _
    simp only [unwrapEvent, hj, hs, unwrapDone, hv]
    cases openBlob s.blk j.blob <;> rfl
  · refine next_congr ?_
    show settleAll (useEnded slot s.blk) = _
    simp only [useEnded, hu, hs, and_self, if_true]

/-- Settles O12: what resolution does for each management opcode, and the two events of the vault. -/
theorem contextsManaged : Obligations.ContextsManaged := ⟨contextManagement, loadsAndLastUses⟩

/-! ### Two descriptors of one id -/

/-- An RNG_FILL of 64 bytes with an output list at 0x20000. -/
def listFill : Job :=
  Job.fresh 7 256 0 256 false (patch (patch (patch (patch (zeros 64) 0 (lePut 1 0x50)) 1 (lePut 1 0x02)) 0x18 (lePut 8 0x20000)) 0x20 (lePut 8 64))

/-- An RNG_FILL of 32 bytes to 0x30000 under the same id. -/
def otherFill : Job := Job.fresh 7 256 0 256 false (patch (patch (patch (zeros 64) 0 (lePut 1 0x50)) 0x18 (lePut 8 0x30000)) 0x20 (lePut 8 32))

/-- A block in which both are in flight. -/
def twinFills : Block := Doorbells.midTurn.onWork (fun w => { w with jobs := [listFill, otherFill] })

theorem listFill_accepted : Accepted twinFills listFill 0x50 := by
  unfold Accepted Waiting
  decide +kernel

/-- O13's wording of the start of an RNG_FILL: every descriptor under its id is given its own output. -/
def fillStarted (b : Block) (j : Job) : Block :=
  nextRead j.id (onJob (begun b j) j.id (fun k =>
    { k with dst := if fragDst j.desc then Walk.start (dDst j.desc) else Walk.plain (dDst j.desc) (outLen j.desc), outLen := outLen j.desc }))

theorem outLen_rngFill : (rngFill listFill.id twinFills).work.jobs.map (·.outLen) = [64, 32] := by decide +kernel

theorem outLen_fillStarted : (settleAll (fillStarted twinFills listFill)).work.jobs.map (·.outLen) = [64, 64] := by decide +kernel

/-- Refutes O13: RNG_FILL gives each descriptor under its id the output that its own fields name, where O13's third clause gives all of them that of
one; a state with two descriptors under one id tells them apart. -/
theorem not_plainOpcodes : ¬ Obligations.PlainOpcodes := by
  rintro ⟨-, -, hfill⟩
  have hblk : rngFill listFill.id twinFills = settleAll (fillStarted twinFills listFill) :=
    blk_eq_of_next_eq (s := ⟨twinFills, []⟩) (hfill ⟨twinFills, []⟩ listFill listFill_accepted)
  have houtputs : [64, 32] = [64, 64] := by rw [← outLen_rngFill, hblk, outLen_fillStarted]
  exact absurd houtputs (by decide)

end Sys2Proof.Descriptors
end

section
/-! PROOFS. Lanes, session cores, their fences and timers (R311 to R349). -/

namespace Sys2Proof.Engines

open Sys2Proof Sys2Proof.Machine Sys2Proof.Claims Sys2Proof.Frames Sys2Proof.Steps Sys2Proof.DescriptorReads Sys2Proof.Completions Sys2Proof.UnimplementedRange

/-! ### Lanes -/

theorem laneAssign_idle {b : Block} {j : Job} {rest : List Nat} {c : Nat × Nat} {n : Nat} {key : Bytes} (h : Claims.LaneTakes b j rest c n key)
    (hn : (laneAt b n).running = none) :
    laneAssign b = settleAll (beginOnUnit j.id (onLane n (fun l => { l with running := some j.id, state := .busy })
      (loadBank n { slot := c.1, gen := c.2, key := key } (b.onSte (fun x => { x with pending := rest }))))) := by
  obtain ⟨hp, hj, hc, hl, hr, hk⟩ := h
  have hlane : laneAt (b.onSte (fun x => { x with pending := rest })) n = laneAt b n := rfl
  have hjob : jobOf (b.onSte (fun x => { x with pending := rest })) j.id = some j := hj
  have hgood : recheck (b.onSte (fun x => { x with pending := rest })) j = .good key := hr
  simp [laneAssign, hp, hj, hc, hl, hlane, hn, laneTake, hjob, hgood, laneRun, hk]

theorem laneAssign_running {b : Block} {j : Job} {rest : List Nat} {c : Nat × Nat} {n : Nat} {key : Bytes}
    (h : Claims.LaneTakes b j rest c n key) (hn : (laneAt b n).running ≠ none) :
    laneAssign b = settleAll (onLane n (fun l => { l with assigned := some j.id })
      (loadBank n { slot := c.1, gen := c.2, key := key } (b.onSte (fun x => { x with pending := rest })))) := by
  obtain ⟨hp, hj, hc, hl, hr, hk⟩ := h
  have hlane : laneAt (b.onSte (fun x => { x with pending := rest })) n = laneAt b n := rfl
  have hgood : recheck (b.onSte (fun x => { x with pending := rest })) j = .good key := hr
  have hsome : (laneAt b n).running.isSome = true := Option.isSome_iff_ne_none.mpr hn
  simp [laneAssign, hp, hj, hc, hl, hlane, hsome, hgood, hk]

theorem lanesRunXts : Claims.LanesRunXts := by
  refine ⟨fun s j rest c n key h => ⟨fun hn => next_congr (laneAssign_idle h hn), fun hn => next_congr (laneAssign_running h hn)⟩,
    fun s n j hl hj hs => next_congr ?_⟩
  show laneEnd n s.blk = _
  simp only [laneEnd, hl, hj, hs, if_true]

/-- The lane of a number after a change of it. -/
theorem laneAt_onLane {b : Block} {n : Nat} {l : Lane} (h : b.ste.lanes[n]? = some l) (f : Lane → Lane) : laneAt (onLane n f b) n = f l := by
  simp [laneAt, onLane, h]

/-- The core of a number after a change of it. -/
theorem core_onCore {b : Block} {n : Nat} {c : CoreU} (h : b.sce.cores[n]? = some c) (f : CoreU → CoreU) :
    (onCore n f b).sce.cores[n]? = some (f c) := by
  simp [onCore, h]

theorem keyExpiryAndFences : Claims.KeyExpiryAndFences := by
  refine ⟨fun s n l hl => ⟨fun ha => ?_, fun hr => ?_⟩, fun s n c hc hj hm hb => ?_, ?_, ?_⟩
  · refine ⟨_, rfl, (laneAt_onLane hl _).trans ?_, rfl⟩
    simp [ha]
  · refine ⟨_, rfl, (laneAt_onLane hl _).trans ?_, rfl⟩
    simp [hr]
  · refine ⟨_, rfl, (core_onCore hc _).trans ?_, rfl⟩
    simp [hj, hm, hb]
  · intro s v n hn hreach
    obtain ⟨he, hd, hf, hv⟩ := hreach
    refine next_congr ?_
    show laneFence v s.blk = _
    have hresv : (if lanesOf s.blk.run.variant = 0 then 0 else 0xFFFFFFFF - (2 ^ lanesOf s.blk.run.variant - 1)) =
        0xFFFFFFFF - (2 ^ n - 1) := if_neg hn
    unfold laneFence
    simp only [hresv]
    rw [pf0Write_go _ he hd hf hv, if_neg hn]
  · intro s v k n hn hk hreach
    obtain ⟨he, hd, hf, hv⟩ := hreach
    refine next_congr ?_
    show coreFence k v s.blk = _
    simp only [coreFence, hn, if_false, Nat.not_le.mpr hk]
    rw [pf0Write_go _ he hd hf hv]
    simp only [Block.onSce, n]

/-- Settles O15: the branch of `laneAssign` and of `laneEnd` that each hypothesis picks; a changed lane or core read back; a register write that reaches. -/
theorem lanesAndKeyBanks : Obligations.LanesAndKeyBanks := ⟨lanesRunXts, keyExpiryAndFences⟩

/-! ### Parts of messages -/

theorem sessionPartsRun : Claims.SessionPartsRun := by
  refine ⟨fun s b' hb => next_congr ?_, fun b j c n key hj hdue hmid hc hn hr hg => ?_, fun s n j hc hj hs => next_congr ?_⟩
  · show sessionDispatch s.blk = _
    simp only [sessionDispatch, hb]
  · simp [tryDispatch, hj, hdue, hmid, hc, hn, hr, partStartOn, hg]
  · show partDone n s.blk = _
    simp only [partDone, hc, hj, hs, if_true]

/-! ### Parking and abandonment -/

theorem of_msgOf {b : Block} {d i : Nat} {m : Msg} (h : msgOf b d i = some m) : m.dqn = d ∧ m.msgId = i := by
  simpa using List.find?_some h

/-- The open message of an SQ and MSG_ID after a change of it that keeps both. -/
theorem msgOf_onMsg {b : Block} {d i : Nat} {m : Msg} (h : msgOf b d i = some m) (f : Msg → Msg)
    (hf : ∀ x, (f x).dqn = x.dqn ∧ (f x).msgId = x.msgId) : msgOf (onMsg d i f b) d i = some (f m) := by
  have hmap (l : List Msg) : (l.map (fun x => if x.dqn = d ∧ x.msgId = i then f x else x)).find? (fun x => x.dqn == d && x.msgId == i) =
      (l.find? (fun x => x.dqn == d && x.msgId == i)).map f := by
    induction l with
    | nil => rfl
    | cons x l ih =>
      by_cases hx : x.dqn = d ∧ x.msgId = i
      · simp [hx, hf]
      · have hne : (x.dqn == d && x.msgId == i) = false := by simpa using hx
        simp [hx, hne, ih]
  have hfound : msgOf (onMsg d i f b) d i = (msgOf b d i).map f := hmap b.sce.msgs
  rw [hfound, h, Option.map_some]

/-- Parking a BOUND message while a slot is free. -/
theorem parkMsg_of_bound {b : Block} {m : Msg} {c : Nat} (hm : msgOf b m.dqn m.msgId = some m) (hs : m.state = .bound c)
    (hp : parkedCount b < parkedOf b.run.variant) :
    parkMsg m.dqn m.msgId b = (onCore c (fun u => { coreFree u with key := none }) (onMsg m.dqn m.msgId (fun x => { x with
      state := .parked, wantPark := false, cipher := CipherSt.none
      park := some (parkSeal b (freeParkSlot b) ((b.sce.parks + 1) % 65536) m) }) b)).onSce (fun s => { s with parks := sat32 (s.parks + 1) }) := by
  simp only [parkMsg, hm, hs, hp, if_true]

theorem parked_after_parkMsg {b : Block} {m : Msg} {c : Nat} (hm : msgOf b m.dqn m.msgId = some m) (hs : m.state = .bound c)
    (hp : parkedCount b < parkedOf b.run.variant) :
    let t := parkMsg m.dqn m.msgId b
    msgOf t m.dqn m.msgId = some { m with
      state := .parked, wantPark := false, cipher := CipherSt.none
      park := some (parkSeal b (freeParkSlot b) ((b.sce.parks + 1) % 65536) m) } ∧ t.sce.parks = sat32 (b.sce.parks + 1) ∧
      ∀ u, t.sce.cores[c]? = some u → u.key = none ∧ u.msg = none ∧ u.job = none := by
  dsimp only
  rw [parkMsg_of_bound hm hs hp]
  refine ⟨msgOf_onMsg hm _ (fun _ => ⟨rfl, rfl⟩), rfl, fun u hu => ?_⟩
  obtain ⟨v, -, rfl⟩ := by simpa [onCore, Block.onSce, List.getElem?_mapIdx] using hu
  exact ⟨rfl, rfl, rfl⟩

theorem msgOf_closeMsg (d i : Nat) (b : Block) : msgOf (closeMsg d i b) d i = none := by
  simp only [msgOf, closeMsg, Block.onSce, List.find?_eq_none, List.mem_filter]
  rintro x ⟨-, hx⟩ h
  simp [h] at hx

/-- Closing a message keeps the counts and the tombstones. -/
theorem sce_closeMsg (d i : Nat) (b : Block) : (closeMsg d i b).sce.abandoned = b.sce.abandoned ∧ (closeMsg d i b).sce.tombs = b.sce.tombs := by
  simp only [closeMsg]
  split
  · split <;> exact ⟨rfl, rfl⟩
  · exact ⟨rfl, rfl⟩

/-- What a report of an event changes. -/
def eventUnits : Touch := { nothing with link := true, key := true, bbram := true, evr := true, dev := true, pins := true, out := true }

@[simp] theorem sce_event (code v : Nat) (b : Block) : (event code v b).sce = b.sce :=
  congrArg (·.sce) (hide_event eventUnits code v b (by simp [eventUnits]))

@[simp] theorem sce_emitZeros (fn : Nat) (world : Bool) (rs : List (Nat × Nat)) (b : Block) : (emitZeros fn world rs b).sce = b.sce :=
  congrArg (·.sce) (hide_emitZeros msixUnits fn world rs b (by simp [msixUnits]))

@[simp] theorem sce_issueRead (fn : Nat) (world : Bool) (kind : ReadKind) (segs : List (Nat × Nat)) (b : Block) :
    (issueRead fn world kind segs b).sce = b.sce :=
  congrArg (·.sce) (hide_pumpReads requestUnits _ (by simp [requestUnits]))

theorem mem_addTomb (t : Tomb) (ts : List Tomb) : t ∈ addTomb t ts := by
  simp only [addTomb, List.length_append, List.length_singleton]
  rw [List.drop_append_of_le_length (by omega)]
  simp

theorem writeCheck_emit (fn : Nat) (o : Out) (b : Block) : (emit fn o b).link.writeCheck = b.link.writeCheck := by
  rcases emit_cases fn o b with h | h <;> rw [h]
  rfl

theorem writeCheck_emitZeros (fn : Nat) (world : Bool) (rs : List (Nat × Nat)) (b : Block) :
    (emitZeros fn world rs b).link.writeCheck = b.link.writeCheck :=
  List.foldlRecOn (motive := fun c => c.link.writeCheck = b.link.writeCheck) _ _ rfl (fun c hc _ _ => (writeCheck_emit _ _ c).trans hc)

@[simp] theorem link_sendPiece (b : Block) (p : ReadPiece) : (sendPiece b p).link = b.link := by
  unfold sendPiece
  dsimp only
  split
  · split <;> rfl
  · rfl

theorem link_foldl_sendPiece (ps : List ReadPiece) (b : Block) : (ps.foldl sendPiece b).link = b.link := by
  induction ps generalizing b with
  | nil => rfl
  | cons p ps ih => rw [List.foldl_cons, ih, link_sendPiece]

@[simp] theorem link_issueRead (fn : Nat) (world : Bool) (kind : ReadKind) (segs : List (Nat × Nat)) (b : Block) :
    (issueRead fn world kind segs b).link = b.link := link_foldl_sendPiece _ _

@[simp] theorem link_closeMsg (d i : Nat) (b : Block) : (closeMsg d i b).link = b.link := by
  simp only [closeMsg]
  split
  · split <;> rfl
  · rfl

theorem msgOf_congr {b c : Block} (h : b.sce = c.sce) (d i : Nat) : msgOf b d i = msgOf c d i := by rw [msgOf, msgOf, h]

/-- Abandoning a message closes it in a block `w` that the zeroing has left with the same session engines, then counts it and leaves its tombstone. -/
theorem abandonMsg_eq {b : Block} {m : Msg} (hm : msgOf b m.dqn m.msgId = some m) :
    ∃ w, w.sce = b.sce ∧ w.link.writeCheck = b.link.writeCheck ∧
      abandonMsg m.dqn m.msgId b = event 0x201 (rangesLen (partsWritten m.parts)) ((closeMsg m.dqn m.msgId w).onSce (fun s => { s with
        tombs := addTomb { dqn := m.dqn, msgId := m.msgId, zeroed := rangesLen (partsWritten m.parts)
                           ok := decide (0 < rangesLen (partsWritten m.parts)) && !w.link.writeCheck } s.tombs
        abandoned := sat32 (s.abandoned + 1) })) := by
  have hsce := sce_emitZeros m.fn m.world (partsWritten m.parts) b
  have hlink := writeCheck_emitZeros m.fn m.world (partsWritten m.parts) b
  simp only [abandonMsg, hm]
  generalize emitZeros m.fn m.world (partsWritten m.parts) b = z at hsce hlink ⊢
  generalize hw : (if z.link.writeCheck = true ∧ 0 < rangesLen (partsWritten m.parts) then
      issueRead m.fn m.world (ReadKind.tombCheck m.dqn m.msgId) [((lastByte (partsWritten m.parts)).getD 0, 1)]
        (dropReads (fun r => r.kind == ReadKind.tombCheck m.dqn m.msgId) z)
    else z) = w
  have hwz : w.sce = z.sce ∧ w.link = z.link := by
    rw [← hw]
    split
    · exact ⟨sce_issueRead _ _ _ _ _, link_issueRead _ _ _ _ _⟩
    · exact ⟨rfl, rfl⟩
  refine ⟨w, hwz.1.trans hsce, (congrArg (·.writeCheck) hwz.2).trans hlink, ?_⟩
  rw [link_closeMsg]

/-- The session engines once a message is abandoned. -/
theorem sce_abandonMsg {b : Block} {m : Msg} (hm : msgOf b m.dqn m.msgId = some m) :
    ∃ w, w.sce = b.sce ∧ (abandonMsg m.dqn m.msgId b).sce = { (closeMsg m.dqn m.msgId w).sce with
      tombs := addTomb { dqn := m.dqn, msgId := m.msgId, zeroed := rangesLen (partsWritten m.parts)
                         ok := decide (0 < rangesLen (partsWritten m.parts)) && !b.link.writeCheck } (closeMsg m.dqn m.msgId w).sce.tombs
      abandoned := sat32 ((closeMsg m.dqn m.msgId w).sce.abandoned + 1) } := by
  obtain ⟨w, hsce, hlink, hw⟩ := abandonMsg_eq hm
  refine ⟨w, hsce, ?_⟩
  rw [hw, sce_event, hlink]
  rfl

theorem abandoned_after_abandonMsg {b : Block} {m : Msg} (hm : msgOf b m.dqn m.msgId = some m) :
    let t := abandonMsg m.dqn m.msgId b
    let n := rangesLen (partsWritten m.parts)
    msgOf t m.dqn m.msgId = none ∧ t.sce.abandoned = sat32 (b.sce.abandoned + 1) ∧
      { dqn := m.dqn, msgId := m.msgId, zeroed := n, ok := decide (0 < n) && !b.link.writeCheck } ∈ t.sce.tombs := by
  obtain ⟨w, hsce, ht⟩ := sce_abandonMsg hm
  have habandoned : (closeMsg m.dqn m.msgId w).sce.abandoned = b.sce.abandoned := (sce_closeMsg m.dqn m.msgId w).1.trans (by rw [hsce])
  have hclosed := msgOf_closeMsg m.dqn m.msgId w
  simp only [msgOf] at hclosed ⊢
  rw [ht]
  refine ⟨hclosed, by rw [habandoned], ?_⟩
  simp only [mem_addTomb]

/-- A part that still waits for staging ends with HOLD_LIMIT. -/
theorem holdWaitTimeout_of_stageWait {b : Block} {j : Job} (hp : j.id ∈ b.sce.pending) (hj : jobOf b j.id = some j) (hdue : j.due = none)
    {m : Option Msg} (hm : m = if dFirst j.desc then none else (jobMsg b j).map (·.resumed b))
    (hg : partGate b j m ((m.map (·.hold)).getD (holdMode b j.desc ((m.map (·.ctx)).getD (j.ctx.getD (0, 0))))) = .stageWait) :
    holdWaitTimeout j.id b = settleAll (holdEnds j m b) := by
  have hc : b.sce.pending.contains j.id = true := by simpa using hp
  simp only [holdWaitTimeout, hc, hj, if_true, ← hm]
  cases m <;> exact if_pos ⟨by rw [hdue]; rfl, hg⟩

theorem parkingAndAbandonment : Claims.ParkingAndAbandonment := by
  refine ⟨fun s n c d i hc hm hj => next_congr ?_, fun s j m hp hj h0 he hl => next_congr ?_, fun b m c hm hs hp => parked_after_parkMsg hm hs hp,
    fun s d i => rfl, fun b m hm => abandoned_after_abandonMsg hm, fun s j hp hj hdue => ?_⟩
  · show parkTimeout n s.blk = _
    simp only [parkTimeout, hc, hm, hj]
  · show pendingPark s.blk = _
    have hwaits : (!(List.range s.blk.sce.cores.length).any (coreEligible s.blk)) = true := by rw [he]; rfl
    simp only [pendingPark, hl]
    refine if_pos (Bool.and_eq_true_iff.mpr ⟨List.any_eq_true.mpr ⟨j.id, hp, ?_⟩, hwaits⟩)
    simp [hj, h0]
  · intro m ctx area hg
    have hend := holdWaitTimeout_of_stageWait hp hj hdue (m := m) rfl hg
    refine ⟨fun hf => next_congr ?_, fun hf => next_congr ?_⟩
    · refine hend.trans ?_
      simp only [holdEnds, hf, Bool.false_eq_true, if_false]
      rfl
    · refine hend.trans ?_
      simp only [holdEnds, hf, if_true]
      rfl

/-- A write that leaves the upper half alone has its value in the lower half. -/
theorem lt_of_and_upper_eq_zero {n : Nat} (hn : n < 2 ^ 32) (h2 : n &&& 0xFFFF0000 = 0) : n < 65536 := by
  have hupper := congrArg (· >>> 16) h2
  simp only [Nat.shiftRight_and_distrib, Nat.zero_shiftRight] at hupper
  have hmod : (n >>> 16) % 2 ^ 16 = 0 := (Nat.and_two_pow_sub_one_eq_mod _ 16).symm.trans hupper
  rw [Nat.shiftRight_eq_div_pow] at hmod
  omega

theorem sessionTimeoutWrites : Claims.SessionTimeoutWrites := by
  rintro s v hc ⟨he, hd, hf, hv⟩
  have hlt : v.toNat % 65536 = v.toNat := Nat.mod_eq_of_lt (lt_of_and_upper_eq_zero v.isLt hv)
  refine ⟨next_congr ?_, next_congr ?_⟩
  · show parkTimeoutWrite v s.blk = _
    rw [parkTimeoutWrite, if_neg hc, pf0Write_go _ he hd hf hv, hlt]
    rfl
  · show abandonTimeoutWrite v s.blk = _
    rw [abandonTimeoutWrite, if_neg hc, pf0Write_go _ he hd hf hv, hlt]
    rfl

/-- Settles O16: the first that can move moves, a BOUND message is parked, an idle one is abandoned, and a register write that reaches takes effect. -/
theorem sessionEnginesRun : Obligations.SessionEnginesRun := ⟨sessionPartsRun, parkingAndAbandonment, sessionTimeoutWrites⟩

end Sys2Proof.Engines
end

section
/-! PROOFS. Commands of the keeper in their turn: public keys, blobs, imports, slots, key blocks (R279 to R282, R360, R364 to R367, R376, R530). -/

namespace Sys2Proof.KeyCommands

open Sys2Proof Sys2Proof.Machine Sys2Proof.Claims Sys2Proof.Steps

/-! ### A command that passes steps 3 to 5 of R376 -/

/-- A command that passes runs its own effect on the block with its session consumed. -/
theorem hsmRun_of_passes {b : Block} {h : HsmJob} {code : Nat} {session : Option EqxSession} {rule : HsmJob → Block → HsmRule}
    (hp : Passes b h code (rule h b) session) (rnd : HsmJob → Randomness) (own : HsmJob → Option EqxSession → Block → Block) :
    hsmRun code h.id rule rnd own b = settleAll (own h session (consumed session b)) := by
  obtain ⟨hr, ho, hg, hs⟩ := hp
  rw [hsmRun_go rule rnd own hr ho hg hs]
  cases session <;> rfl

theorem keyRun_of_passes {b : Block} {h : HsmJob} {code : Nat} (hp : Passes b h code (ruleBound b h.req h.block) none) (rnd : Randomness)
    (f : HsmJob → Block → Block) : keyRun code rnd f h.id b = settleAll (f h b) :=
  hsmRun_of_passes (rule := fun h b => ruleBound b h.req h.block) hp _ _

theorem keyQuorumRun_of_passes {b : Block} {h : HsmJob} {code : Nat} {x : EqxSession} {required : HsmJob → Block → Bool}
    (hp : Passes b h code (ruleOwner b h.req h.block (required h b)) (some x)) (rnd : Randomness) (f : HsmJob → Block → Block) :
    keyQuorumRun code rnd required f h.id b = settleAll (f h (dropSession x.sid b)) :=
  hsmRun_of_passes (rule := fun h b => ruleOwner b h.req h.block (required h b)) hp _ _

/-! ### Public-key commands -/

/-- With room on the unit a command that is not refused is submitted. -/
theorem pkCommand_of_room {b : Block} {h : HsmJob} (code : Nat) (hroom : Claims.PkRoom b (pkUnitOf (pkHead (bkParam h.block)).aset)) :
    pkCommand code h b = (match pkJudge b code h with
      | .error e => hsmNoKey h e (pkOpened code h b)
      | .ok (it, key) =>
        let hd := pkHead (bkParam h.block)
        let c := pkKek code it (pkOpened code h b)
        let r := if code = 0x44 then drawSeed 32 c else draw1 (pkRndLen c code hd) c
        pkSubmit (pkUnitOf hd.aset) h (key ++ r.1) (if pkRndLen c code hd = 0 then c else r.2)) := by
  unfold pkCommand
  cases pkJudge b code h with
  | error e => rfl
  | ok p => exact if_neg (Nat.not_le.mpr hroom)

theorem publicKeyCommandsQueue : Claims.PublicKeyCommandsQueue := by
  have bound {s : State} {h : HsmJob} (code : Nat) (hroom : Claims.PkRoom s.blk (pkUnitOf (pkHead (bkParam h.block)).aset))
      (hp : Passes s.blk h code (ruleBound s.blk h.req h.block) none) : pkRun code h.id s.blk = _ :=
    (hsmRun_of_passes (rule := fun h b => ruleBound b h.req h.block) hp (pkRandomness code) (fun h _ b => pkCommand code h b)).trans
      (congrArg settleAll (pkCommand_of_room code hroom))
  have verify {s : State} {h : HsmJob} (hroom : Claims.PkRoom s.blk (pkUnitOf (pkHead (bkParam h.block)).aset))
      (hp : Passes s.blk h 0x42 { ruleAny h.block with sender := isFn h.req } none) : pkVerifyRun h.id s.blk = _ :=
    (hsmRun_of_passes (rule := fun h _ => { ruleAny h.block with sender := isFn h.req }) hp (pkRandomness 0x42) (fun h _ b => pkCommand 0x42 h b)).trans
      (congrArg settleAll (pkCommand_of_room 0x42 hroom))
  intro p hmem s h hd hp hroom
  fin_cases hmem
  · exact next_congr (bound 0x40 hroom hp)
  · exact next_congr (bound 0x41 hroom hp)
  · exact next_congr (verify hroom hp)
  · exact next_congr (bound 0x43 hroom hp)
  · exact next_congr (bound 0x44 hroom hp)
  · exact next_congr (bound 0x45 hroom hp)

theorem publicKeyJobEnds : Claims.PublicKeyJobEnds := by
  refine ⟨fun s u h hu hb hf ho hr => next_congr ?_, fun h b it => ?_⟩
  · show pkJobDone u s.blk = _
    have hunit : ¬((u ≠ .pkMod ∧ u ≠ .pkLat) ∨ (pkAt s.blk u).state ≠ .busy) := by
      rintro (⟨hm, hl⟩ | hs)
      · exact hu.elim hm hl
      · exact hs hb
    simp only [pkJobDone, if_neg hunit, hf, ho, Bool.false_eq_true, if_false, hr, or_true, if_true]
  · intro hd code key blob hit
    simp only [pkResult]
    rw [show pkItems (bkCommand h.block) (bkParam h.block) = some it from hit]
    refine ⟨fun hc => ?_, fun hc => ?_, fun hc => ?_, fun hc => ?_, fun hc => ?_, fun hc => ?_⟩ <;>
      simp [show bkCommand h.block = _ from hc] <;> rfl

/-- Settles O20: a command that passes is judged and submitted while its unit has room; a busy unit's command ends with `pkResult`, case by code. -/
theorem publicKeyCommands : Obligations.PublicKeyCommands := ⟨publicKeyCommandsQueue, publicKeyJobEnds⟩

end Sys2Proof.KeyCommands
end

section
/-! PROOFS. Key commands in their turn: blobs, imports, slots, key blocks (R279 to R282, R530). -/

namespace Sys2Proof.KeyStore

open Sys2Proof Sys2Proof.Machine Sys2Proof.Claims Sys2Proof.Steps Sys2Proof.KeyCommands

/-! ### Blobs from keys -/

section

variable {h : HsmJob} {b : Block}

theorem keyGenerate_fresh {t : Bytes} {e : Nat} (hg : keyGate b lcsAny = none) (hi : fixedItem (bkParam h.block) 0 32 = some (t, e))
    (he : itemsEnd (bkParam h.block) e = true) (ht : tmplBad h t = none) (ha : asymDead b (hType t) = none) :
    keyGenerate h b = giveBlob h t (freshKey (hType t) (hKeyLen t) b).1 (publicOf (hType t) (freshKey (hType t) (hKeyLen t) b).1)
      (freshKey (hType t) (hKeyLen t) b).2 := by
  simp [keyGenerate, hg, hi, he, ht, ha]

/-- The slot index of a named key is 0, or an owner's. -/
theorem not_badSlot {i : Nat} (hi : i = 0 ∨ ownerSlot i = true) : ¬(i ≠ 0 ∧ ownerSlot i = false) := by
  rintro ⟨h0, hs⟩
  rcases hi with h | h
  · exact h0 h
  · simp [h] at hs

theorem keyDerive_of_items {blob t c : Bytes} {e1 e2 e3 : Nat} (hg : keyGate b lcsAny = none)
    (h1 : kekItem (bkParam h.block) (leAt (bkParam h.block) 0 1) = some (blob, e1)) (h2 : fixedItem (bkParam h.block) e1 32 = some (t, e2))
    (h3 : varItem (bkParam h.block) e2 = some (c, e3)) (he : itemsEnd (bkParam h.block) e3 = true) (hc : c.length ≤ 64)
    (hz : allZero (bkParam h.block) 1 3 = true) (hl : 8 ≤ (bkParam h.block).length)
    (hi : leAt (bkParam h.block) 0 1 = 0 ∨ ownerSlot (leAt (bkParam h.block) 0 1) = true) (ht : tmplBad h t = none)
    (hcap : 144 ≤ leAt (bkParam h.block) 4 4) :
    keyDerive h b = (match eitherNamed b h (leAt (bkParam h.block) 0 1) blob with
      | .error e => hsmNoKey h e (eitherOpened h (leAt (bkParam h.block) 0 1) blob b)
      | .ok k =>
        let c' := eitherOpened h (leAt (bkParam h.block) 0 1) blob b
        if hOwner k.head ≠ hOwner t then hsmFail h 0x0303 0 c'
        else if namedFits c' h k 0x08 useDerive = false then hsmFail h 0x0309 0 c'
        else giveBlob h t (kdf k.key "JKH owner derive" (slice t 4 16 ++ c) (hKeyLen t)) [] c') := by
  have hcap' : ¬ leAt (bkParam h.block) 4 4 < 144 := Nat.not_lt.mpr hcap
  simp only [keyDerive, hg, h1, h2, h3, Option.bind_eq_bind, Option.bind_some, he, hc, hz, hl, decide_true, Bool.and_self, if_true,
    if_neg (not_badSlot hi), ht]
  cases eitherNamed b h (leAt (bkParam h.block) 0 1) blob with
  | error e => rfl
  | ok k => simp only [hcap', if_false]

theorem blobRewrap_of_item {blob : Bytes} {e : Nat} (hg : keyGate b lcsAny = none) (hi : fixedItem (bkParam h.block) 8 144 = some (blob, e))
    (he : itemsEnd (bkParam h.block) e = true) (hz : allZero (bkParam h.block) 4 4 = true) (hcap : 144 ≤ leAt (bkParam h.block) 0 4) :
    blobRewrap h b = (match blobNamed b h blob with
      | .error e => hsmNoKey h e (blobOpened h blob b)
      | .ok k => giveBlob h k.head k.key [] (blobOpened h blob b)) := by
  have hcap' : ¬ leAt (bkParam h.block) 0 4 < 144 := Nat.not_lt.mpr hcap
  simp only [blobRewrap, hg, hi, he, hz, Bool.and_self, Bool.true_eq_false, if_false]
  cases blobNamed b h blob with
  | error e => rfl
  | ok k => simp only [hcap', if_false]

end

theorem blobsMadeFromKeys : Claims.BlobsMadeFromKeys := by
  intro s h p
  refine ⟨fun t e ⟨hp, hg⟩ hi he ht ha => ?_, ?_, fun blob e ⟨hp, hg⟩ hi he hz hcap => ?_⟩
  · exact next_congr ((keyRun_of_passes hp _ _).trans (congrArg settleAll (keyGenerate_fresh hg hi he ht ha)))
  · intro blob t c e1 e2 e3 i ⟨hp, hg⟩ h1 h2 h3 he hc hz hl hi ht hcap
    exact next_congr ((keyRun_of_passes hp _ _).trans (congrArg settleAll (keyDerive_of_items hg h1 h2 h3 he hc hz hl hi ht hcap)))
  · exact next_congr ((keyRun_of_passes hp _ _).trans (congrArg settleAll (blobRewrap_of_item hg hi he hz hcap)))

/-! ### Imports -/

/-- A fixed item lies inside the parameters. -/
theorem le_length_of_fixedItem {p x : Bytes} {off n e : Nat} (h : fixedItem p off n = some (x, e)) : off + n ≤ p.length := by
  unfold fixedItem itemStart at h
  by_cases hz : allZero p off (min (8 * ceilDiv off 8 - off) (p.length - off)) = true
  · simp only [hz, if_true] at h
    split at h
    · have hceil : off ≤ 8 * ceilDiv off 8 := by unfold ceilDiv; omega
      omega
    · cases h
  · simp [hz] at h

/-- An import that runs ends the session that its parameters name, once it has ended. -/
theorem importRun_of_passes {b : Block} {h : HsmJob} {code : Nat} {x : EqxSession} (hp : Passes b h code (ruleOwner b h.req h.block true) (some x))
    (hl : 4 ≤ (bkParam h.block).length) (rnd : Randomness) (f : HsmJob → Block → Block) :
    importRun code rnd f h.id b = Claims.importEnds h (settleAll (f h (dropSession x.sid b))) := by
  have hrun := keyQuorumRun_of_passes (required := fun _ _ => true) hp rnd f
  obtain ⟨hr, ho, -⟩ := hp
  simp only [importRun, hrun, hr, ho, Nat.not_lt.mpr hl, Bool.false_eq_true, false_or, or_false]
  rfl

section

variable {h : HsmJob} {b : Block}

theorem importSession_fresh (hg : keyGate b [2] = none) (hp : bkParam h.block = []) (hd : hybridDead b = none) :
    let r := drawSeed 120 b
    let n := b.key.nextImport
    let x : ImportSession := { sid := n, seed := r.1, opened := b.time.secs }
    let keys := importKeys x
    let out := aliasCose (cborPut (cborMap [(1, .bytes (pkPublic 0x19 keys.1)), (2, .bytes (pkPublic 0x05 keys.2)), (3, .uint n)]))
      (r.2.onKey (fun k => { k with imp := some x, nextImport := k.nextImport % (2 ^ 32 - 1) + 1 }))
    importSession h b = hsmOk h n out.1 out.2 := by
  simp only [importSession, hg, hp, hd, ne_eq, not_true_eq_false, if_false]

theorem importBlob_of_items {t env : Bytes} {e1 e2 : Nat} (hg : keyGate b [2] = none) (h1 : fixedItem (bkParam h.block) 8 32 = some (t, e1))
    (h2 : fixedItem (bkParam h.block) e1 (0x690 + hKeyLen t + 16) = some (env, e2)) (he : itemsEnd (bkParam h.block) e2 = true)
    (hz : allZero (bkParam h.block) 4 4 = true) (hze : allZero env 0x681 3 = true) (ht : tmplBad h t = none) :
    importBlob h b = (match openEnvelope b (leAt (bkParam h.block) 0 4) (hKeyLen t) t env with
      | none => hsmFail h 0x030B 0 b
      | some key => giveBlob h t key [] b) := by
  simp only [importBlob, hg, h1, h2, Option.bind_eq_bind, Option.bind_some, he, hz, hze, Bool.and_self, if_true, ht]
  cases openEnvelope b (leAt (bkParam h.block) 0 4) (hKeyLen t) t env <;> rfl

theorem importSlot_of_items {a env : Bytes} {e1 e2 : Nat} (hg : keyGate b [2] = none) (h1 : fixedItem (bkParam h.block) 8 16 = some (a, e1))
    (h2 : fixedItem (bkParam h.block) e1 (0x690 + leAt a 3 1 + 16) = some (env, e2)) (he : itemsEnd (bkParam h.block) e2 = true)
    (hz : allZero (bkParam h.block) 5 3 = true) (hze : allZero env 0x681 3 = true) (hs : slotBad b h (leAt (bkParam h.block) 4 1) a = none) :
    importSlot h b = (match openEnvelope b (leAt (bkParam h.block) 0 4) (leAt a 3 1) a env with
      | none => hsmFail h 0x030B 0 b
      | some key => giveSlot h (leAt (bkParam h.block) 4 1) key a [] b) := by
  simp only [importSlot, hg, h1, h2, Option.bind_eq_bind, Option.bind_some, he, hz, hze, Bool.and_self, if_true, hs]
  cases openEnvelope b (leAt (bkParam h.block) 0 4) (leAt a 3 1) a env <;> rfl

end

theorem importSessions : Claims.ImportSessions := by
  refine ⟨fun s h ⟨hp, hg⟩ he hd => ?_, ?_, ?_, fun s => rfl⟩
  · exact next_congr ((keyRun_of_passes hp _ _).trans (congrArg settleAll (importSession_fresh hg he hd)))
  · intro s h x t env e1 e2 p b ⟨hp, hg⟩ h1 h2 he hz hze ht
    have hl : 4 ≤ (bkParam h.block).length := Nat.le_trans (by decide) (le_length_of_fixedItem h1)
    exact next_congr ((importRun_of_passes hp hl _ _).trans
      (congrArg (fun c => Claims.importEnds h (settleAll c)) (importBlob_of_items hg h1 h2 he hz hze ht)))
  · intro s h x a env e1 e2 p b i ⟨hp, hg⟩ h1 h2 he hz hze hs
    have hl : 4 ≤ (bkParam h.block).length := Nat.le_trans (by decide) (le_length_of_fixedItem h1)
    exact next_congr ((importRun_of_passes hp hl _ _).trans
      (congrArg (fun c => Claims.importEnds h (settleAll c)) (importSlot_of_items hg h1 h2 he hz hze hs)))

/-- Settles O21: each command in its turn runs its own effect, whose checks the hypotheses pass one by one. -/
theorem keyBlobsAndImports : Obligations.KeyBlobsAndImports := ⟨blobsMadeFromKeys, importSessions⟩

/-! ### Slots -/

section

variable {h : HsmJob} {b : Block}

theorem slotGenerate_fresh {a : Bytes} {e : Nat} (hg : keyGate b lcsField = none) (h1 : fixedItem (bkParam h.block) 8 16 = some (a, e))
    (he : itemsEnd (bkParam h.block) e = true) (hz : allZero (bkParam h.block) 1 7 = true)
    (hs : slotBad b h (leAt (bkParam h.block) 0 1) a = none) (ha : asymDead b (hType (attrHeader a)) = none) :
    let k := freshKey (hType (attrHeader a)) (hKeyLen (attrHeader a)) b
    slotGenerate h b = giveSlot h (leAt (bkParam h.block) 0 1) k.1 a (publicOf (hType (attrHeader a)) k.1) k.2 := by
  simp [slotGenerate, hg, h1, he, hz, hs, ha]

theorem slotErase_of_params (hg : keyGate b lcsAny = none) (hl : (bkParam h.block).length = 8) (hz : allZero (bkParam h.block) 1 7 = true)
    (hs : ownerSlot (leAt (bkParam h.block) 0 1) = true) :
    slotErase h b = hsmOk h (leAt (bkParam h.block) 0 1) [] (eraseSlot (leAt (bkParam h.block) 0 1) b) := by
  simp [slotErase, hg, hl, hz, hs]

/-- The slot that SLOT_ERASE judges is counted only when it is CORRUPT. -/
theorem eraseJudged_of_not_corrupt (hr : hsmReady b 0x36 h.id = some h) (hs : slotState b (leAt (bkParam h.block) 0 1) ≠ .corrupt) :
    eraseJudged h.id b = b := by
  simp [eraseJudged, hr, slotFound, hs]

theorem slotStatus_of_params (hg : keyGate b lcsAny = none) (hl : (bkParam h.block).length = 8) (hz : allZero (bkParam h.block) 1 3 = true)
    (hs : ownerSlot (leAt (bkParam h.block) 0 1) = true) (hcap : 24 ≤ leAt (bkParam h.block) 4 4) :
    let i := leAt (bkParam h.block) 0 1
    let out (st g : Nat) (a : Bytes) : Bytes := lePut 1 st ++ lePut 1 g ++ zeros 6 ++ slice a 0 16
    slotStatus h b = (match slotState b i with
      | .empty => hsmOk h 0 (out 0 0 []) b
      | .valid g c => hsmOk h 1 (out 1 g (c.drop 0x40)) b
      | .corrupt => hsmOk h 2 (out 2 0 []) (noteCorrupt i b)) := by
  have hcap' : ¬ leAt (bkParam h.block) 4 4 < 24 := Nat.not_lt.mpr hcap
  simp only [slotStatus, hg, hl, hz, hs, hcap', ne_eq, not_true_eq_false, Bool.true_eq_false, or_self, if_false] <;>
    cases slotState b (leAt (bkParam h.block) 0 1) <;> rfl

end

theorem keySlotsManaged : Claims.KeySlotsManaged := by
  refine ⟨?_, fun h i key a out b ht => ?_, ?_, ?_⟩
  · intro s h x a e p b i t ⟨hp, hg⟩ h1 he hz hs ha
    exact next_congr ((keyQuorumRun_of_passes (required := fun _ _ => true) hp _ _).trans
      (congrArg settleAll (slotGenerate_fresh hg h1 he hz hs ha)))
  · intro c
    refine ⟨fun hb => ?_, fun n hb => ?_⟩ <;>
      · simp only [giveSlot, ht, Bool.false_eq_true, if_false, hsmCommit]
        rw [show (commitSlot i key a b).key.badPair = _ from hb]
  · intro s h x p hs ⟨hp, hg⟩ hl hz ho
    have hj := eraseJudged_of_not_corrupt hp.1 hs
    refine next_congr ?_
    show keyQuorumRun 0x36 .none eraseAllowed slotErase h.id (eraseJudged h.id s.blk) = _
    rw [hj, keyQuorumRun_of_passes hp, slotErase_of_params hg hl hz ho]
  · intro s h p i out ⟨hp, hg⟩ hl hz ho hcap
    exact next_congr ((keyRun_of_passes hp _ _).trans (congrArg settleAll (slotStatus_of_params hg hl hz ho hcap)))

/-! ### Key blocks and wrapped exports -/

section

variable {h : HsmJob} {b : Block}

theorem keyblockImport_of_items {blob t kb : Bytes} {e1 e2 e3 : Nat} (hg : keyGate b lcsField = none)
    (h1 : kekItem (bkParam h.block) (leAt (bkParam h.block) 0 1) = some (blob, e1)) (h2 : fixedItem (bkParam h.block) e1 32 = some (t, e2))
    (h3 : varItem (bkParam h.block) e2 = some (kb, e3)) (he : itemsEnd (bkParam h.block) e3 = true)
    (hz : allZero (bkParam h.block) 1 3 = true) (hi : leAt (bkParam h.block) 0 1 = 0 ∨ ownerSlot (leAt (bkParam h.block) 0 1) = true)
    (ht : tmplBad h t = none) :
    keyblockImport h b = (match eitherNamed b h (leAt (bkParam h.block) 0 1) blob with
      | .error e => hsmNoKey h e (eitherOpened h (leAt (bkParam h.block) 0 1) blob b)
      | .ok kek =>
        let c := eitherOpened h (leAt (bkParam h.block) 0 1) blob b
        if hOwner kek.head ≠ hOwner t then hsmFail h 0x0303 0 c
        else if namedFits c h kek 0x07 useUnwrap = false then hsmFail h 0x0309 0 c
        else match kbParse kb with
          | none => hsmFail h 0x030A 0 c
          | some (kh, off) => match kbOpen kek.key kb off with
            | none => hsmFail h 0x030B 0 c
            | some key =>
              let want := hUsage t &&& (0xFFFF - (2 ^ useHoldOnly + 2 ^ useRetro + 2 ^ useStream))
              if kbType kh key.length ≠ some (hType t) ∨ key.length ≠ hKeyLen t ∨ kbUsage kh = none ∨ want &&& (kbUsage kh).getD 0 ≠ want then
                hsmFail h 0x030C 0 c
              else if leAt (bkParam h.block) 4 4 < 144 then hsmFail h 0x030F 144 c
              else giveBlob h t key [] c) := by
  simp only [keyblockImport, hg, h1, h2, h3, Option.bind_eq_bind, Option.bind_some, he, hz, Bool.and_self, if_true,
    if_neg (not_badSlot hi), ht]
  cases eitherNamed b h (leAt (bkParam h.block) 0 1) blob with
  | error e => rfl
  | ok kek =>
    dsimp only <;>
      (split
       · rfl
       · split
         · rfl
         · cases kbParse kb <;> rfl)

/-- A way out of a key whose items stand, up to what it makes of the blob. -/
theorem exportKey_of_items {kb blob : Bytes} (hg : keyGate b lcsField = none) (hit : Claims.ExportItems (bkParam h.block) kb blob)
    (len : NamedKey → Option Nat) (out : NamedKey → NamedKey → Block → Bytes × Block) :
    exportKey len out h b = (match eitherNamed b h (leAt (bkParam h.block) 0 1) kb, blobNamed b h blob with
      | .error e, _ => hsmNoKey h e (eitherOpened h (leAt (bkParam h.block) 0 1) kb b)
      | .ok _, .error e => hsmNoKey h e (blobOpened h blob (eitherOpened h (leAt (bkParam h.block) 0 1) kb b))
      | .ok kk, .ok k =>
        let c := blobOpened h blob (eitherOpened h (leAt (bkParam h.block) 0 1) kb b)
        if hOwner kk.head ≠ hOwner k.head then hsmFail h 0x0303 0 c
        else if namedFits c h kk 0x07 useWrap = false ∨ bit (hUsage k.head) useExportable = false then hsmFail h 0x0309 0 c
        else match len k with
          | none => hsmFail h 0x030C 0 c
          | some n => if leAt (bkParam h.block) 4 4 < n then hsmFail h 0x030F n c else hsmOk h n (out kk k c).1 (out kk k c).2) := by
  obtain ⟨e1, e2, h1, h2, he, hz, hi⟩ := hit
  simp only [exportKey, hg, h1, h2, Option.bind_eq_bind, Option.bind_some, he, hz, Bool.and_self, if_true, if_neg (not_badSlot hi)] <;>
    (cases eitherNamed b h (leAt (bkParam h.block) 0 1) kb with
     | error e => rfl
     | ok kk =>
       cases blobNamed b h blob with
       | error e => rfl
       | ok k =>
         dsimp only
         split
         · rfl
         · split
           · rfl
           · cases len k <;> rfl)

end

theorem keyblockExport_of_items {h : HsmJob} {b : Block} {kb blob : Bytes} (hg : keyGate b lcsField = none)
    (hit : Claims.ExportItems (bkParam h.block) kb blob) :
    keyblockExport h b = (match eitherNamed b h (leAt (bkParam h.block) 0 1) kb, blobNamed b h blob with
      | .error e, _ => hsmNoKey h e (eitherOpened h (leAt (bkParam h.block) 0 1) kb b)
      | .ok _, .error e => hsmNoKey h e (blobOpened h blob (eitherOpened h (leAt (bkParam h.block) 0 1) kb b))
      | .ok kk, .ok k =>
        let c := blobOpened h blob (eitherOpened h (leAt (bkParam h.block) 0 1) kb b)
        let pad := draw1 (kbPadLen k.key.length) c
        if hOwner kk.head ≠ hOwner k.head then hsmFail h 0x0303 0 c
        else if namedFits c h kk 0x07 useWrap = false ∨ bit (hUsage k.head) useExportable = false then hsmFail h 0x0309 0 c
        else if kbAttrs (hType k.head) (hUsage k.head) = none then hsmFail h 0x030C 0 c
        else if leAt (bkParam h.block) 4 4 < kbLen k.key.length then hsmFail h 0x030F (kbLen k.key.length) c
        else hsmOk h (kbLen k.key.length) (kbSeal kk.key k.key pad.1 ((kbAttrs (hType k.head) (hUsage k.head)).getD ([], 0, 0))) pad.2) := by
  refine (exportKey_of_items hg hit _ _).trans ?_
  cases eitherNamed b h (leAt (bkParam h.block) 0 1) kb with
  | error e => rfl
  | ok kk =>
    cases blobNamed b h blob with
    | error e => rfl
    | ok k =>
      dsimp only
      generalize kbAttrs (hType k.head) (hUsage k.head) = attrs
      cases attrs <;> rfl

theorem keyBlocksAndExports : Claims.KeyBlocksAndExports := by
  refine ⟨?_, ?_⟩
  · intro s h blob t kb e1 e2 e3 p i ⟨hp, hg⟩ h1 h2 h3 he hz hi ht
    exact next_congr ((keyRun_of_passes hp _ _).trans (congrArg settleAll (keyblockImport_of_items hg h1 h2 h3 he hz hi ht)))
  · intro q hq s h kek blob p ⟨hp, hg⟩ hit
    fin_cases hq
    · refine next_congr ((keyRun_of_passes hp .needed keyblockExport).trans (congrArg settleAll ?_))
      simp only [true_and, if_true]
      exact keyblockExport_of_items hg hit
    · refine next_congr ((keyRun_of_passes hp .none kwpExport).trans (congrArg settleAll ?_))
      simp only [Bool.false_eq_true, false_and, if_false]
      exact exportKey_of_items hg hit _ _

/-- Settles O22: slots by what `slotState` gives, a commit by its readback, a key in and a key out check by check. -/
theorem keySlotsAndBlocks : Obligations.KeySlotsAndBlocks := ⟨keySlotsManaged, keyBlocksAndExports⟩

end Sys2Proof.KeyStore
end

section
/-! PROOFS. Sessions, owners and bindings of Equinox (R378 to R386). -/

namespace Sys2Proof.EquinoxCommands

open Sys2Proof Sys2Proof.Machine Sys2Proof.Claims Sys2Proof.Steps Sys2Proof.KeyCommands

/-- The next block of a command that passes, from what its own effect gives. -/
theorem next_of_passes {s : State} {h : HsmJob} {c : Instr} {code : Nat} {session : Option EqxSession} {rule : HsmJob → Block → HsmRule}
    {rnd : HsmJob → Randomness} {own : HsmJob → Option EqxSession → Block → Block} {t : Block}
    (hc : exec c s = .next { s with blk := hsmRun code h.id rule rnd own s.blk }) (hp : Passes s.blk h code (rule h s.blk) session)
    (ht : own h session (consumed session s.blk) = t) : exec c s = .next { s with blk := settleAll t } :=
  hc.trans (next_congr ((hsmRun_of_passes hp rnd own).trans (congrArg settleAll ht)))

/-! ### Sessions -/

/-- The items of EQX_OPEN: the path is one of them but under a charter. -/
theorem openItems {p w cmd rec path : Bytes} {a e1 e2 e3 e4 : Nat} (h1 : fixedItem p 0 8 = some (w, e1)) (h2 : fixedItem p e1 48 = some (cmd, e2))
    (h3 : fixedItem p e2 816 = some (rec, e3)) (h4 : (if a = 0x1000 then some ([], e3) else fixedItem p e3 576) = some (path, e4))
    (he : itemsEnd p e4 = true) : (do
      let (_, e) ← fixedItem p 0 8
      let (cmd, e) ← fixedItem p e 48
      let (rec, e) ← fixedItem p e 816
      let (path, e) ← if a = 0x1000 then some ([], e) else fixedItem p e 576
      if itemsEnd p e then some (cmd, rec, path) else none) = some (cmd, rec, path) := by
  by_cases ha : a = 0x1000
  · obtain ⟨rfl, rfl⟩ : [] = path ∧ e3 = e4 := by simpa [ha] using h4
    simp [h1, h2, h3, ha, he]
  · rw [if_neg ha] at h4
    simp [h1, h2, h3, ha, h4, he]

theorem sessionsOpenAndCollectApprovals : Claims.SessionsOpenAndCollectApprovals := by
  dsimp only [Claims.SessionsOpenAndCollectApprovals]
  refine ⟨?_, ?_⟩
  · intro s h w cmd rec path e1 e2 e3 e4 hp h1 h2 h3 h4 he hlo hhi hz hnone hroom hcap
    refine next_of_passes (rule := fun h b => ruleSession b h) rfl hp ?_
    have hlife : ¬(leAt (bkParam h.block) 0 2 < 10 ∨ 3600 < leAt (bkParam h.block) 0 2 ∨ leAt (bkParam h.block) 2 2 ≠ 0) := by omega
    have hfree : ¬((purgeSessions s.blk).kpr.sessions.any (fun x => x.authority == bkAuth h.block) = true ∨
        16 ≤ (purgeSessions s.blk).kpr.sessions.length) := by rw [hnone]; simp [hroom]
    simp only [consumed, eqxOpen, openItems h1 h2 h3 h4 he, if_neg hlife, if_neg hfree, Nat.not_lt.mpr hcap, if_false]
  · intro s h w pk s1 s2 e1 e2 e3 e4 x hp h1 h2 h3 h4 he hi hz hx hd ht ha ho
    refine next_of_passes (rule := fun h b => ruleSession b h) rfl hp ?_
    have hofficer : ¬(15 < leAt (bkParam h.block) 4 1 ∨ allZero (bkParam h.block) 5 3 = false) := by simp [hz, hi]
    have hlive : ¬(x.expiry ≤ s.blk.time.secs ∨ x.authority ≠ bkAuth h.block) := by simp [ha, ht]
    simp only [consumed, eqxApprove, h1, h2, h3, h4, he, Option.bind_eq_bind, Option.bind_some, if_true, if_neg hofficer, hx, hd, if_neg hlive,
      Nat.not_le.mpr ho, false_or]

theorem sessionOf_dropSession_same (sid : Nat) (b : Block) : sessionOf (dropSession sid b) sid = none := by
  simp [sessionOf, dropSession, Block.onKpr, List.find?_eq_none]

theorem sessionOf_dropSession_of_ne {i sid : Nat} (hi : i ≠ sid) (b : Block) : sessionOf (dropSession sid b) i = sessionOf b i := by
  simp only [sessionOf, dropSession, Block.onKpr, List.find?_filter]
  congr 1
  funext x
  by_cases hx : x.sid = i
  · simp [hx, hi]
  · simp [hx]

theorem sessionStatusAndEnd : Claims.SessionStatusAndEnd := by
  dsimp only [Claims.SessionStatusAndEnd]
  refine ⟨fun s h hp hf => ⟨fun hn => ?_, fun x hx ha ht => ?_⟩, fun s h x hp hf hx ha ht => ?_, fun s sid => ?_⟩
  · refine next_of_passes (rule := fun h b => ruleSession b h) rfl hp ?_
    simp only [consumed, eqxStatus, hf, Bool.true_eq_false, if_false, hn]
  · refine next_of_passes (rule := fun h b => ruleSession b h) rfl hp ?_
    simp only [consumed, eqxStatus, hf, Bool.true_eq_false, if_false, hx, ha, ne_eq, not_true_eq_false, Nat.not_le.mpr ht, EqxSession.met,
      decide_eq_true_eq]
  · refine next_of_passes (rule := fun h b => ruleClose b h) rfl hp ?_
    simp only [consumed, eqxClose, hf, Bool.true_eq_false, if_false, hx, ha, ne_eq, not_true_eq_false, Nat.not_le.mpr ht, or_self]
  · exact ⟨_, rfl, sessionOf_dropSession_same sid s.blk, rfl, fun i hi => sessionOf_dropSession_of_ne hi s.blk⟩

/-- Settles O23: each session command in its turn, its checks passed one by one; a session is erased by its number. -/
theorem equinoxSessions : Obligations.EquinoxSessions := ⟨sessionsOpenAndCollectApprovals, sessionStatusAndEnd⟩

/-! ### Owners -/

/-- Consuming a session leaves the run state. -/
theorem run_consumed (session : Option EqxSession) (b : Block) : (consumed session b).run = b.run := by cases session <;> rfl

theorem registryChanges : Claims.RegistryChanges := by
  dsimp only [Claims.RegistryChanges]
  refine ⟨?_, ?_, ?_⟩
  · intro s h session rec path old hp hi hr hz hl hrec
    refine next_of_passes rfl hp ?_
    have hhead : ¬(1 < leAt (bkParam h.block) 0 1 ∨ allZero (bkParam h.block) 1 7 = false) := by simp [hz, hr]
    simp only [ownerCreate, hi, if_neg hhead, run_consumed, hl, hrec, Bool.true_eq_false, if_false]
  · intro s h x rec e hp hi he hl hrec
    refine next_of_passes rfl hp ?_
    have hl' : lcsAny.contains (dropSession x.sid s.blk).run.lcs = true := hl
    simp only [consumed, ownerUpdate, hi, he, hl', hrec, Bool.true_eq_false, if_false, false_or]
  · intro s h x rec path hp hwhat hl hrec
    refine next_of_passes rfl hp ?_
    have hl' : lcsAny.contains (dropSession x.sid s.blk).run.lcs = true := hl
    have htarget : (if bkAuth h.block = 0 then (do
          let (rec, e) ← fixedItem (bkParam h.block) 0 816
          let (path, e) ← fixedItem (bkParam h.block) e 576
          if itemsEnd (bkParam h.block) e then some (rec, path) else none)
        else if bkParam h.block = [] then (some x).map (fun s => (s.record, s.path)) else none) = some (rec, path) := by
      rcases hwhat with ⟨h0, hempty, rfl, rfl⟩ | ⟨h0, e1, e2, h1, h2, he⟩
      · simp [h0, hempty]
      · simp [h0, h1, h2, he]
    simp only [consumed, ownerDelete, htarget, hl', hrec, Bool.true_eq_false, if_false, false_or]

/-! ### Bindings -/

theorem bindingsChange : Claims.BindingsChange := by
  dsimp only [Claims.BindingsChange]
  refine ⟨?_, ?_⟩
  · intro s h w rec path e1 e2 e3 hp h1 h2 h3 he hlo hhi hz hrec hfn hb hn
    refine next_of_passes (rule := fun h _ => rulePlain h.req h.block) rfl hp ?_
    have hhead : ¬(leAt (bkParam h.block) 0 2 = 0 ∨ 255 < leAt (bkParam h.block) 0 2 ∨ allZero (bkParam h.block) 2 6 = false) := by
      simp only [hz, Bool.true_eq_false, or_false]; omega
    simp only [consumed, fnBind, h1, h2, h3, he, Option.bind_eq_bind, Option.bind_some, if_true, if_neg hhead, hrec, hfn, hb, Bool.true_eq_false,
      false_or, tgetD, hn, Option.getD_none, ne_eq, not_true_eq_false, if_false]
  · intro s h o hp hf hlo hhi hn hb
    refine next_of_passes (rule := fun h _ => rulePlain h.req h.block) rfl hp ?_
    have hfn : ¬(leAt (bkParam h.block) 0 2 = 0 ∨ 255 < leAt (bkParam h.block) 0 2) := by omega
    simp only [consumed, fnUnbind, hf, Bool.true_eq_false, if_false, if_neg hfn, hn, hb]

/-- Settles O24: each registry command in its turn, its checks passed one by one. -/
theorem ownersAndBindings : Obligations.OwnersAndBindings := ⟨registryChanges, bindingsChange⟩

end Sys2Proof.EquinoxCommands
end

section
/-! PROOFS. Key domains (R389 to R393). -/

namespace Sys2Proof.DomainCommands

open Sys2Proof Sys2Proof.Machine Sys2Proof.Claims Sys2Proof.Steps Sys2Proof.KeyCommands Sys2Proof.EquinoxCommands

/-- A domain command with KEYS_LOCKED 0 in PROVISION or PRODUCTION acts. -/
theorem domainGate_go {b : Block} (h : HsmJob) (f : Block → Block) (hk : b.run.keysLocked = false) (hl : lcsField.contains b.run.lcs = true) :
    domainGate h f b = f b := by
  unfold domainGate
  rw [hk, hl]
  exact if_neg (by simp)

/-- What a domain command that has its turn does, its session consumed. -/
theorem next_of_domainTurn {s : State} {h : HsmJob} {c : Instr} {code : Nat} {session : Option EqxSession} {rule : HsmJob → Block → HsmRule}
    {rnd : HsmJob → Randomness} {own : HsmJob → Option EqxSession → Block → Block} {f : Block → Block} {t : Block}
    (hc : exec c s = .next { s with blk := hsmRun code h.id rule rnd own s.blk }) (hp : Claims.DomainTurn s.blk h code (rule h s.blk) session)
    (hown : own h session = domainGate h f) (ht : f (consumed session s.blk) = t) : exec c s = .next { s with blk := settleAll t } := by
  obtain ⟨hp, hk, hl⟩ := hp
  refine next_of_passes hc hp ?_
  rw [hown, domainGate_go h f (by rwa [run_consumed]) (by rwa [run_consumed]), ht]

/-- An offer or package opens, and carries valid public keys, step by step. -/
theorem opened_eq (pk bs : Bytes) : Claims.opened pk bs = (match openMap pk bs with
    | none => none
    | some m => match offerPublic m with
      | none => none
      | some (ek, qj) => some (m, ek, qj)) := by
  unfold Claims.opened
  cases openMap pk bs with
  | none => rfl
  | some m => cases h : offerPublic m <;> simp [h]

theorem answered_eq (b : Block) (pk pkg : Bytes) : Claims.answered b pk pkg = (match openMap pk pkg with
    | none => none
    | some m => match namedOffer b m with
      | none => none
      | some o => some (m, o)) := by
  unfold Claims.answered
  cases openMap pk pkg with
  | none => rfl
  | some m => cases h : namedOffer b m <;> simp [h]

/-- DOMAIN_SPONSOR refuses an offer for the reasons that `joinOffer` names. -/
theorem joinOffer_eq_true_iff (m : Cbor) :
    Claims.joinOffer m = true ↔ ¬(m.num 1 ≠ some 0 ∨ m.num 7 ≠ some 0 ∨ (m.num 6 ≠ some 2 ∧ m.num 6 ≠ some 3)) := by
  simp [Claims.joinOffer, not_or, imp_iff_not_or, and_assoc]

/-- DOMAIN_SPONSOR on a device that may sponsor. -/
theorem sponsor_judged {h : HsmJob} {b : Block} {m : Cbor} (a : Block) :
    (if m.num 1 ≠ some 0 ∨ m.num 7 ≠ some 0 ∨ (m.num 6 ≠ some 2 ∧ m.num 6 ≠ some 3) then hsmFail h 0x050C 0 b else a) =
      if Claims.joinOffer m = true then a else hsmFail h 0x050C 0 b := by
  simp only [joinOffer_eq_true_iff, ite_not]

/-- DOMAIN_JOIN and DOMAIN_RECEIVE on a device that may take the package. -/
theorem withPackage_eq {h : HsmJob} {b : Block} {pkg pk : Bytes} {kind : Nat} {pre : Block → Bool} (f : Cbor → DomainOffer → Bytes → Block → Block)
    (hk : b.run.keysLocked = false) (hl : lcsField.contains b.run.lcs = true) (hi : packageItems (bkParam h.block) = some (pkg, pk))
    (hd : hybridDead b = none) (hp : pre b = true) :
    withPackage h kind pre f b = (match Claims.answered b pk pkg with
      | none => hsmFail h 0x050C 0 b
      | some (m, o) => match openPackage b o kind m with
        | none => hsmFail h 0x050C 0 b
        | some c => f m o c b) := by
  rw [withPackage, domainGate_go h _ hk hl, answered_eq]
  simp only [hi, hd, hp, Bool.true_eq_false, if_false]
  cases openMap pk pkg with
  | none => rfl
  | some m =>
    dsimp only
    cases namedOffer b m with
    | none => rfl
    | some o => cases openPackage b o kind m <;> rfl

/-- Settles O25: each domain command in its turn, its checks passed one by one; an offer ends by its timer or its answer. -/
theorem domainsFormed : Obligations.DomainsFormed := by
  dsimp only [Obligations.DomainsFormed]
  refine ⟨?_, ?_, fun s => rfl, ?_, ?_, ?_⟩
  · intro s h x hp hf hi hj
    refine next_of_domainTurn (rule := fun h _ => ruleQuorum h.req h.block 0x1000 0x0506 0x0509) rfl hp rfl ?_
    have hj' : mayJoin (dropSession x.sid s.blk) = true := hj
    simp only [consumed, hf, Nat.not_le.mpr hi, hj', Bool.true_eq_false, if_false, Option.map_some, Option.getD_some, Claims.spent]
  · intro s h hp hf hz hkind hd
    refine next_of_domainTurn (rule := fun h _ => rulePlain h.req h.block) rfl hp rfl ?_
    have hhead : ¬(1 < leAt (bkParam h.block) 0 1 ∨ allZero (bkParam h.block) 1 3 = false) := by
      rw [hz]
      rcases hkind with ⟨hk, -⟩ | ⟨hk, -⟩ <;> simp [hk]
    have hmay : (if leAt (bkParam h.block) 0 1 = 0 then mayJoin s.blk else domMember (domRec s.blk) && s.blk.key.root.isSome) = true := by
      rcases hkind with ⟨hk, hj⟩ | ⟨hk, hm, hr⟩
      · simp [hk, hj]
      · simp [hk, hm, hr]
    simp only [consumed, hf, if_neg hhead, hmay, Bool.true_eq_false, if_false, hd]
    rfl
  · intro s h x offer pk hp ⟨e1, e2, h1, h2, he⟩ hd hi hz hm hst hr hb hne
    refine next_of_domainTurn (rule := fun h _ => ruleQuorum h.req h.block 0x1000 0x0506 0x0509) rfl hp rfl ?_
    simp only [Claims.spent] at hd hm hst hr hb hne
    have hhead : ¬(16384 ≤ leAt (bkParam h.block) 0 2 ∨ leAt (bkParam h.block) 2 2 ≠ 0) := by omega
    simp only [consumed, Claims.spent, h1, h2, he, Option.bind_eq_bind, Option.bind_some, if_true, hd, if_neg hhead, hm, hst, hr, hb, hne,
      Bool.true_eq_false, Bool.false_eq_true, or_self, if_false, opened_eq, sponsor_judged]
    cases openMap pk offer with
    | none => rfl
    | some m =>
      dsimp only
      cases offerPublic m <;> rfl
  · intro s h x pkg pk ⟨hp, hk, hl⟩ hi hd hj
    refine next_congr (congrArg (offerRun 0x63 h.id s.blk) ?_)
    refine (hsmRun_of_passes (rule := fun h _ => ruleQuorum h.req h.block 0x1000 0x0506 0x0509) hp _ _).trans (congrArg settleAll ?_)
    exact withPackage_eq (b := dropSession x.sid s.blk) _ hk hl hi hd hj
  · intro before after h code hr ho ha
    simp only [offerRun, hr, ho, ha, true_and]
    rfl

/-- A sync package whose CONFIRM does not stand, or whose sender is revoked, is refused. -/
theorem confirmed_eq_false_iff (b : Block) (m : Cbor) (o : DomainOffer) : Claims.confirmed b m o = false ↔
    (match (Claims.offeredEpoch o).bind (memberRoot b) with
      | some root => m.str 11 == some (kmac256 root (mapDigest m 11) 32 (ascii "JDC"))
      | none => false) = false ∨
    (match m.num 8 with
      | some i => b.bbram.bitmap.contains i
      | none => true) = true := by
  unfold Claims.confirmed
  cases m.num 8 with
  | none => simp
  | some i => exact Bool.and_eq_false_iff.trans (or_congr_right (by rw [Bool.not_eq_false']))

/-- Settles O26: each domain command in its turn, its checks passed one by one. -/
theorem domainsKept : Obligations.DomainsKept := by
  dsimp only [Obligations.DomainsKept]
  refine ⟨?_, ?_, ?_, fun s h x => ⟨?_, ?_, ?_⟩⟩
  · intro s h offer pk hp ⟨w, e0, e1, e2, h0, h1, h2, he⟩ hd hm hr
    refine next_of_domainTurn (rule := fun h _ => rulePlain h.req h.block) rfl hp rfl ?_
    simp only [consumed, h0, h1, h2, he, Option.bind_eq_bind, Option.bind_some, if_true, hd, hm, hr, Bool.true_eq_false, or_self, if_false,
      opened_eq]
    cases openMap pk offer with
    | none => rfl
    | some m =>
      dsimp only
      cases offerPublic m <;> rfl
  · intro s h pkg pk ⟨hp, hk, hl⟩ hi hd hm hr
    refine next_congr (congrArg (offerRun 0x65 h.id s.blk) ?_)
    refine (hsmRun_of_passes (rule := fun h _ => rulePlain h.req h.block) hp _ _).trans (congrArg settleAll ?_)
    refine (withPackage_eq (b := s.blk) _ hk hl hi hd (by simp [hm, hr])).trans ?_
    simp only [confirmed_eq_false_iff]
    rfl
  · intro s h x old hp hb hr hm he
    refine next_of_domainTurn (rule := fun h _ => ruleQuorum h.req h.block 0x1000 0x0506 0x0509) rfl hp rfl ?_
    simp only [Claims.spent] at hr hm he
    simp only [consumed, Claims.spent, hb, hr, hm, Nat.not_le.mpr he, ne_eq, not_true_eq_false, Bool.true_eq_false, or_self, if_false]
  · intro hp hf hv hi
    refine next_of_domainTurn (rule := fun h _ => ruleQuorum h.req h.block 0x1000 0x0506 0x0509) rfl hp rfl ?_
    simp only [Claims.spent] at hv hi
    simp only [consumed, Claims.spent, hf, hv, hi, ne_eq, not_true_eq_false, Bool.true_eq_false, or_self, if_false]
  · intro hp hf hi hm hne
    refine next_of_domainTurn (rule := fun h _ => ruleQuorum h.req h.block 0x1000 0x0506 0x0509) rfl hp rfl ?_
    simp only [Claims.spent] at hm hne
    simp only [consumed, Claims.spent, hf, Nat.not_le.mpr hi, hm, hne, Bool.true_eq_false, or_self, if_false]
  · intro hp hb hm
    refine next_of_domainTurn (rule := fun h _ => ruleLeave h) rfl hp rfl ?_
    have hin : ¬(domMember (domRec (dropSession x.sid s.blk)) = false ∧ ¬(dropSession x.sid s.blk).key.domState = 2) := by
      rintro ⟨h1, h2⟩
      exact hm.elim (fun h3 => by simp only [Claims.spent] at h3; simp [h1] at h3) h2
    simp only [consumed, Claims.spent, hb, ne_eq, not_true_eq_false, if_false]
    exact if_neg hin

end Sys2Proof.DomainCommands
end

section
/-! PROOFS. Life-cycle transitions, tokens and fuses (R82 to R93, R112). -/

namespace Sys2Proof.LifeCycleCommands

open Sys2Proof Sys2Proof.Machine Sys2Proof.Claims Sys2Proof.Steps Sys2Proof.KeyCommands Sys2Proof.EquinoxCommands

/-! ### Tokens -/

/-- The reason for a token's failure is the one that R84 gives. -/
theorem tokenThen_eq_tokenAnswer (h : HsmJob) (kind src dst : Nat) (f : Block → Block) (b : Block) :
    tokenThen h (Claims.tokenOf h) kind src dst f b = Claims.tokenAnswer h kind src dst f b := by
  unfold tokenThen Claims.tokenAnswer
  cases tokenCheck b (Claims.tokenOf h) 0x4A4C5431 kind src dst with
  | good => rfl
  | bad why => cases why <;> rfl
  | dead u => rfl

/-- What follows a good token runs once the nonce is discarded. -/
theorem tokenAnswer_congr {h : HsmJob} {kind src dst : Nat} {f g : Block → Block} {b : Block} (hfg : f (dropNonce b) = g (dropNonce b)) :
    Claims.tokenAnswer h kind src dst f b = Claims.tokenAnswer h kind src dst g b := by
  unfold Claims.tokenAnswer
  rw [hfg]

/-! ### Transitions -/

theorem drainComplete_programs {b : Block} {h : HsmJob} {row : LcsRow} (took : Nat)
    (hf : b.kpr.hsm.find? (fun y => y.stage == .lcsDrain) = some h) (hrow : lcsRow b (leAt h.note 0 1) = some row) (hd : drained b h = true)
    (hk : keeperRuns b = true) (hr : leAt h.note 0 1 = 2 → b.rng.state = .ready) :
    let target := leAt h.note 0 1
    let c := if target = 2 then programSecret b else b
    let t := programLcs ((row.groups.foldl (fun m g => m ||| groupBits g) 0) &&& took) c
    drainComplete took b = if groupTaken (lcsField64 t) (row.groups.head?.getD 0)
      then settleAll ((hsmOk h target [] t).onOtp (fun o => { o with resetDue := true })) else settleAll (hsmFail h 0x0008 0 t) := by
  have hready : ¬(leAt h.note 0 1 = 2 ∧ b.rng.state ≠ .ready) := fun hc => hc.2 (hr hc.1)
  have hworks : ¬(leAt h.note 0 1 = 2 ∧ b.rng.state = .failed) := fun hc => by
    have h2 := hr hc.1
    rw [hc.2] at h2
    cases h2
  simp only [drainComplete, hf, hrow, hd, hk, Bool.true_eq_false, or_self, if_false, if_neg hready, if_neg hworks]

/-- Settles O27: the branch of `lcsAdvance`, of `drainComplete` and of `transitionReset` that each hypothesis picks. -/
theorem lifeCycleAdvances : Obligations.LifeCycleAdvances := by
  dsimp only [Obligations.LifeCycleAdvances]
  refine ⟨fun s h row session hp hbad hrow => ⟨fun ht => ?_, fun kind ht => ?_⟩, fun s h row took hf hrow hd hk hr => ?_,
    fun s h row took hf h2 hrow hd hk hr => ?_, fun s => ⟨fun hd hw => ?_, fun hn => ?_⟩⟩
  · refine next_of_passes rfl hp ?_
    simp only [lcsAdvance, hbad, hrow, ht]
  · refine next_of_passes rfl hp ?_
    simp only [lcsAdvance, hbad, hrow, ht]
    exact tokenThen_eq_tokenAnswer h kind _ _ _ _
  · exact next_congr (drainComplete_programs took hf hrow hd hk hr)
  · refine next_congr ?_
    show drainComplete took s.blk = _
    simp only [drainComplete, hf, h2, hrow, hd, hk, hr, Bool.true_eq_false, or_self, if_false, and_self, if_true]
  · exact next_congr (if_pos ⟨hd, hw⟩)
  · have hstays : transitionReset s.blk = s.blk := if_neg (fun ⟨hd, hw⟩ => hn.elim (fun h => by simp [h] at hd) hw)
    exact next_congr hstays

/-! ### Fuses -/

/-- Consuming a session leaves OTP and the supplies. -/
theorem otp_consumed (session : Option EqxSession) (b : Block) : (consumed session b).otp = b.otp := by cases session <;> rfl
theorem sup_consumed (session : Option EqxSession) (b : Block) : (consumed session b).sup = b.sup := by cases session <;> rfl
theorem otpWord_consumed (session : Option EqxSession) (b : Block) : otpWord (consumed session b) = otpWord b := by cases session <;> rfl

/-- Settles O28: each command in its turn, its checks passed one by one. -/
theorem fusesProgrammedByCommands : Obligations.FusesProgrammedByCommands := by
  dsimp only [Obligations.FusesProgrammedByCommands]
  refine ⟨fun s h hp he => ?_, fun s => rfl, ?_, ?_, ?_⟩
  · refine next_of_passes (rule := fun h _ => { ruleAny h.block with sender := isPf0 h.req || !isFn h.req }) rfl hp ?_
    simp only [consumed, lcsGetNonce, he, ne_eq, not_true_eq_false, if_false]
  · intro s h session hp hl hz he
    refine next_of_passes rfl hp ?_
    simp only [tokenRevoke, hl, hz, Nat.not_lt.mpr he, ne_eq, not_true_eq_false, Bool.true_eq_false, or_self, if_false]
    refine (tokenThen_eq_tokenAnswer h _ _ _ _ _).trans (tokenAnswer_congr ?_)
    have hsup : (dropNonce (consumed session s.blk)).sup.ana.good = s.blk.sup.ana.good := by cases session <;> rfl
    simp only [fused, hsup, otpWord_consumed, Bool.not_eq_true', Claims.tokenOf]
    split
    · rfl
    · rfl
  · intro s h x vs e hp hi he hn hz hw
    refine next_of_passes (rule := fun h _ => ruleQuorum h.req h.block 0 0x0005 0x0005) rfl hp ?_
    have hn' : ¬ leAt (bkParam h.block) 2 2 = 0 := by omega
    simp only [consumed, Claims.spent, otpProgramCmd, hi, he, hz, hn', Nat.not_lt.mpr hw, Bool.true_eq_false, or_self, if_false, fused]
    rfl
  · intro s h x hp hl hz hs he hprog hrev
    refine next_of_passes (rule := fun h _ => ruleQuorum h.req h.block 0 0x0103 0x0103) rfl hp ?_
    simp only [Claims.spent] at hs hprog hrev
    simp only [consumed, Claims.spent, rootRevoke, hl, hz, hs, Nat.not_lt.mpr he, hprog, hrev, ne_eq, not_true_eq_false, Bool.true_eq_false,
      Bool.false_eq_true, or_self, if_false, fused]
    rfl

end Sys2Proof.LifeCycleCommands
end

section
/-! PROOFS. Records, certificates, attestations and Harvests (R175 to R178, R445). -/

namespace Sys2Proof.EvidenceCommands

open Sys2Proof Sys2Proof.Machine Sys2Proof.Claims Sys2Proof.Steps Sys2Proof.KeyCommands Sys2Proof.EquinoxCommands

/-! ### For the host -/

theorem evidenceEnd_eq_ended (h : HsmJob) (cap : Nat) (e : Evidence) (b : Block) : evidenceEnd h cap e b = Claims.ended h cap e b := by
  cases e <;> rfl

/-- The certificate or chain that GET_CERT names. -/
theorem certEvidence_of_named {b : Block} {alg which : Nat} {out : Bytes} (ha : alg = 1 ∨ alg = 2) (hk : b.key.aliasCdi.isSome = true)
    (hout : which = 3 ∧ out = certChain b (alg == 1) ∨
      which < 3 ∧ certOf b (alg == 1) (if which = 0 then .mfg else if which = 1 then .deviceId else .aliasId) = some out) :
    certEvidence alg which 0 b = .ok 0 out.length out := by
  have hhead : ¬(alg < 1 ∨ 2 < alg ∨ 3 < which ∨ (0 : Nat) ≠ 0) := by omega
  have hkey : b.key.aliasCdi.isNone = false := by simpa using hk
  rcases hout with ⟨rfl, rfl⟩ | ⟨hlt, hcert⟩
  · simp only [certEvidence, if_neg hhead, hkey, Bool.false_eq_true, if_false, if_true]
  · have hne : which ≠ 3 := Nat.ne_of_lt hlt
    simp only [certEvidence, if_neg hhead, hkey, Bool.false_eq_true, if_false, if_neg hne, hcert]

/-- With a record made, a nonce is signed with it. -/
theorem attestEvidence_of_newest {b : Block} {top : RetFrame} (ht : newestRecord b = some top) (nonce : Bytes) (who world : Nat) :
    attestEvidence nonce who world b =
      (.ok 0 (frBoot top.frame) (Claims.statement b nonce top who world).1, (Claims.statement b nonce top who world).2) := by
  simp only [attestEvidence, ht]
  rfl

theorem evidenceForTheHost : Claims.EvidenceForTheHost := by
  dsimp only [Claims.EvidenceForTheHost]
  refine ⟨fun s h flash hp hl hsel hz hr => ?_, fun s h out hp hl ha hz hk hout => ?_, fun s h top hp hlo hhi hl hz hd ht => ?_⟩
  · have hgo : ringRun (evidenceRun 1 .none (getRecord flash) h.id) s.blk = evidenceRun 1 .none (getRecord flash) h.id s.blk := if_pos hr
    refine next_of_passes (c := .getRecord h.id flash) (rule := fun h _ => ruleAny h.block) (next_congr hgo) hp ?_
    have hhead : ¬(2 < leAt (bkParam h.block) 0 1 ∨ leAt (bkParam h.block) 1 1 ≠ 0) := by omega
    simp only [consumed, getRecord, hl, ne_eq, not_true_eq_false, if_false, evidenceEnd_eq_ended, recordEvidence, if_neg hhead] <;> rfl
  · refine next_of_passes (rule := fun h _ => ruleAny h.block) rfl hp ?_
    simp only [consumed, getCert, hl, ne_eq, not_true_eq_false, if_false, evidenceEnd_eq_ended, hz, certEvidence_of_named ha hk hout]
  · refine next_of_passes (rule := fun h _ => ruleAny h.block) rfl hp ?_
    have hhead : ¬(leAt (bkParam h.block) 0 1 < 8 ∨ 64 < leAt (bkParam h.block) 0 1 ∨
        (bkParam h.block).length ≠ 8 + leAt (bkParam h.block) 0 1 ∨ allZero (bkParam h.block) 1 3 = false) := by
      rw [hz]; simp only [Bool.true_eq_false, or_false]; omega
    simp only [consumed, attest, if_neg hhead, hd, attestEvidence_of_newest ht, evidenceEnd]
    cases h.req <;> exact ite_congr rfl (fun hlong => congrArg (hsmFail h _ _) (if_pos hlong))
      (fun hfit => congrArg (hsmFinish h stSuccess 0 _ _) (if_neg hfit))

/-! ### Over the sideband -/

/-- A request of a frame that is served, and its reply. -/
theorem viaRun_frame {b c : Block} {body p bs : Bytes} {code tag : Nat} {f : Nat → Bytes → Block → Answer × Block}
    (h : Claims.Served b body code tag p) (hf : f 0 p (intoFramed b) = (.reply bs, c)) :
    viaRun code (.frame body) f b = Claims.byFrame code tag (bs, c) := by
  obtain ⟨ht, hp, hr⟩ := h
  simp only [viaRun, frameRun, ht, hp, hr, hf, Bool.true_eq_false, if_false, ne_eq, not_true_eq_false]
  rfl

/-- A request over MCTP that is served, and its reply. -/
theorem viaRun_mctp {b c : Block} {p bs : Bytes} {code target : Nat} {f : Nat → Bytes → Block → Answer × Block}
    (h : Claims.ServedMctp b target) (hf : f 1 p b = (.reply bs, c)) : viaRun code (.mctp target p) f b = Claims.byMctp code (bs, c) := by
  obtain ⟨ht, hk⟩ := h
  simp only [viaRun, ht, hk, hf, Bool.true_eq_false, Bool.false_eq_true, or_self, if_false]
  rfl

/-- The reply of an outcome is its own. -/
theorem evidenceReply_eq (e : Evidence) : evidenceReply e = .reply (Claims.evidenceOf e) := by cases e <;> rfl

theorem recordGet_answer {f : FlashView} {p : Bytes} (hl : p.length = 12) (by_ : Nat) (b : Block) :
    unlessFrozen (recordGet f) by_ p b = (.reply (Claims.recordAnswer f p b).1, (Claims.recordAnswer f p b).2) := by
  by_cases hz : b.run.state = .frozen
  · simp only [unlessFrozen, Claims.recordAnswer, hz, if_true]
    rfl
  · simp only [unlessFrozen, Claims.recordAnswer, hz, if_false, recordGet, hl, ne_eq, not_true_eq_false, evidenceReply_eq]

theorem certGet_answer {p : Bytes} (hl : p.length = 4) (by_ : Nat) (b : Block) :
    unlessFrozen certGet by_ p b = (.reply (Claims.certAnswer p b).1, (Claims.certAnswer p b).2) := by
  by_cases hz : b.run.state = .frozen
  · simp only [unlessFrozen, Claims.certAnswer, hz, if_true]
    rfl
  · simp only [unlessFrozen, Claims.certAnswer, hz, if_false, certGet, hl, ne_eq, not_true_eq_false, evidenceReply_eq]

theorem harvestGet_answer {p : Bytes} (hl : p.length = 1) (hs : leAt p 0 1 ≤ 1) (by_ : Nat) (b : Block) :
    harvestGet by_ p b = (.reply (Claims.harvestAnswer p b).1, (Claims.harvestAnswer p b).2) := by
  have hhead : ¬(p.length ≠ 1 ∨ 1 < leAt p 0 1) := by omega
  simp only [harvestGet, Claims.harvestAnswer, if_neg hhead]
  split
  · rfl
  · split
    · rfl
    · cases b.evr.solstice <;> rfl

theorem attestGet_answer {p : Bytes} {b : Block} {top : RetFrame} (hz : b.run.state ≠ .frozen) (hlo : 8 ≤ leAt p 0 1) (hhi : leAt p 0 1 ≤ 64)
    (hl : p.length = 4 + leAt p 0 1) (hzero : allZero p 1 3 = true) (ht : newestRecord b = some top) (by_ : Nat) :
    unlessFrozen attestGet by_ p b = (.reply (Claims.evidenceBytes 0 (frBoot top.frame) (Claims.statement b (p.drop 4) top (0xFFFE + by_) 0).1),
      (Claims.statement b (p.drop 4) top (0xFFFE + by_) 0).2) := by
  have hhead : ¬(leAt p 0 1 < 8 ∨ 64 < leAt p 0 1 ∨ p.length ≠ 4 + leAt p 0 1 ∨ allZero p 1 3 = false) := by
    rw [hzero]; simp only [Bool.true_eq_false, or_false]; omega
  simp only [unlessFrozen, hz, if_false, attestGet, if_neg hhead, attestEvidence_of_newest ht]
  rfl

theorem evidenceOverTheSideband : Claims.EvidenceOverTheSideband := by
  dsimp only [Claims.EvidenceOverTheSideband]
  refine ⟨fun s f body tag p h hl hr => ?_, fun s f target p h hl hr => ?_, fun s body tag p h hl => ?_, fun s target p h hl => ?_,
    fun s body tag p h hl hs => ?_, fun s target p h hl hs => ?_, fun s p top hz hlo hhi hl hzero ht => ⟨fun body tag h => ?_, fun target h => ?_⟩⟩
  · have hgo : ringRun (viaRun 0x10 (.frame body) (unlessFrozen (recordGet f))) s.blk = _ :=
      (if_pos hr).trans (viaRun_frame h (recordGet_answer hl 0 _))
    exact next_congr hgo
  · have hgo : ringRun (viaRun 0x10 (.mctp target p) (unlessFrozen (recordGet f))) s.blk = _ :=
      (if_pos hr).trans (viaRun_mctp h (recordGet_answer hl 1 _))
    exact next_congr hgo
  · exact next_congr (viaRun_frame h (certGet_answer hl 0 _))
  · exact next_congr (viaRun_mctp h (certGet_answer hl 1 _))
  · exact next_congr (viaRun_frame h (harvestGet_answer hl hs 0 _))
  · exact next_congr (viaRun_mctp h (harvestGet_answer hl hs 1 _))
  · exact next_congr (viaRun_frame h (attestGet_answer (b := intoFramed s.blk) hz hlo hhi hl hzero ht 0))
  · exact next_congr (viaRun_mctp h (attestGet_answer hz hlo hhi hl hzero ht 1))

/-- Settles O29: what each evidence command finds, ended at the host or replied over a sideband transport. -/
theorem evidenceGiven : Obligations.EvidenceGiven := ⟨evidenceForTheHost, evidenceOverTheSideband⟩

end Sys2Proof.EvidenceCommands
end

section
/-! PROOFS. The recorder's commands (R441, R444, R447, R448) and the alert response (R51). -/

namespace Sys2Proof.RecorderCommands

open Sys2Proof Sys2Proof.Machine Sys2Proof.Claims Sys2Proof.Steps Sys2Proof.EquinoxCommands

/-- What an admin descriptor does that waits and that no refusal meets. -/
theorem adminRun_of_ready {b : Block} {j : Job} {op : Nat} (hr : AdminReady b j op) (act : Job → Block → Block) :
    adminRun op j.id act b = settleAll (act j (begun b j)) := by
  obtain ⟨⟨hj, hs, ho, hc⟩, hd, hf, hn⟩ := (id hr : (_ ∧ _ ∧ _ ∧ _) ∧ _ ∧ _ ∧ _)
  exact adminRun_go act hj hs ho hd hc hf hn

/-- Reading a cell just written. -/
theorem evCell_putCell_same (i : Nat) (c : EvCell) (b : Block) : evCell (putCell i c b) i = c :=
  (tgetD_tset _ b.evr.cells i i c).trans (if_pos rfl)

/-- Writing a cell leaves the others. -/
theorem evCell_putCell_of_ne {i k : Nat} (hk : k ≠ i) (c : EvCell) (b : Block) : evCell (putCell i c b) k = evCell b k :=
  (tgetD_tset _ b.evr.cells i k c).trans (if_neg hk)

/-- Settles O30: each command's body where nothing refuses it. -/
theorem recorderCommands : Obligations.RecorderCommands := by
  dsimp only [Obligations.RecorderCommands]
  refine ⟨fun s j hr => ?_, fun s h x hp hz => ?_, fun s i hlo hhi hu ht => ?_, fun s hk ht => ?_, fun s => ⟨fun hs hd ha => ?_, fun hno => ?_⟩⟩
  · exact next_congr (adminRun_of_ready hr _)
  · refine next_of_passes (rule := fun h _ => ruleQuorum h.req h.block 0 0x0506 0x0509) rfl hp ?_
    have hzero : ¬((bkParam h.block).any (· != 0) = true) := by simpa [Bool.not_eq_true] using hz
    simp only [consumed, harvestClear, if_neg hzero]
    rfl
  · refine ⟨_, next_congr (if_pos ⟨Nat.ne_of_gt hlo, hhi, hu, ht⟩), evCell_putCell_same i _ _, fun k hk => evCell_putCell_of_ne hk _ _, rfl⟩
  · exact next_congr (if_pos (by simp [hk, ht]))
  · exact next_congr (if_neg (by simp [hs, hd, ha]))
  · exact next_congr (if_pos hno)

end Sys2Proof.RecorderCommands
end

section
/-! PROOFS. Activation (R119), the keeper's live update (R466 to R468), debug unlock (R496, R497). -/

namespace Sys2Proof.UpdateCommands

open Sys2Proof Sys2Proof.Machine Sys2Proof.Claims Sys2Proof.Steps Sys2Proof.KeyCommands Sys2Proof.EquinoxCommands

/-! ### BOOT_ACTIVATE -/

/-- Well-formed parameters of BOOT_ACTIVATE pass its first check. -/
theorem not_badActivation {p : Bytes} (hl : p.length = 8) (hport : leAt p 0 1 ≤ 1) (hcls : leAt p 1 1 ≤ 7) (hz : allZero p 2 6 = true) :
    ¬(p.length ≠ 8 ∨ 1 < leAt p 0 1 ∨ 7 < leAt p 1 1 ∨ allZero p 2 6 = false) := by
  rw [hz]
  simp only [Bool.true_eq_false, or_false]
  omega

/-- The slots an activation reads on the booted port, as the claim and the model name them. -/
theorem inactive_eq (b : Block) (cls : Nat) :
    (match (tget b.boot.classes cls).filter (·.accepted) with | some c => [1 - c.slot] | none => [0, 1]) = Claims.inactive b cls := by
  unfold Claims.inactive
  cases tget b.boot.classes cls with
  | none => rfl
  | some c => cases hc : c.accepted <;> simp [Option.filter, hc]

/-- A flash operation that an activation alone waits for hands its bytes to that activation. -/
theorem flashDone_keeper {p : Nat} {data : Bytes} {ok : Bool} {b : Block} {o : FlashOp} {job : Nat} (ho : (portOf b p).running = some o)
    (hw : o.waiters = [.keeper job]) : flashDone p data ok b = actStep job (slice data 0 o.len) ok (flashOpComplete p data ok b) := by
  simp only [flashDone, ho, hw, List.foldl]

/-- A flash error of a read fails the slot. -/
theorem actStep_read_error {b : Block} {h : HsmJob} {a : Activation} (ha : actOf b h.id = some (h, a)) (data : Bytes)
    (hr : a.step = .dir ∨ (∃ i, a.step = .manifest i ∨ a.step = .marker i) ∨ a.step = .image) :
    actStep h.id data false b = Claims.actOver h (hsmFail h 0x0104 0xE) b := by
  rcases hr with hs | ⟨i, hs | hs⟩ | hs <;> simp only [actStep, ha, hs] <;> rfl

/-- A flash error of the marker's program or readback fails the marker. -/
theorem actStep_marker_error {b : Block} {h : HsmJob} {a : Activation} (ha : actOf b h.id = some (h, a)) (data : Bytes)
    (hm : a.step = .program ∨ a.step = .readback) : actStep h.id data false b = Claims.actOver h (hsmFail h 0x0106 0) b := by
  rcases hm with hs | hs <;> simp only [actStep, ha, hs] <;> rfl

/-- The readback of the marker ends the activation. -/
theorem actStep_readback {b : Block} {h : HsmJob} {a : Activation} (ha : actOf b h.id = some (h, a)) (hs : a.step = .readback) (data : Bytes) :
    actStep h.id data true b = if data = a.mark then Claims.actOver h (fun b => hsmOk h (leAt a.mark 8 4) [] (clearRecovery a.cls b)) b
      else Claims.actOver h (hsmFail h 0x0106 0) b := by
  simp only [actStep, ha, hs]
  rfl

/-! ### UPDATE_KEEPER -/

/-- Suspending and resuming what runs on a port only sends to its pins. -/
theorem aroundRead_out (p kind : Nat) (b : Block) : ∃ o, aroundRead p kind b = { b with out := o } := by
  unfold aroundRead
  split
  · exact ⟨_, rfl⟩
  · exact ⟨b.out, rfl⟩

theorem whileRead_id_out (p : Nat) (b : Block) : ∃ o, whileRead p id b = { b with out := o } := by
  obtain ⟨o, ho⟩ := aroundRead_out p 4 b
  obtain ⟨o', ho'⟩ := aroundRead_out p 5 (aroundRead p 4 b)
  exact ⟨o', ho'.trans (by rw [ho])⟩

/-- UPDATE_KEEPER in its turn, well formed and with a slot to try: the slot is judged. -/
theorem updateKeeper_of_slot {b : Block} {h : HsmJob} {f : FlashView} {e : DirEntry} {i : Nat} (hsv : b.run.state = .service)
    (hdue : b.otp.resetDue = false)
    (hbusy : b.kpr.hsm.any (fun y => y.id != h.id && (y.stage == .lcsDrain || y.stage == .keeperSwitch || y.stage == .activating)) = false)
    (hslot : Claims.newSlot b f (leAt (bkParam h.block) 0 1) e i) (hd : hybridDead (whileRead (leAt (bkParam h.block) 0 1) id b) = none) :
    updateKeeper f h b =
      (let port := leAt (bkParam h.block) 0 1
      let v := f.port port
      let m := (slotCopy v e i).manifest
      let c := whileRead port id b
      let code := judgeSlot (otpWord c) c.run.lcs keeperFits v e i
      if code ≠ 1 then hsmFail h 0x0705 code c
      else if mVersion m < (runningKeeper c).2 ∨ keysMfg (keysUsed (otpWord c) c.run.lcs 0 m) ≠ c.boot.mfgKey then hsmFail h 0x0706 0 c
      else sendBack (fun y => y.id != h.id) ((onHsm h.id (fun y => { y with stage := .keeperSwitch, note := [BitVec.ofNat 8 i] }) c).onKpr
          (fun k => { k with stopped := true, update := some m }))) := by
  obtain ⟨he, hsrc, hnext, hnew⟩ := hslot
  have hhead : ¬(b.run.state ≠ .service ∨ b.otp.resetDue = true ∨
      b.kpr.hsm.any (fun y => y.id != h.id && (y.stage == .lcsDrain || y.stage == .keeperSwitch || y.stage == .activating)) = true) := by
    rw [hsv, hdue, hbusy]; decide
  have hother : ¬((whileRead (leAt (bkParam h.block) 0 1) id b).boot.source ≠ leAt (bkParam h.block) 0 1 + 1 ∨
      some i = some (runningKeeper (whileRead (leAt (bkParam h.block) 0 1) id b)).1) := by
    obtain ⟨o, ho⟩ := whileRead_id_out (leAt (bkParam h.block) 0 1) b
    rw [ho]
    exact not_or.mpr ⟨not_not.mpr hsrc, fun h => hnew (Option.some.inj h)⟩
  simp only [updateKeeper, if_neg hhead, he, hsrc, if_true, hnext, if_neg hother, hd]

/-- UPDATE_KEEPER that passes, well formed and while the keeper may take it. -/
theorem updateRun_of_passes {b : Block} {h : HsmJob} {x : EqxSession} {f : FlashView}
    (hp : Passes b h 0x22 (ruleQuorum h.req h.block 0 0x0702 0x0702) (some x)) (hform : updateParamsOk (bkParam h.block) = true)
    (hroom : updateRoom b h.id = true) : updateRun f h.id b = settleAll (updateKeeper f h (dropSession x.sid b)) := by
  have hrun := hsmRun_of_passes (rule := fun h _ => ruleQuorum h.req h.block 0 0x0702 0x0702) hp (fun _ => .none) (fun h _ b => updateKeeper f h b)
  obtain ⟨hready, -, -, -⟩ := hp
  simp only [updateRun, hready, hform, hroom, Bool.true_eq_false, and_false, if_false, if_true]
  exact hrun

theorem activationUpdateAndDebug : Claims.ActivationUpdateAndDebug := by
  dsimp only [Claims.ActivationUpdateAndDebug]
  refine ⟨fun s h f hp hl hport hcls hz hsv hfree => ⟨fun hother => ?_, fun e hsame he => ?_⟩,
    fun s p data ok o h a ho hw ha => ⟨fun hok hr => ?_, fun hok hm => ?_, fun hok hr => ?_⟩,
    fun s h x f e i hp hform hmay hslot hd => ?_, fun s h x hp hlo hhi hd => ?_⟩
  · refine next_of_passes (rule := fun h _ => rulePlain h.req h.block) rfl hp ?_
    simp only [consumed, bootActivate, if_neg (not_badActivation hl hport hcls hz), hsv, hfree, ne_eq, not_true_eq_false, Bool.false_eq_true, or_self, if_false]
    exact if_neg hother
  · refine next_of_passes (rule := fun h _ => rulePlain h.req h.block) rfl hp ?_
    simp only [consumed, bootActivate, if_neg (not_badActivation hl hport hcls hz), hsv, hfree, ne_eq, not_true_eq_false, Bool.false_eq_true, or_self,
      if_false, hsame, if_true, he]
    rw [← inactive_eq]
    rfl
  · subst hok
    exact next_congr ((flashDone_keeper ho hw).trans (actStep_read_error ha _ hr))
  · subst hok
    exact next_congr ((flashDone_keeper ho hw).trans (actStep_marker_error ha _ hm))
  · subst hok
    exact next_congr ((flashDone_keeper ho hw).trans (actStep_readback ha hr _))
  · obtain ⟨hsv, hdue, hroom, hbusy⟩ := hmay
    exact next_congr ((updateRun_of_passes hp hform hroom).trans (congrArg settleAll
      (updateKeeper_of_slot (b := dropSession x.sid s.blk) hsv hdue hbusy hslot hd)))
  · refine next_congr (congrArg (countRefusal h.id s.blk) ((hsmRun_of_passes (rule := fun h _ => ruleDebug h) hp _ _).trans (congrArg settleAll ?_)))
    have hlcs : ¬(s.blk.run.lcs ≤ 1 ∨ s.blk.run.lcs = 5) := by omega
    exact if_neg hlcs

/-! ### The switch of UPDATE_KEEPER -/

theorem keeperSwitches : Claims.KeeperSwitches := by
  dsimp only [Claims.KeeperSwitches]
  intro s h m f hh hm hk ha hb
  refine next_congr ?_
  have hgo : ¬(keeperRuns s.blk = false ∨ writableNow s.blk 0 = false ∨ writableNow s.blk 1 = false) := by simp [hk, ha, hb]
  simp only [keeperSwitch, hh, hm, if_neg hgo]
  rfl

/-- Settles O31: the activation's start and its operations' ends, the keeper's update and its switch, and debug unlock. -/
theorem updatesAndDebug : Obligations.UpdatesAndDebug := ⟨activationUpdateAndDebug, keeperSwitches⟩

end Sys2Proof.UpdateCommands
end

section
/-! PROOFS. The host link: training, reads, bad requests, host power-good (R184, R185, R198 to R205). -/

namespace Sys2Proof.LinkCommands

open Sys2Proof Sys2Proof.Machine Sys2Proof.Claims Sys2Proof.Steps Sys2Proof.UnimplementedRange

/-! ### Training (R184, R185) -/

/-- A link that is not down falls, with its resets. -/
theorem dlDown_of_up {b : Block} (hp : b.link.phase ≠ .down) : dlDown b = settleAll (linkDown b) := if_neg hp

/-- Settles O32: training, its timeout, the retrain, the correctable errors and the fall of the link. -/
theorem linkTrainsAndFalls : Obligations.LinkTrainsAndFalls := by
  dsimp only [Obligations.LinkTrainsAndFalls]
  refine ⟨fun s rate w0 w1 n hp ha hw => ?_, fun s m ha hp => ?_, fun s hp => ⟨?_, fun posted => ⟨?_, ?_⟩⟩, fun s hp => ⟨?_, ?_, ?_⟩⟩
  · have hgo : ¬(s.blk.link.phase = .active ∨ linkAnswers s.blk = false ∨ (Claims.widthOf s.blk 0 w0 = .none ∧ Claims.widthOf s.blk 1 w1 = .none)) := by
      rw [ha]; rintro (h | h | ⟨h0, h1⟩)
      · exact hp h
      · cases h
      · exact hw.elim (· h0) (· h1)
    refine next_congr ?_
    unfold linkTrained
    refine (if_neg hgo).trans ?_
    simp only [decide_eq_true_eq]
    rfl
  · exact next_congr (if_pos ⟨ha, hp⟩)
  · exact next_congr (if_pos hp)
  · exact next_congr (if_pos hp)
  · exact next_congr (if_pos hp)
  · exact next_congr (dlDown_of_up hp)
  · exact next_congr (dlDown_of_up hp)
  · exact next_congr (congrArg (fun b => b.onLink (fun l => { l with refclk := false })) (dlDown_of_up hp))

/-! ### Reads of host memory (R201) -/

theorem pieceEnds_eq_requestEnded {b : Block} {p : ReadPiece} {r : ReadReq} {tag : Nat} (res : HostData) (progress : Nat)
    (hr : (Claims.tagFree tag b).work.reads.find? (fun x => x.num == p.num) = some r) :
    pieceEnds tag p res progress b = Claims.requestEnded p r res progress (Claims.tagFree tag b) := by
  unfold Claims.tagFree at hr
  simp only [pieceEnds, hr]
  rfl

/-- What comes for a read that has ended is dropped. -/
theorem pieceEnds_of_ended {b : Block} {p : ReadPiece} {tag : Nat} (res : HostData) (progress : Nat)
    (hr : (Claims.tagFree tag b).work.reads.find? (fun x => x.num == p.num) = none) : pieceEnds tag p res progress b = Claims.tagFree tag b := by
  unfold Claims.tagFree at hr
  simp only [pieceEnds, hr]
  rfl

/-- A completion of a request in flight. -/
theorem readCompletion_of_piece {b : Block} {p : ReadPiece} {tag : Nat} (hp : tget b.work.pieces tag = some p) (res : HostData) (progress : Nat) :
    readCompletion tag res progress b = pieceEnds tag p res progress (Claims.poisonNoted p.fn res b) := by
  simp only [readCompletion, hp]
  rfl

theorem readsEnd : Claims.ReadsEnd := by
  dsimp only [Claims.ReadsEnd]
  refine ⟨fun s p tag progress res hp => ⟨fun r hr => ?_, fun hr => ?_⟩, fun s fn tag progress res hp ht => ?_,
    fun s p r tag progress got hp hl hr => ?_⟩
  · exact next_congr ((readCompletion_of_piece hp res progress).trans (pieceEnds_eq_requestEnded res progress hr))
  · exact next_congr ((readCompletion_of_piece hp res progress).trans (pieceEnds_of_ended res progress hr))
  · refine next_congr ?_
    simp only [readCompletion, hp, ht]
  · refine next_congr ?_
    simp only [readTimeout, hp, if_neg (Nat.not_le.mpr hl)]
    exact pieceEnds_eq_requestEnded _ progress hr

/-! ### Requests that nothing serves (R14, R201, R205) -/

theorem badRequestsNoted : Claims.BadRequestsNoted := by
  dsimp only [Claims.BadRequestsNoted]
  refine ⟨fun s fn off posted => ⟨fun he hi => ?_, fun he => ?_, fun hd => ?_, rfl⟩, fun s fn he => ?_, fun s fn off len hw he hd hi => ?_⟩
  · exact next_congr (if_pos ⟨he, hi⟩)
  · exact next_congr (if_neg (by rw [he]; decide))
  · exact next_congr (if_pos hd)
  · exact next_congr (if_pos he)
  · have hserved : ¬(fnEnabled s.blk fn = false ∨ (fnOf s.blk fn).d3hot = true ∨ implemented fn off = false) := by simp [he, hd, hi]
    exact ⟨next_congr ((if_neg hw).trans (if_neg hserved)), next_congr ((if_neg hw).trans (if_neg hserved))⟩

/-- Settles O34: how a read request ends, and what a bad request leaves. -/
theorem readsAndBadRequests : Obligations.ReadsAndBadRequests := ⟨readsEnd, badRequestsNoted⟩

/-! ### Host power-good (R198 to R200) -/

/-- A change of what power-good is made of, with the report of its fall. -/
theorem pwrgdChange_eq (f : Block → Block) (b : Block) :
    pwrgdChange f b = if hostPwrgdOk b = true ∧ hostPwrgdOk (f b) = false then event 0x001 0 (f b) else f b := by
  unfold pwrgdChange
  simp only [Bool.and_eq_true, Bool.not_eq_true']

/-- A device interrupt leaves the count of resends. -/
theorem hsResends_raiseIrq (i : Nat) (b : Block) : (raiseIrq i b).link.hsResends = b.link.hsResends := by
  unfold raiseIrq msixOwe msixSend
  split
  · rfl
  · dsimp only
    split
    · split
      · rfl
      · split
        · rfl
        · rcases emit_cases 0 (.msix 0 _ _) _ with h | h <;> exact congrArg (·.link.hsResends) h
    · rfl

/-- HOST_RESET waits for its acknowledgement: sent again, counted and reported. -/
theorem hostResend_of_pending {b : Block} {v : Bool} (hv : b.link.hsPending = some v) :
    hostResend b = event 0x002 (sat32 (b.link.hsResends + 1)) (send (.sideband 1 v)
      ((if b.link.hsNoAck then b else raiseIrq irqLink b).onLink (fun l => { l with hsNoAck := true, hsResends := sat32 (b.link.hsResends + 1) }))) := by
  simp only [hostResend, hv]
  cases b.link.hsNoAck <;> simp [hsResends_raiseIrq]

/-- Settles O35: each message and pin of the handshake. -/
theorem hostPowerGoodHandshake : Obligations.HostPowerGoodHandshake := by
  dsimp only [Obligations.HostPowerGoodHandshake]
  refine ⟨fun s v => ⟨?_, ?_⟩, fun s hs hg hh => ?_, fun s hs hh hg => ?_, fun s v hv => ⟨?_, ?_⟩, fun s hu => ?_⟩
  · exact next_congr (congrArg (send (.sideband 3 v)) (pwrgdChange_eq _ s.blk))
  · exact next_congr (pwrgdChange_eq _ s.blk)
  · exact next_congr (if_pos ⟨hs, hg, hh⟩)
  · exact next_congr (if_pos ⟨hs, hh, hg⟩)
  · exact next_congr (if_pos hv)
  · exact next_congr (hostResend_of_pending hv)
  · exact next_congr (if_neg (by simp [hu]))

end Sys2Proof.LinkCommands
end

section
/-! PROOFS. The random source (R369 to R374), engine alarms (R21). -/

namespace Sys2Proof.UnitAlarms

open Sys2Proof Sys2Proof.Machine Sys2Proof.Claims Sys2Proof.Steps

/-! ### The random source -/

/-- An alarm of the source counts its self-test and reports that count. -/
theorem source_of_rngAlarm (b : Block) : rngAlarm b = Claims.sourceAlarm b := by
  simp only [rngAlarm, Claims.sourceAlarm, Block.onRng]

/-- Start-up tests end as they passed or failed. -/
theorem rngTested_of_startup {b : Block} (hr : rngRuns b = true) (hs : b.rng.state = .startup) (pass : Bool) :
    rngTested pass b = if pass = true then rngPassed b else Claims.sourceAlarm b := by
  simp only [rngTested, hr, hs, rngTestFailed, source_of_rngAlarm, beq_self_eq_true, Bool.true_or, Bool.true_and, if_true]

/-- A continuous test fails while the source gives bits or tests itself at start-up. -/
theorem rngHealthFail_of_running {b : Block} {proportion : Bool} (hr : rngRuns b = true)
    (hs : (Claims.healthFailed proportion b).rng.state = .ready ∨ (Claims.healthFailed proportion b).rng.state = .startup) :
    rngHealthFail proportion b =
      if 3 ≤ (Claims.recentFails (Claims.healthFailed proportion b)).length then Claims.sourceAlarm (Claims.healthFailed proportion b)
      else (Claims.healthFailed proportion b).onRng (fun r =>
        { r with state := .startup, runFails := Claims.recentFails (Claims.healthFailed proportion b) }) := by
  simp only [rngHealthFail, hr, Bool.true_eq_false, if_false, source_of_rngAlarm]
  exact if_pos hs

/-- The raw word in BLANK and TEST. -/
theorem rngRaw_open {b : Block} (hl : b.run.lcs ≤ 1) (hr : rngRuns b = true) :
    rngRaw b = ((Config.rawBits b.rng.raw).toNat, b.onRng (fun r => { r with raw := r.raw + 1 })) := if_pos ⟨hl, hr⟩

theorem rngRaw_closed {b : Block} (hl : 2 ≤ b.run.lcs) : rngRaw b = (0, b) := if_neg (by omega)

/-- Settles O36: each end of a test, the reseed, the raw word and the consumers' timeout. -/
theorem randomSource : Obligations.RandomSource := by
  dsimp only [Obligations.RandomSource]
  refine ⟨fun s hr hs => ⟨?_, ?_⟩, fun s proportion hr hs => ?_, fun s one hr hs => ?_, fun s he hd hf => ⟨fun hl hr => ?_, fun hl => ?_⟩,
    fun s hs => ⟨fun h hh => ?_, fun j hh hj hst ho => ?_⟩⟩
  · exact next_congr ((rngTested_of_startup hr hs true).trans (if_pos rfl))
  · exact next_congr ((rngTested_of_startup hr hs false).trans (if_neg Bool.false_ne_true))
  · exact next_congr (rngHealthFail_of_running hr hs)
  · exact next_congr (if_pos ⟨hs, hr⟩)
  · exact next_congr ((pf0Read_go false rngRaw hd hf).trans (by rw [rngRaw_open hl hr]))
  · exact next_congr ((pf0Read_go false rngRaw hd hf).trans (by rw [rngRaw_closed hl]))
  · refine next_congr ?_
    simp only [rngConsumerTimeout, hs, if_true, hh]
  · refine next_congr ?_
    simp only [rngConsumerTimeout, hs, if_true, hh, hj, hst, ho, and_self]

/-! ### Engine alarms -/

section
variable {b : Block} (hr : unitsRun b = true)
include hr

/-- Where units run, an alarm is the alarm of its unit. -/
theorem laneAlarm {n : Nat} (w : Nat) (hs : (laneAt b n).state = .idle ∨ (laneAt b n).state = .busy) :
    engineAlarm (.lane n w) b = Claims.alarmed 0x240 n (.lane n)
      (onLane n (fun l => { l with alarms := min 255 (l.alarms + 1), state := .idle }) (stopLane n w stEngineAlarm b)) := by
  simp only [engineAlarm, hr, Bool.true_eq_false, if_false, hs, decide_true, if_true]
  rfl

theorem coreAlarm {n : Nat} {c : CoreU} (w : Nat) (hc : b.sce.cores[n]? = some c) (ho : c.state ≠ .off) (hf : c.state ≠ .failed)
    (ht : c.state ≠ .selfTest) :
    engineAlarm (.core n w) b =
      (let d := stopPart n w stEngineAlarm (if c.state = .basic then legAbort stEngineAlarm (0x0200 + n) b else b)
      let d := match (d.sce.cores[n]?).bind (·.msg), (d.sce.cores[n]?).bind (·.job) with
        | some (q, i), none => abandonMsg q i d
        | _, _ => d
      Claims.alarmed 0x200 n (.core n)
        (onCore n (fun c => { c with alarms := min 255 (c.alarms + 1), key := none, state := if c.state = .basic then .basic else .idle }) d)) := by
  have hon : ¬(c.state = .off ∨ c.state = .failed ∨ c.state = .selfTest) := by simp only [ho, hf, ht, or_self, not_false_eq_true]
  simp only [engineAlarm, hr, Bool.true_eq_false, if_false, hc, if_neg hon]
  cases (stopPart n w stEngineAlarm (if c.state = .basic then legAbort stEngineAlarm (0x0200 + n) b else b)).sce.cores[n]? <;> rfl

theorem pipeAlarm {n : Nat} {p : Pipe} (w : Nat) (hp : b.dge.pipes[n]? = some p) (hf : p.failed = false) (ht : p.selfTest = false) :
    engineAlarm (.pipe n w) b = Claims.alarmed 0x1C0 n (.pipe n)
      (onPipe n (fun p => { p with alarms := min 255 (p.alarms + 1) }) (stopPipe n w stEngineAlarm b)) := by
  simp only [engineAlarm, hr, Bool.true_eq_false, if_false, hp, hf, ht, Bool.or_self, Bool.false_eq_true]
  rfl

end

theorem working_pkAlarm {b : Block} {u : UnitId} (hf : (pkAt b u).state ≠ .failed) (ht : (pkAt b u).state ≠ .selfTest) :
    engineAlarm.pkAlarm u b = Claims.pkAlarmed u b := if_neg (by simp only [hf, ht, or_self, not_false_eq_true])

/-- Settles O37: the alarm of each unit, where units run. -/
theorem engineAlarms : Obligations.EngineAlarms := by
  dsimp only [Obligations.EngineAlarms]
  intro s hr
  have hrun : ¬(unitsRun s.blk = false) := by rw [hr]; decide
  refine ⟨fun n w hs => ?_, fun n w c hc ho hf ht => ?_, fun n w p hp hf ht => ?_, fun p hp hf ht => ?_,
    fun hv => ⟨fun slot job => ?_, fun job => ?_, ?_⟩, fun job => ?_, fun hg hf => ?_⟩
  · exact next_congr (laneAlarm hr w hs)
  · exact next_congr (coreAlarm hr w hc ho hf ht)
  · exact next_congr (pipeAlarm hr w hp hf ht)
  · simp only [List.mem_cons, List.not_mem_nil, or_false] at hp
    rcases hp with rfl | rfl
    · exact next_congr ((if_neg hrun).trans (working_pkAlarm hf ht))
    · exact next_congr ((if_neg hrun).trans (working_pkAlarm hf ht))
  · exact next_congr ((if_neg hrun).trans (if_neg (by rw [hv]; decide)))
  · exact next_congr ((if_neg hrun).trans (if_neg (by rw [hv]; decide)))
  · exact next_congr ((if_neg hrun).trans (if_neg (by rw [hv]; decide)))
  · exact next_congr (if_neg hrun)
  · exact next_congr ((if_neg hrun).trans ((if_pos (by simp [hg, hf])).trans (congrArg settleAll (source_of_rngAlarm s.blk))))

end Sys2Proof.UnitAlarms
end

section
/-! PROOFS. Unit resets (R455 to R459), the governor and AVSBus (R461 to R465). -/

namespace Sys2Proof.UnitsAndPower

open Sys2Proof Sys2Proof.Machine Sys2Proof.Claims Sys2Proof.Frames Sys2Proof.Steps Sys2Proof.Engines Sys2Proof.RecorderCommands

/-! ### Unit resets -/

/-- No variant has a core 64. -/
theorem unitNamed_ne_core64 {v : Variant} {unit inst : Nat} {u : UnitId} (hn : unitNamed v unit inst = some u) : u ≠ .core 64 := by
  rintro rfl
  have hcores : coresOf v ≤ 64 := by cases v <;> decide
  unfold unitNamed at hn
  split at hn
  · cases hn
  · split at hn
    · rename_i h
      cases hn
      omega
    · repeat' split at hn
      all_goals cases hn

/-- A write of PWR_UNIT_CTRL that reaches the register. -/
theorem unitCtrl_of_reach {b : Block} {v : Word} (hr : RegReach b 0x7FF0FF00 v) :
    unitCtrl v b = if bit v.toNat 31 = true then unitGo (bits v.toNat 19 16) (bits v.toNat 7 0) b
      else b.onPwr (fun p => { p with unitSel := bits v.toNat 19 16, unitInst := bits v.toNat 7 0 }) := by
  obtain ⟨he, hd, hf, hz⟩ := hr
  exact pf0Write_go _ he hd hf hz

/-- GO while no unit reset runs. -/
theorem unitGo_of_none {b : Block} {unit inst : Nat} (hn : b.pwr.resetting = none) :
    unitGo unit inst b =
      (let b := b.onPwr (fun p => { p with unitSel := unit, unitInst := inst })
      match unitNamed b.run.variant unit inst with
      | none => unitRefused 1 b
      | some u =>
        if unitFailed b u then unitRefused 2 b
        else
          let b := if u = .core (b.leg.core.getD 64) then endWindow 1 stMessageAbandoned 0 b else b
          settleAll (askQuiesce u .reset (b.onPwr (fun p => { p with resetting := some u })))) := by
  simp only [unitGo, Block.onPwr, hn, Option.isSome_none, Bool.false_eq_true, if_false] <;> rfl

theorem unitsReset : Claims.UnitsReset := by
  dsimp only [Claims.UnitsReset]
  refine ⟨fun s v hreach hnone => ⟨fun hgo => ?_, fun hgo hn => ?_, fun u hgo hn => ⟨fun hf => ?_, fun hf hl => ?_⟩⟩,
    fun s u p w hq hw => ?_, fun s u hu hr ht => ⟨?_, ?_⟩⟩
  all_goals refine next_congr ?_
  · exact (unitCtrl_of_reach hreach).trans (if_neg (by rw [hgo]; decide))
  · rw [unitCtrl_of_reach hreach, if_pos hgo, unitGo_of_none hnone]
    simp only [Block.onPwr, hn]
  · rw [unitCtrl_of_reach hreach, if_pos hgo, unitGo_of_none hnone]
    simp only [Block.onPwr, hn]
    exact if_pos hf
  · rw [unitCtrl_of_reach hreach, if_pos hgo, unitGo_of_none hnone]
    simp only [Block.onPwr, hn, hl, Option.getD_none, if_neg (unitNamed_ne_core64 hn)]
    exact if_neg (fun h => Bool.noConfusion (hf.symm.trans h))
  · simp only [quiesceAck, hq, hw, Bool.false_eq_true, if_false]
  · simp only [selfTestDone, if_neg hu, hr, ht, Bool.and_self, if_true]
  · simp only [selfTestDone, if_neg hu, hr, ht, Bool.and_self, if_true, Bool.false_eq_true, if_false]

/-! ### The governor -/

/-- A report of an event leaves the device state. -/
@[simp] theorem run_event (code v : Nat) (b : Block) : (event code v b).run = b.run :=
  congrArg (·.run) (hide_event eventUnits code v b (by simp [eventUnits]))

theorem run_heated (g : Sensors) (b : Block) : (Claims.heated g b).run = b.run := by
  unfold Claims.heated
  split
  · exact run_event _ _ b
  · rfl

/-- In SERVICE the governor decides, what its sensors read taken. -/
theorem governs {b : Block} {g : Sensors} (hs : b.run.state = .service) : ¬((Claims.sensed g b).run.state ≠ .service) := by
  have hrun : (Claims.sensed g b).run = b.run := run_heated g b
  rw [hrun, hs]
  decide

theorem governorMoves : Claims.GovernorMoves := by
  dsimp only [Claims.GovernorMoves]
  refine ⟨fun s j hr => ?_, fun s g d hs hd => ⟨fun hsame => ?_, fun hnew => ?_⟩, fun s mv hb => ?_, fun s g ha hr => ?_⟩
  · exact next_congr (adminRun_of_ready hr _)
  · rw [hd] at hsame ⊢
    exact next_congr ((if_neg (governs hs)).trans (if_pos hsame))
  · rw [hd] at hnew ⊢
    exact next_congr ((if_neg (governs hs)).trans (if_neg hnew))
  · exact next_congr (if_pos hb)
  · have hon : ¬(avsActive s.blk = false ∨ unitsRun s.blk = false) := by rw [ha, hr]; decide
    refine next_congr ((if_neg hon).trans ?_)
    cases s.blk.pwr.avsFault <;> rfl

/-- Settles O38: resets of a unit, quiesce and self-test, the cap, the governor's decision and the regulator. -/
theorem unitsAndGovernor : Obligations.UnitsAndGovernor := ⟨unitsReset, governorMoves⟩

end Sys2Proof.UnitsAndPower
end

section
/-! PROOFS. Supplies and the battery domain (R63 to R71), ROM entry, host release and SYS_RST_N (R49, R98 to R102, R117, R199). -/

namespace Sys2Proof.SuppliesAndBoot

open Sys2Proof Sys2Proof.Machine Sys2Proof.Claims Sys2Proof.Frames Sys2Proof.Steps

/-! ### Supplies -/

/-- Settles O39: each crossing of a supply, and the battery domain. -/
theorem suppliesAndBattery : Obligations.SuppliesAndBattery := by
  dsimp only [Obligations.SuppliesAndBattery]
  refine ⟨fun s u => ⟨fun hs => ?_, fun hs hg => ?_, fun hg => ?_, fun hs hg => ?_, fun hs hg ha => ?_⟩, fun s hp hf => ?_,
    fun s mv => ⟨fun hl => ?_, fun hh => ?_, ?_⟩⟩
  · refine next_congr ((if_neg (by rw [hs]; decide)).trans ?_)
    by_cases hr : u ≠ .ana ∧ railsEmpty s.blk = true
    · simp only [if_pos hr]
      cases u <;> rfl
    · simp only [if_neg hr]
      cases u <;> rfl
  · exact next_congr (if_neg (by simp [hs, hg]))
  · refine next_congr ((if_neg (by rw [hg]; decide)).trans ?_)
    cases u <;> rfl
  · refine next_congr ((if_neg (by rw [hs]; decide)).trans ?_)
    simp only [supplyLost, hg, if_true]
  · exact next_congr (if_pos ⟨hs, hg, ha⟩)
  · exact next_congr (if_pos ⟨hp, hf⟩)
  · exact next_congr (if_neg (Nat.not_le.mpr hl))
  · exact next_congr (if_neg (Nat.not_lt.mpr hh))
  · exact ⟨_, rfl, rfl, rfl, rfl, rfl, rfl, rfl⟩

/-! ### Boot and host release -/

theorem romEntry_of_good {b : Block} {env : BootEnv} (hs : b.run.state = .reset) (hg : railsGood b = true) (hh : b.sup.held = false)
    (hp : b.pins.sysRstLow = false) :
    romEntry env b = if (Claims.entered env b).tmp.latched then
        raiseIrq irqFrozen (((katRun frozenTests env.kat (Claims.entered env b)).onRun (fun r => { r with state := .frozen })).onFlt
          (fun f => { f with mode := 4 }))
      else let k := katRun (katTests (sigPolicy (otpShadow (Claims.entered env b) 8))) env.kat (Claims.entered env b)
        if k.run.state ≠ .rom ∨ k.boot.katFail = true then k else walkOn env.flash (buildList k) := by
  unfold romEntry
  exact if_neg (by simp [hs, hg, hh, hp])

/-- What a change of HOST_RST_N may change. -/
def hostResetUnits : Touch := { nothing with link := true, pins := true, wdg := true, out := true }

@[simp] theorem time_onHostReset (f : PinSt → PinSt) (b : Block) : (onHostReset f b).time = b.time :=
  congrArg (·.time) (hide_onHostReset hostResetUnits f b (by simp [hostResetUnits]))

@[simp] theorem time_wdgArm (isP : Bool) (v : Nat) (b : Block) : (wdgArm isP v b).time = b.time :=
  congrArg (·.time) (hide_wdgArm hostResetUnits isP v b (by simp [hostResetUnits]))

/-- Settles O40: ROM entry, the ends of its waits, the release of the host, SYS_RST_N. -/
theorem bootRunsAndHostReleased : Obligations.BootRunsAndHostReleased := by
  dsimp only [Obligations.BootRunsAndHostReleased]
  refine ⟨fun s env hs hg hh hp => ?_, fun s f hs => ⟨fun hw => ?_, fun hw => ?_⟩, fun s hs hf hr hp => ?_, fun s => ⟨?_, rfl, rfl⟩⟩
  · exact next_congr (romEntry_of_good hs hg hh hp)
  · exact next_congr (if_pos ⟨hs, hw⟩)
  · exact next_congr (if_pos ⟨hs, hw⟩)
  · refine next_congr ((if_pos ⟨hs, hf, hr, hp⟩).trans ?_)
    simp only [time_wdgArm, time_onHostReset]
    rfl
  · exact next_congr rfl

end Sys2Proof.SuppliesAndBoot
end

section
/-! PROOFS. Thaw (R121, R122). -/

namespace Sys2Proof.ThawCommands

open Sys2Proof Sys2Proof.Machine Sys2Proof.Claims Sys2Proof.Steps Sys2Proof.EvidenceCommands

/-! ### What each request answers, whatever its transport -/

theorem thawOffer_taken {f : FlashView} {k : Nat} {p : Bytes} {b : Block} (ho : Claims.offers b (3 + k)) (hl : p.length = 8) :
    thawOffer f k p b = (.reply (Claims.offerTaken f (3 + k) p b).1, (Claims.offerTaken f (3 + k) p b).2) := by
  obtain ⟨ha, ht, hn⟩ := ho
  simp only [thawOffer, transportOf, ha, hl, ht, hn, Bool.true_eq_false, Bool.false_eq_true, ne_eq, not_true_eq_false, or_self, if_false,
    Claims.offerTaken, Nat.add_sub_cancel_left]
  rfl

theorem thawOffer_busy {f : FlashView} {k : Nat} {p : Bytes} {b : Block} (ha : thawAnswers b (3 + k) = true) (hl : p.length = 8)
    (hn : offersTaken b = false ∨ otherOffer b (3 + k) = true) : thawOffer f k p b = (.reply [1], b) := by
  simp only [thawOffer, transportOf, ha, hl, Bool.true_eq_false, ne_eq, not_true_eq_false, if_false]
  exact if_pos hn

theorem thawTakes_next {f : FlashView} {k : Nat} {p : Bytes} {b : Block} {o : ThawOffer} (hn : Claims.chunkNext b (3 + k) o p) :
    thawTakes f k p b = (.reply (Claims.chunkTaken f o p b).1, (Claims.chunkTaken f o p b).2) := by
  obtain ⟨ha, ho, hl, hat, hfit⟩ := hn
  have hgo : ¬(leAt p 0 4 ≠ o.taken ∨ o.length < o.taken + (p.length - 4)) := by omega
  simp only [thawTakes, transportOf, ha, Bool.true_eq_false, if_false, if_neg (Nat.not_lt.mpr hl), ho, List.length_drop, if_neg hgo]
  rfl

theorem thawTakes_stray {f : FlashView} {k : Nat} {p : Bytes} {b : Block} {o : ThawOffer} (hn : Claims.chunkStray b (3 + k) o p) :
    thawTakes f k p b = (.reply [1], b) := by
  obtain ⟨ha, ho, hl, hstray⟩ := hn
  simp only [thawTakes, transportOf, ha, Bool.true_eq_false, if_false, if_neg (Nat.not_lt.mpr hl), ho, List.length_drop, if_pos hstray]

theorem thawEnds_held {k : Nat} {b : Block} {o : ThawOffer} (ha : thawAnswers b (3 + k) = true) (ho : heldOffer b (3 + k) = some o) :
    thawEnds k [] b = (.reply (Claims.bundleEnded o b).1, (Claims.bundleEnded o b).2) := by
  simp only [thawEnds, transportOf, ha, Bool.true_eq_false, if_false, ne_eq, not_true_eq_false, ho, Claims.bundleEnded]
  split <;> rfl

theorem thawStatus_answers {k : Nat} {b : Block} (ha : thawAnswers b (3 + k) = true) : thawStatus k [] b = (.reply (Claims.thawReport b), b) := by
  simp only [thawStatus, transportOf, ha, Bool.true_eq_false, if_false, ne_eq, not_true_eq_false]
  rfl

/-! ### The bundle -/

/-- A chunk waits for both ports. -/
theorem chunkRun_of_free {b : Block} (h : Claims.portsFree b) (f : Block → Block) : chunkRun f b = f b := if_pos h

/-- A held offer is an offer. -/
theorem isSome_of_held {b : Block} {t : Nat} {o : ThawOffer} (ho : heldOffer b t = some o) : b.boot.offer.isSome = true := by
  unfold heldOffer at ho
  cases hb : b.boot.offer with
  | none => rw [hb] at ho; cases ho
  | some x => rfl

/-- Part of a manifest only gathers. -/
theorem bundleTakes_head {n : Nat} {f : FlashView} {b : Block} {o : ThawOffer} {data : Bytes} (ho : b.boot.offer = some o) (hd : data ≠ [])
    (hc : o.code = 0) (hl : o.left ≠ 0) (hs : o.head.length + data.length < manifestLen) :
    bundleTakes (n + 2) data (f, b) = (f, b.onBoot (fun x => { x with offer := some { o with head := o.head ++ data } })) := by
  have hk : min data.length (manifestLen - o.head.length) = data.length := by omega
  have hgo : ¬(data.isEmpty = true ∨ o.code ≠ 0 ∨ o.left = 0) := by simp [hd, hc, hl]
  have hshort : (o.head ++ data).length < manifestLen := by rw [List.length_append]; exact hs
  rw [bundleTakes]
  simp only [ho, if_neg hgo, if_pos (show o.head.length < manifestLen by omega), hk, List.take_length, List.drop_length, if_pos hshort]
  rw [bundleTakes]
  simp only [Block.onBoot, List.isEmpty_nil, true_or, if_true]

/-- Settles O41: each request by frame and over MCTP, and what a part of a manifest leaves. -/
theorem thawTakesBundles : Obligations.ThawTakesBundles := by
  dsimp only [Obligations.ThawTakesBundles]
  refine ⟨fun s f body tag p h hl => ⟨fun ho => ?_, fun ha hn => ?_⟩, fun s f target p h hl => ⟨fun ho => ?_, fun ha hn => ?_⟩,
    fun s f body tag p o h hf => ⟨fun hn => ?_, fun hn => ?_⟩, fun s f target p o h hf => ⟨fun hn => ?_, fun hn => ?_⟩,
    fun n f b o data ho hd hc hl hs => bundleTakes_head ho hd hc hl hs, fun s f body tag o h ha ho => ?_, fun s f target o h ha ho => ?_,
    fun s body tag h ha => ?_, fun s target h ha => ?_, fun s => rfl⟩
  · exact next_congr (viaRun_frame h (thawOffer_taken (k := 0) (b := intoFramed s.blk) ho hl))
  · exact next_congr (viaRun_frame h (thawOffer_busy (k := 0) (b := intoFramed s.blk) ha hl hn))
  · exact next_congr (viaRun_mctp h (thawOffer_taken (k := 1) ho hl))
  · exact next_congr (viaRun_mctp h (thawOffer_busy (k := 1) ha hl hn))
  · exact next_congr ((chunkRun_of_free hf _).trans (viaRun_frame h (thawTakes_next (k := 0) (b := intoFramed s.blk) hn)))
  · exact next_congr ((chunkRun_of_free hf _).trans (viaRun_frame h (thawTakes_stray (k := 0) (b := intoFramed s.blk) hn)))
  · exact next_congr ((chunkRun_of_free hf _).trans (viaRun_mctp h (thawTakes_next (k := 1) hn)))
  · exact next_congr ((chunkRun_of_free hf _).trans (viaRun_mctp h (thawTakes_stray (k := 1) hn)))
  · exact next_congr (congrArg₂ thawDone (isSome_of_held ho) (viaRun_frame h (thawEnds_held (k := 0) (b := intoFramed s.blk) ha ho)))
  · exact next_congr (congrArg₂ thawDone (isSome_of_held ho) (viaRun_mctp h (thawEnds_held (k := 1) ha ho)))
  · exact next_congr (viaRun_frame h (thawStatus_answers (k := 0) (b := intoFramed s.blk) ha))
  · exact next_congr (viaRun_mctp h (thawStatus_answers (k := 1) ha))

end Sys2Proof.ThawCommands
end

section
/-! PROOFS. The watchdogs (R416 to R435, R485). -/

namespace Sys2Proof.Watchdogs

open Sys2Proof Sys2Proof.Machine Sys2Proof.Claims Sys2Proof.Frames Sys2Proof.Steps Sys2Proof.SuppliesAndBoot

/-! ### Bites -/

/-- The only cause of a watchdog is its worst. -/
theorem worstCause_single (c : WdgCause) : worstCause [c] c.isP = some c := by
  have hmine : [c].filter (fun d => d.isP == c.isP) = [c] := by simp
  simp only [worstCause, hmine, List.find?_cons, List.find?_nil, List.head?_cons]
  cases c.kind == 2 <;> cases c.kind == 1 <;> rfl

/-- The other watchdog has no cause. -/
theorem worstCause_other (c : WdgCause) : worstCause [c] (!c.isP) = none := by
  have hmine : [c].filter (fun d => d.isP == !c.isP) = [] := by simp
  simp only [worstCause, hmine]
  rfl

/-- Outside FROZEN, no hard timer running, a bite takes its action. -/
theorem bite_eq_bitten {c : WdgCause} {b : Block} (hz : b.run.state ≠ .frozen) (hh : (wdgAt b c.isP).hard = none) :
    bite c b = ([(Claims.bitten c b).1], (Claims.bitten c b).2) := by
  simp only [bite, if_neg hz, hh, Option.isSome_none, Bool.false_eq_true, if_false]
  rfl

/-- The only cause of a moment is resolved alone. -/
theorem resolveBites_single {b : Block} {c : WdgCause} (hz : b.run.state ≠ .frozen) (hh : (wdgAt b c.isP).hard = none) (hc : b.wdg.causes = [c]) :
    resolveBites b = Claims.resolved c b := by
  have hbite := bite_eq_bitten (c := c) (b := b.onWdg (fun w => { w with causes := [] })) hz hh
  have hmine := worstCause_single c
  have hother := worstCause_other c
  cases hp : c.isP
  · rw [hp] at hmine hother
    rw [Bool.not_false] at hother
    simp only [resolveBites, hc, hmine, hother, hbite, List.nil_append]
    rfl
  · rw [hp] at hmine hother
    rw [Bool.not_true] at hother
    simp only [resolveBites, hc, hmine, hother, hbite, List.nil_append]
    rfl

/-- A cause noted alone at the end of a moment. -/
theorem momentEnds_addCause {b : Block} {isP : Bool} (ha : Claims.Alone b isP) (kind slot value : Nat) :
    momentEnds false (addCause isP kind slot value b) = Claims.resolved { isP := isP, kind := kind, slot := slot, value := value } b := by
  obtain ⟨hc, hz, hh⟩ := ha
  have hres := resolveBites_single (c := { isP := isP, kind := kind, slot := slot, value := value })
    (b := addCause isP kind slot value b) hz (by cases isP <;> exact hh) (by simp only [addCause, Block.onWdg, hc, List.nil_append])
  exact hres

/-! ### Check-ins -/

/-- A check-in that reaches its watchdog while it counts is judged by its key. -/
theorem checkin_of_counts {b : Block} {isP : Bool} {v : Nat} (hc : wdgCounts b isP = true) (ha : isP = false → b.wdg.d.await = none) (more : Bool) :
    checkin isP v .none more b = momentEnds more (match keySlot b isP (v % 65536) with
      | none => addCause isP 2 0 (v % 65536) b
      | some i =>
        if (wdgAt b isP).window = false then addCause isP 1 i 0 b
        else if bit (wdgAt b isP).done i then
          event 0x302 (16 * b2n isP + i) (onWdgAt isP (fun x => { x with dups := sat32 (x.dups + 1) }) b)
        else onWdgAt isP (fun x => { x with done := x.done ||| 2 ^ i, seen := x.seen ||| 2 ^ i }) b) := by
  have hrun : (!isP && b.wdg.d.armed && b.wdg.d.await.isSome) = false := by
    cases isP
    · simp [ha rfl]
    · rfl
  simp only [checkin, hrun, hc, Bool.false_eq_true, Bool.true_eq_false, if_false, if_true] <;>
    cases keySlot b isP (v % 65536) <;> rfl

/-- Either watchdog takes the check-in from its own side. -/
theorem anyCheckin_of_reaches {b : Block} {isP : Bool} {v : Word} (h : Claims.CheckinReaches b isP v) (more : Bool) :
    anyCheckin isP v .none more b = checkin isP v.toNat .none more b := by
  obtain ⟨-, hhost, hkeeper⟩ := h
  cases isP with
  | true =>
    obtain ⟨he, hd, hf, hr⟩ := hhost rfl
    exact pf0Write_go _ he hd hf hr
  | false =>
    obtain ⟨hk, -⟩ := hkeeper rfl
    exact if_pos hk

/-- The first write of the host's configuration ends the boot phase. -/
theorem hostCfgWrite_first {b : Block} (ha : b.wdg.p.armed = true) (hr : hostInReset b = false) (hs : b.wdg.p.hostSet = false) (v : Nat) :
    hostCfgWrite v b = wdgBegin true (onWdgAt true (fun x => { x with hostCfg := wdgTaken v, hostSet := true, boot := false }) b) :=
  if_pos (by simp [ha, hr, hs])

/-- Settles O46: arming, the host's configuration, check-ins by their key and window, the window's opening. -/
theorem watchdogsArmedAndFed : Obligations.WatchdogsArmedAndFed := by
  dsimp only [Obligations.WatchdogsArmedAndFed]
  refine ⟨fun s isP v hk ha => ?_, fun s v ha hr hs => ⟨fun h => ?_, fun h => ?_⟩, fun s isP v i h hw => ?_,
    fun s isP v h ha => ⟨fun hkey => ?_, fun i hkey hw => ?_⟩, fun s isP hc => next_congr (if_pos hc)⟩
  · exact next_congr ((if_pos hk).trans (if_neg (by rw [ha]; decide)))
  · obtain ⟨he, hd, hf, hz⟩ := h
    exact next_congr ((pf0Write_go _ he hd hf hz).trans (hostCfgWrite_first ha hr hs _))
  · obtain ⟨he, hd, hf, hz⟩ := h
    exact next_congr ((pf0Write_go _ he hd hf hz).trans (hostCfgWrite_first ha hr hs _))
  · obtain ⟨hwin, hkey⟩ := hw
    have hreach := h
    obtain ⟨hc, -, hkeeper⟩ := h
    have hin : checkin isP v.toNat .none true s.blk = _ := checkin_of_counts hc (fun h => (hkeeper h).2) true
    simp only [hkey, hwin, Bool.true_eq_false, if_false, momentEnds, if_true] at hin
    refine ⟨next_congr ((anyCheckin_of_reaches hreach true).trans hin), fun hp => ?_⟩
    subst hp
    exact next_congr ((anyCheckin_of_reaches hreach true).trans hin)
  · obtain ⟨hc, -, hkeeper⟩ := id h
    refine next_congr ((anyCheckin_of_reaches h false).trans ((checkin_of_counts hc (fun h => (hkeeper h).2) false).trans ?_))
    rw [hkey]
    exact momentEnds_addCause ha 2 0 _
  · obtain ⟨hc, -, hkeeper⟩ := id h
    refine next_congr ((anyCheckin_of_reaches h false).trans ((checkin_of_counts hc (fun h => (hkeeper h).2) false).trans ?_))
    simp only [hkey, hw, if_true]
    exact momentEnds_addCause ha 1 i 0

/-! ### Periods, pulses and timers -/

/-- A new period leaves the causes and the hard timer. -/
theorem alone_wdgBegin {b : Block} {isP : Bool} (ha : Claims.Alone b isP) : Claims.Alone (wdgBegin isP b) isP := by
  obtain ⟨hc, hz, hh⟩ := ha
  cases isP <;> exact ⟨hc, hz, hh⟩

/-- A period of a counting watchdog ends. -/
theorem periodEnd_of_counts {b : Block} {isP : Bool} (hc : wdgCounts b isP = true) (more : Bool) :
    periodEnd isP more b = momentEnds more (if wdgSlots (wdgAt b isP) - (wdgSlots (wdgAt b isP) &&& (wdgAt b isP).done) = 0 then wdgBegin isP b
      else addCause isP 3 0 (wdgSlots (wdgAt b isP) - (wdgSlots (wdgAt b isP) &&& (wdgAt b isP).done)) (wdgBegin isP b)) :=
  if_pos (by rw [hc]; rfl)

/-- The pins after a change of HOST_RST_N are those it puts. -/
theorem pins_onHostReset (f : PinSt → PinSt) (b : Block) : (onHostReset f b).pins = f b.pins := by
  unfold onHostReset
  dsimp only
  split
  · rfl
  · split <;> rfl

/-- Settles O47: the period's end, the end of each pulse, the hard timer, the healthy run. -/
theorem watchdogPeriodsEnd : Obligations.WatchdogPeriodsEnd := by
  dsimp only [Obligations.WatchdogPeriodsEnd]
  refine ⟨fun s isP hc ha => ⟨fun hm => ?_, fun hm => ?_⟩, fun s ha => ?_, fun s hp => ?_, fun s hp hh => ?_, fun s isP hh => ?_, fun s bad hd => ?_⟩
  · exact next_congr ((periodEnd_of_counts hc true).trans (if_pos hm))
  · refine next_congr ((periodEnd_of_counts hc false).trans ?_)
    rw [if_neg hm]
    exact momentEnds_addCause (alone_wdgBegin ha) 3 0 _
  · exact next_congr (if_pos ha)
  · refine next_congr ((if_pos hp).trans ?_)
    have hpulse : (onHostReset (fun p => { p with hostPulse := false }) s.blk).pins.hostPulse = false := by rw [pins_onHostReset]
    simp only [owedActs, pulseRuns, hpulse, Bool.false_or]
    rfl
  · refine next_congr ((if_pos hp).trans (if_neg ?_))
    simp [pulseRuns, Block.onWdg, Block.onPins, hh]
  · exact next_congr (if_pos hh)
  · exact next_congr (if_pos hd)

end Sys2Proof.Watchdogs
end

section
/-! PROOFS. The boot window, the mailbox, SPIT, and the ends of flash operations (R128 to R150). -/

namespace Sys2Proof.FlashCommands

open Sys2Proof Sys2Proof.Machine Sys2Proof.Claims Sys2Proof.Steps Sys2Proof.UpdateCommands

/-! ### The boot window -/

/-- A boot-window read in D0 outside FROZEN goes where its offset leads. -/
theorem windowRead_open {b : Block} {off n : Nat} (hd : (fnOf b 0).d3hot = false) (hf : b.run.state ≠ .frozen) :
    windowRead off n b =
      (let p := b.flt.dirPort
      match windowPlace b off n with
      | (none, _) => windowAbort (flashRefuseNowhere .host b)
      | (some a, false) => windowAbort (flashRefuse .host p a false b)
      | (some a, true) =>
        match flashJudge b p .host opRead a n with
        | .refused ap => windowAbort (flashRefuse .host p a ap b)
        | .allowed none => windowAbort (flashRefuse .host p a false b)
        | .allowed (some r) =>
          if r.verified then
            match cacheLine b p (blockOf a) with
            | some c => reply 0 .success (slice c.data (a % 4096) n) (touchLine p (blockOf a) b)
            | none => readAhead p (blockOf a) r (askFill p (blockOf a) 3 [.bootWindow a n] b)
          else askOp p .read a n [] 3 [.bootWindow a n] b) := by
  simp only [windowRead, hd, Bool.false_eq_true, if_false, if_neg hf] <;> rfl

/-- Settling a flash operation that no activation waits for is the operation's end alone. -/
theorem flashDone_noKeeper {b : Block} {p : Nat} {o : FlashOp} (ho : (portOf b p).running = some o) (hk : Claims.noKeeper o) (data : Bytes)
    (ok : Bool) : flashDone p data ok b = flashOpComplete p data ok b := by
  simp only [flashDone, ho]
  refine List.foldlRecOn (motive := fun c => c = flashOpComplete p data ok b) o.waiters _ rfl (fun c hc w hw => ?_)
  cases w with
  | keeper job => exact absurd hw (hk job)
  | bootWindow a n => exact hc
  | mailbox a n => exact hc
  | spit a n => exact hc

/-- What the end of a flash operation does before the port takes its next one. -/
theorem flashOpComplete_of_running {b : Block} {p : Nat} {o : FlashOp} (ho : (portOf b p).running = some o) (data : Bytes) (ok : Bool) :
    flashOpComplete p data ok b = portNext p
      (let d := slice data 0 o.len
      let b := onPort p (fun x => { x with running := none }) b
      match o.kind with
      | .fill => fillDone p o d ok b
      | .read => if ok then o.waiters.foldl (serveWaiter o.addr d) b else o.waiters.foldl poisonWaiter b
      | _ =>
        if o.rank = 1 then b
        else if o.rank = 4 then mbxPartDone p ok b
        else b.onFlt (fun f => { f with
          spitBusy := (portOps (portOf b p)).any (fun x => x.rank == 5), spitWel := false
          spitErr := if ok then f.spitErr else f.spitErr ||| (if o.kind = .program then 0x40 else 0x20) })) := by
  simp only [flashOpComplete, ho] <;> cases o.kind <;> rfl

/-- The end of a program or an erase, by the rank of who asked for it. -/
theorem flashOpComplete_of_write {b : Block} {p : Nat} {o : FlashOp} (ho : (portOf b p).running = some o) (hf : o.kind ≠ .fill) (hr : o.kind ≠ .read)
    (data : Bytes) (ok : Bool) :
    flashOpComplete p data ok b = portNext p
      (let b := onPort p (fun x => { x with running := none }) b
      if o.rank = 1 then b
      else if o.rank = 4 then mbxPartDone p ok b
      else b.onFlt (fun f => { f with
        spitBusy := (portOps (portOf b p)).any (fun x => x.rank == 5), spitWel := false
        spitErr := if ok then f.spitErr else f.spitErr ||| (if o.kind = .program then 0x40 else 0x20) })) := by
  rw [flashOpComplete_of_running ho]
  cases hk : o.kind with
  | fill => exact absurd hk hf
  | read => exact absurd hk hr
  | program => rfl
  | erase4K => rfl
  | erase64K => rfl

theorem bootWindowAndFills : Claims.BootWindowAndFills := by
  dsimp only [Claims.BootWindowAndFills]
  refine ⟨fun s off n a r h => ?_, fun s off n a ap hd => ⟨fun hf => ?_, fun hf hp => ?_, fun hf hp hj => ?_⟩, fun s off ho hd => ?_,
    fun s p data o ho hk => ⟨fun r hkind hr => ⟨?_, ?_⟩, fun hkind => ⟨?_, ?_⟩, fun hfill hread hrank => ⟨?_, ?_⟩,
      fun ok hfill hread h4 h1 => ?_⟩⟩
  · obtain ⟨hd, hf, hp, hj⟩ := h
    refine next_congr ((windowRead_open hd hf).trans ?_)
    simp only [hp, hj] <;> rfl
  · refine next_congr ?_
    simp only [windowRead, hd, Bool.false_eq_true, if_false, if_pos hf]
  · refine next_congr ((windowRead_open hd hf).trans ?_)
    simp only [hp]
  · refine next_congr ((windowRead_open hd hf).trans ?_)
    simp only [hp, hj]
  · refine next_congr ((if_pos ho).trans ?_)
    simp only [windowWrite, hd, Bool.false_eq_true, if_false]
    cases (windowPlace s.blk off 1).1 <;> rfl
  all_goals refine next_congr ((flashDone_noKeeper ho hk _ _).trans ?_)
  · rw [flashOpComplete_of_running ho, hkind]
    simp only [fillDone, hr, Bool.true_eq_false, if_false]
  · rw [flashOpComplete_of_running ho, hkind]
    simp only [fillDone, hr, if_true]
  · rw [flashOpComplete_of_running ho, hkind]
    rfl
  · rw [flashOpComplete_of_running ho, hkind]
    rfl
  · rw [flashOpComplete_of_write ho hfill hread]
    refine congrArg (portNext p) ((if_neg (by omega)).trans ((if_pos hrank).trans ?_))
    rfl
  · rw [flashOpComplete_of_write ho hfill hread]
    refine congrArg (portNext p) ((if_neg (by omega)).trans ((if_pos hrank).trans ?_))
    rfl
  · rw [flashOpComplete_of_write ho hfill hread]
    exact congrArg (portNext p) ((if_neg h1).trans (if_neg h4))

/-! ### The mailbox -/

/-- GO of a mailbox command starts it. -/
theorem mbxCommand_starts {b t : Block} {v : Word} {cmd : Nat} (h : Claims.MbxStarts b v cmd t) :
    mbxCommand cmd v b = mbxStart t ∧ t.flt.mbxCmd = cmd := by
  obtain ⟨⟨he, hd, hf, hz⟩, hgo, hc, hbusy, rfl⟩ := h
  refine ⟨(if_pos ⟨hc, hgo⟩).trans ((pf0Write_go _ he hd hf hz).trans ?_), hc⟩
  simp only [Block.onFlt, hgo, Bool.true_eq_false, if_false, hbusy, Bool.false_eq_true]

/-- The two ways a block crosses, as the model and the claim write them. -/
theorem crosses_iff (a n : Nat) : (decide (n = 0) || decide (4096 < a % 4096 + n)) = true ↔ n = 0 ∨ 4096 < a % 4096 + n := by
  simp only [Bool.or_eq_true, decide_eq_true_eq]

/-- The filter's answer to a mailbox command. -/
theorem mbxJudged_eq (p op a n : Nat) (f : FlashRule → Block → Block) (b : Block) : mbxJudged p op a n f b = Claims.judged p op a n b f := by
  unfold mbxJudged Claims.judged
  cases flashJudge b p .host op a n with
  | refused ap => rfl
  | allowed r => cases r <;> rfl

theorem mailboxCommands : Claims.MailboxCommands := by
  dsimp only [Claims.MailboxCommands]
  refine fun s v b => ⟨fun h => ?_, fun h => ?_, fun h => ?_, fun h => ?_⟩
  all_goals
    obtain ⟨hgo, hc⟩ := mbxCommand_starts h
    refine next_congr (hgo.trans ?_)
    simp only [mbxStart, hc, mbxJudged_eq, crosses_iff] <;> rfl

/-- Settles O42: the boot window, the ends of flash operations, and the four mailbox commands. -/
theorem flashThroughTheFilter : Obligations.FlashThroughTheFilter := ⟨bootWindowAndFills, mailboxCommands⟩

/-! ### SPIT -/

/-- An allowed opcode of the command's kind takes its effect. -/
theorem spitCommand_of_allowed {b : Block} {op : Byte} {kind : Nat} (h : Claims.Allowed b op kind) {kinds : List Nat} (hk : kinds.contains kind = true)
    (f : Nat → Block → Block) : spitCommand kinds op f b = f kind b := by
  obtain ⟨hm, hs, ho⟩ := h
  have hopen : ¬(spitOpen b = false) := by simp [spitOpen, hm, hs]
  simp only [spitCommand, if_neg hopen, ho, if_pos hk]

/-- Settles O43: each SPIT command by its kind, the stopped read, the refused opcode. -/
theorem spitCommands : Obligations.SpitCommands := by
  dsimp only [Obligations.SpitCommands]
  intro s op a n data octal
  refine ⟨fun h => ?_, fun hm => next_congr (if_pos hm), fun h => ?_, fun h => ?_, fun h => ?_, fun h => ⟨fun ho => ?_, fun ho => ?_⟩, fun h => ?_,
    fun h => ?_, fun h => ?_, fun h => ?_, fun h => ?_, fun h hr => ?_, fun hm hs ho => ?_⟩
  · have hm : ¬(s.blk.flt.mode = 4) := h.1
    exact next_congr ((if_neg hm).trans ((spitCommand_of_allowed h rfl _).trans (if_neg hm)))
  · exact next_congr (spitCommand_of_allowed h rfl _)
  · exact next_congr (spitCommand_of_allowed h rfl _)
  · exact next_congr (spitCommand_of_allowed h rfl _)
  · exact next_congr ((spitCommand_of_allowed h rfl _).trans (if_pos ho))
  · exact next_congr ((spitCommand_of_allowed h rfl _).trans (if_neg ho))
  · exact next_congr (spitCommand_of_allowed h rfl _)
  · exact next_congr (spitCommand_of_allowed h rfl _)
  · exact next_congr (spitCommand_of_allowed h rfl _)
  · exact next_congr (spitCommand_of_allowed h rfl _)
  · exact next_congr (spitCommand_of_allowed h rfl _)
  · refine next_congr ((spitCommand_of_allowed h rfl _).trans ?_)
    simp only [spitReset, Block.onFlt, hr, if_true]
    rfl
  · have hopen : ¬(spitOpen s.blk = false) := by simp [spitOpen, hm, hs]
    exact next_congr ((if_pos ho).trans (if_neg hopen))

end Sys2Proof.FlashCommands
end

section
/-! PROOFS. The SPDM responder (R179 to R182, R195). -/

namespace Sys2Proof.SpdmRequests

open Sys2Proof Sys2Proof.Machine Sys2Proof.Claims Sys2Proof.Frames Sys2Proof.Steps

/-! ### A request in its turn -/

/-- A request the responder judges now gets what its handler gives. -/
theorem spdmAnswer_of_turn {b : Block} {via : SpdmVia} {ok : Bool} (hf : (tookRecord via b).run.state ≠ .frozen) (hr : spdmRuns (tookRecord via b) = true)
    (hs : (connOf (tookRecord via b) via).resynch = false) (hv : ok = true) (f : Block → Bytes × Block) :
    spdmAnswer via ok f b = spdmSend via (f (tookRecord via b)).1 (f (tookRecord via b)).2 := by
  simp only [spdmAnswer, if_neg hf, hr, hs, hv, Bool.true_eq_false, Bool.false_eq_true, if_false]

theorem spdmTake_of_turn {b : Block} {code : Nat} {via : SpdmVia} {wire req : Bytes} {f : SpdmVia → Bytes → Block → Bytes × Block}
    (ht : Claims.SpdmTurn b code via wire req) (hk : spdmKnows via code = true) (hh : spdmHandler code = some f) :
    spdmTake code via wire b = spdmSend via (f via req (tookRecord via b)).1 (f via req (tookRecord via b)).2 := by
  obtain ⟨hp, ho, hl, hc, hf, hr, hs, hv⟩ := ht
  have hhead : ¬(req.length < 4 ∨ leAt req 1 1 ≠ code) := by omega
  simp only [spdmTake, hh, hk, if_true, spdmRun, hp, Bool.true_eq_false, if_false, ho, if_neg hhead]
  exact spdmAnswer_of_turn hf hr hs (by rw [hv]; exact beq_self_eq_true _) _

/-- The next state of a request in its turn, from the response and the block its handler gives. -/
theorem next_of_turn {s : State} {c : Instr} {code : Nat} {via : SpdmVia} {wire req rsp : Bytes} {t : Block}
    {f : SpdmVia → Bytes → Block → Bytes × Block} (hc : exec c s = .next { s with blk := spdmTake code via wire s.blk })
    (ht : Claims.SpdmTurn s.blk code via wire req) (hk : spdmKnows via code = true) (hh : spdmHandler code = some f)
    (hr : f via req (tookRecord via s.blk) = (rsp, t)) : exec c s = .next { s with blk := spdmSend via rsp t } :=
  hc.trans (next_congr ((spdmTake_of_turn ht hk hh).trans (by rw [hr])))

/-- Every path knows the codes of MCTP. -/
theorem spdmKnows_base {code : Nat} (hc : spdmBase.contains code = true) (via : SpdmVia) : spdmKnows via code = true := by
  have hmem : code ∈ spdmBase := by simpa using hc
  unfold spdmKnows
  split
  · exact hc
  · simp [hmem]

/-! ### Connection -/

/-- In the clear or in a session, the transcript of certificates grows as the claim says. -/
theorem noteB_eq (via : SpdmVia) (req rsp : Bytes) (b : Block) : noteB via req rsp b = Claims.notedB via req rsp b := by
  unfold noteB Claims.notedB
  split <;> rfl

theorem spdmVersion_clear {via : SpdmVia} (hc : inClear via = true) (req : Bytes) (b : Block) :
    spdmVersion via req b =
      (let rsp : Bytes := [0x10, 0x04, 0, 0, 0, 1, 0x00, 0x13]
      let t := onConn via (fun _ => { SpdmConn.reset with phase := .version, msgA := req ++ rsp }) b
      (rsp, if via.isMctp then t else t.onRcd (fun r => { r with sessions := [] }))) := by
  simp only [spdmVersion, hc, Bool.true_eq_false, if_false]

theorem spdmCapabilities_unexpected {via : SpdmVia} {b : Block} (hp : (connOf b via).phase ≠ .version) (req : Bytes) :
    spdmCapabilities via req b = (spdmError errUnexpected 0, b) := if_pos (.inr hp)

theorem spdmCapabilities_good {via : SpdmVia} {b : Block} {req : Bytes} (hc : inClear via = true) (hp : (connOf b via).phase = .version)
    (hl : 20 ≤ req.length) (hd : 42 ≤ leAt req 12 4) (hm : leAt req 12 4 ≤ leAt req 16 4) :
    spdmCapabilities via req b =
      (let rsp := spdmHead 0x61 0 0 ++ [0, Config.ctExponent, 0, 0] ++ lePut 4 (0x16 + if via.isMctp then 0 else 0x2C0) ++ lePut 4 4096 ++ lePut 4 4096
      (rsp, onConn via (fun c => { c with phase := .capabilities, msgA := c.msgA ++ req ++ rsp }) b)) := by
  have hturn : ¬(inClear via = false ∨ (connOf b via).phase ≠ .version) := by rw [hc, hp]; decide
  have hform : ¬(req.length < 20 ∨ leAt req 12 4 < 42 ∨ leAt req 16 4 < leAt req 12 4) := by omega
  unfold spdmCapabilities
  exact (if_neg hturn).trans (if_neg hform)

theorem spdmAlgorithms_good {via : SpdmVia} {b : Block} {req : Bytes} (hc : inClear via = true) (hp : (connOf b via).phase = .capabilities)
    (hl : 32 ≤ req.length) (hlen : leAt req 4 2 = req.length)
    (hs : (algStructs (leAt req 2 1) (req.drop (32 + 4 * (leAt req 28 1 + leAt req 29 1)))).length = leAt req 2 1) :
    spdmAlgorithms via req b =
      (let body := Claims.algorithms via req (algStructs (leAt req 2 1) (req.drop (32 + 4 * (leAt req 28 1 + leAt req 29 1))))
      let rsp := spdmHead 0x63 (leAt req 2 1) 0 ++ lePut 2 (6 + body.length) ++ body
      (rsp, onConn via (fun c => { c with phase := .ready, msgA := c.msgA ++ req ++ rsp }) b)) := by
  have hturn : ¬(inClear via = false ∨ (connOf b via).phase ≠ .capabilities) := by rw [hc, hp]; decide
  have hform : ¬(req.length < 32 ∨ leAt req 4 2 ≠ req.length ∨
      (algStructs (leAt req 2 1) (req.drop (32 + 4 * (leAt req 28 1 + leAt req 29 1)))).length ≠ leAt req 2 1) := by omega
  unfold spdmAlgorithms
  exact (if_neg hturn).trans (if_neg hform)

theorem spdmDigests_ready {via : SpdmVia} {b : Block} (hr : spdmReady b via = true) (req : Bytes) :
    spdmDigests via req b = (spdmHead 0x01 1 1 ++ sha384 (spdmChain b), Claims.notedB via req (spdmHead 0x01 1 1 ++ sha384 (spdmChain b)) b) := by
  simp only [spdmDigests, hr, Bool.true_eq_false, if_false, noteB_eq]

theorem spdmCertificate_portion {via : SpdmVia} {b : Block} {req : Bytes} (hr : spdmReady b via = true) (hl : 8 ≤ req.length)
    (hz : leAt req 2 1 % 16 = 0) (ho : leAt req 4 2 < (spdmChain b).length) :
    spdmCertificate via req b = (Claims.certificatePart b req, Claims.notedB via req (Claims.certificatePart b req) b) := by
  have hform : ¬(req.length < 8 ∨ leAt req 2 1 % 16 ≠ 0 ∨ (spdmChain b).length ≤ leAt req 4 2) := by omega
  simp only [spdmCertificate, hr, Bool.true_eq_false, if_false, if_neg hform, noteB_eq]
  rfl

theorem spdmCertificate_past {via : SpdmVia} {b : Block} {req : Bytes} (hr : spdmReady b via = true) (ho : (spdmChain b).length ≤ leAt req 4 2) :
    spdmCertificate via req b = (spdmError errInvalid 0, b) := by
  simp only [spdmCertificate, hr, Bool.true_eq_false, if_false]
  exact if_pos (.inr (.inr ho))

/-- A request of a code that its path lacks, outside a served TDISP type. -/
theorem spdmUnsupported_code {b : Block} {code : Nat} {via : SpdmVia} {wire req : Bytes} (ht : Claims.SpdmTurn b code via wire req)
    (hk : spdmKnows via code = false) (hn : sessionUp b via = false ∨ tdispOf req = none) :
    spdmUnsupported via wire b = spdmSend via (spdmError errUnsupported code) (tookRecord via b) := by
  obtain ⟨hp, ho, hl, hc, hf, hr, hs, hv⟩ := ht
  have hhead : ¬(req.length < 4 ∨ spdmKnows via (leAt req 1 1) = true) := by rw [hc, hk]; simp; omega
  have hver : (leAt req 0 1 == 0x13) = true := by
    by_cases h84 : code = 0x84
    · rw [h84, spdmKnows_base (by decide)] at hk
      cases hk
    · rw [hv, if_neg h84]
      rfl
  have hplain : (if sessionUp b via then tdispOf req else none) = none := by
    rcases hn with hn | hn
    · rw [hn]; rfl
    · rw [hn]; exact ite_self _
  simp only [spdmUnsupported, hp, Bool.true_eq_false, if_false, ho, if_neg hhead, hplain]
  exact (spdmAnswer_of_turn hf hr hs hver _).trans (by rw [hc])

/-- A TDISP request of a type that is not served, in a session that is up. -/
theorem spdmUnsupported_tdisp {b : Block} {code : Nat} {via : SpdmVia} {wire req m : Bytes} (ht : Claims.SpdmTurn b code via wire req)
    (hk : spdmKnows via code = false) (hu : sessionUp b via = true) (hm : tdispOf req = some m) (hn : tdispHandler (leAt m 1 1) = none) :
    spdmUnsupported via wire b = spdmSend via (tdispWrap (tdispError tdUnsupported m)) (tookRecord via b) := by
  obtain ⟨hp, ho, hl, hc, hf, hr, hs, hv⟩ := ht
  have hhead : ¬(req.length < 4 ∨ spdmKnows via (leAt req 1 1) = true) := by rw [hc, hk]; simp; omega
  simp only [spdmUnsupported, hp, Bool.true_eq_false, if_false, ho, if_neg hhead, hu, if_true, hm, hn, Option.isSome_none, Bool.false_eq_true]
  exact spdmAnswer_of_turn hf hr hs rfl _

theorem spdmConnects : Claims.SpdmConnects := by
  dsimp only [Claims.SpdmConnects]
  intro s via wire req
  refine ⟨fun ht hc => ?_, fun ht hc => ⟨fun hp => ?_, fun hp hl hd hm => ?_⟩, fun ht hc hp hl hlen hs => ?_, fun ht hr => ?_,
    fun ht hr hl hz => ⟨fun ho => ?_, fun ho => ?_⟩, fun code ht hk => ⟨fun hn => ?_, fun m hu hm hn => ?_⟩, fun sid hp ho => ?_⟩
  · exact next_of_turn rfl ht (spdmKnows_base (by decide) via) rfl (spdmVersion_clear hc req _)
  · exact next_of_turn rfl ht (spdmKnows_base (by decide) via) rfl (spdmCapabilities_unexpected hp req)
  · exact next_of_turn rfl ht (spdmKnows_base (by decide) via) rfl (spdmCapabilities_good hc hp hl hd hm)
  · exact next_of_turn rfl ht (spdmKnows_base (by decide) via) rfl (spdmAlgorithms_good hc hp hl hlen hs)
  · exact next_of_turn rfl ht (spdmKnows_base (by decide) via) rfl (spdmDigests_ready hr req)
  · exact next_of_turn rfl ht (spdmKnows_base (by decide) via) rfl (spdmCertificate_portion hr hl hz ho)
  · exact next_of_turn rfl ht (spdmKnows_base (by decide) via) rfl (spdmCertificate_past hr ho)
  · exact next_congr (spdmUnsupported_code ht hk hn)
  · exact next_congr (spdmUnsupported_tdisp ht hk hu hm hn)
  · refine next_congr ?_
    simp only [spdmUnsupported, hp, Bool.true_eq_false, if_false, ho]

/-! ### Challenge and measurements -/

/-- A report of an event, a signature and a draw leave the session table. -/
def signUnits : Touch :=
  { nothing with link := true, pke := true, rng := true, key := true, bbram := true, evr := true, dev := true, pins := true, out := true }

@[simp] theorem rcd_spdmSign (context : String) (transcript : Bytes) (b : Block) : (spdmSign context transcript b).2.rcd = b.rcd :=
  congrArg (·.rcd) (hide_spdmSign signUnits context transcript b (by simp [signUnits]))

@[simp] theorem rcd_draw1 (n : Nat) (b : Block) : (draw1 n b).2.rcd = b.rcd :=
  congrArg (·.rcd) (hide_draw1 signUnits n b (by simp [signUnits]))

section
variable {via : SpdmVia} {b : Block} {req : Bytes} (hc : inClear via = true) (hp : (connOf b via).phase = .ready) (hl : 44 ≤ req.length)
  (hz : leAt req 2 1 = 0) (hk : summaryKind (leAt req 3 1) = true)
include hc hp hl hz hk

/-- A well-formed CHALLENGE in its phase goes on to what the device can sign. -/
theorem spdmChallenge_formed :
    spdmChallenge via req b =
      (if (newestRecord b).isNone then (spdmError errBusy 0, b)
      else if hybridDead b ≠ none ∨ b.rng.state = .failed then (spdmError errUnspecified 0, b)
      else
        let d := draw1 32 b
        let front := Claims.challengeFront d.2 d.1 req
        let g := spdmSign "responder-challenge_auth signing" ((connOf b via).msgA ++ (connOf b via).msgB ++ req ++ front) d.2
        (front ++ g.1, onConn via (fun c => { c with msgB := [], msgL := [] }) g.2)) := by
  have hturn : ¬(inClear via = false ∨ (connOf b via).phase ≠ .ready) := by rw [hc, hp]; decide
  have hform : ¬(req.length < 44 ∨ leAt req 2 1 ≠ 0 ∨ summaryKind (leAt req 3 1) = false) := by rw [hk]; simp [hz, hl]
  unfold spdmChallenge
  exact (if_neg hturn).trans (if_neg hform)

end

/-- What may sign and draw. -/
theorem not_dead_of_canSign {b : Block} (h : Claims.CanSign b) : ¬(hybridDead b ≠ none ∨ b.rng.state = .failed) := by
  obtain ⟨hd, hr⟩ := h
  exact fun h => h.elim (· hd) hr

/-- The blocks an operation asks for: an operation of one block has that block. -/
theorem chosen_ne_nil {b : Block} {op : Nat} (h : op = 0 ∨ op = 255 ∨ (measureBlocks b).any (fun x => x.1 == op) = true) :
    ¬(op ≠ 0 ∧ (if op = 0 then [] else if op = 255 then measureBlocks b else (measureBlocks b).filter (fun x => x.1 == op)) = []) := by
  rintro ⟨hne, hnil⟩
  rw [if_neg hne] at hnil
  rcases h with h | h | h
  · exact hne h
  · rw [if_pos h] at hnil
    cases hnil
  · split at hnil
    · cases hnil
    · rw [List.filter_eq_nil_iff] at hnil
      obtain ⟨x, hx, hop⟩ := List.any_eq_true.mp h
      exact hnil x hx hop

theorem spdmMeasurements_signed {via : SpdmVia} {b : Block} {req : Bytes} (hr : spdmReady b via = true)
    (hop : leAt req 3 1 = 0 ∨ leAt req 3 1 = 255 ∨ (measureBlocks b).any (fun x => x.1 == leAt req 3 1) = true)
    (hn : (newestRecord b).isNone = false) (hg : Claims.CanSign b) (hs : bit (leAt req 2 1) 0 = true) (hl : 45 ≤ req.length)
    (hz : leAt req 36 1 % 16 = 0) :
    spdmMeasurements via req b =
      (let d := draw1 32 b
      let front := Claims.measuredFront b d.1 req (slice req 37 8)
      let g := spdmSign "responder-measurements signing" ((connOf b via).msgA ++ (connOf b via).msgL ++ req ++ front) d.2
      (front ++ g.1, onConn via (fun c => { c with msgL := [] }) g.2)) := by
  have hform : ¬(req.length < 45 ∨ (True ∧ leAt req 36 1 % 16 ≠ 0)) := by omega
  have hsign : ¬((True ∧ hybridDead b ≠ none) ∨ b.rng.state = .failed) := by simpa using not_dead_of_canSign hg
  simp only [spdmMeasurements, hr, Bool.true_eq_false, if_false, hs, if_true, if_neg hform, hn, Bool.false_eq_true, if_neg (chosen_ne_nil hop),
    if_neg hsign]
  rfl

theorem spdmMeasurements_unsigned {via : SpdmVia} {b : Block} {req : Bytes} (hr : spdmReady b via = true)
    (hop : leAt req 3 1 = 0 ∨ leAt req 3 1 = 255 ∨ (measureBlocks b).any (fun x => x.1 == leAt req 3 1) = true)
    (hn : (newestRecord b).isNone = false) (hg : Claims.CanSign b) (hs : bit (leAt req 2 1) 0 = false) (hl : 12 ≤ req.length) :
    spdmMeasurements via req b =
      (let d := draw1 32 b
      let front := Claims.measuredFront b d.1 req (slice req 4 8)
      (front, onConn via (fun c => { c with msgL := c.msgL ++ req ++ front }) d.2)) := by
  have hform : ¬(req.length < 12 ∨ (False ∧ leAt req 36 1 % 16 ≠ 0)) := fun h => h.elim (Nat.not_lt.mpr hl) And.left
  have hsign : ¬((False ∧ hybridDead b ≠ none) ∨ b.rng.state = .failed) := by simpa using hg.2
  simp only [spdmMeasurements, hr, Bool.true_eq_false, if_false, hs, Bool.false_eq_true, if_neg hform, hn, if_neg (chosen_ne_nil hop), if_neg hsign]
  rfl

/-! ### Secured sessions -/

theorem spdmExchange_badPoint {b : Block} {req : Bytes} (hp : b.rcd.doe.phase = .ready) (hk : pkValid 0x02 (0x04 :: slice req 40 96) = false) :
    spdmExchange .doe req b = (spdmError errInvalid 0, b) := by
  have hturn : ¬(SpdmVia.doe ≠ .doe ∨ (connOf b .doe).phase ≠ .ready) := by simpa [connOf] using hp
  unfold spdmExchange
  exact (if_neg hturn).trans (if_pos (.inr (.inr (.inr hk))))

/-- KEY_EXCHANGE adds a session that is not up, numbered by both sides. -/
theorem spdmExchange_good {b : Block} {req : Bytes} (hp : b.rcd.doe.phase = .ready) (hl : 138 + leAt req 136 2 ≤ req.length) (hz : leAt req 3 1 = 0)
    (hm : summaryKind (leAt req 2 1) = true) (hn : b.rcd.sessions.length < 4) (hg : Claims.CanSign b)
    (hk : pkValid 0x02 (0x04 :: slice req 40 96) = true) :
    ∃ (t : Block) (rsp : Bytes) (x : SpdmSession), spdmExchange .doe req b = (rsp, t) ∧ rsp.take 4 = spdmHead 0x64 0 0 ∧ x.up = false ∧
      x.sid = leAt req 4 2 + 65536 * (b.rcd.nextSid % 65536) ∧ t.rcd.sessions = b.rcd.sessions ++ [x] := by
  have hturn : ¬(SpdmVia.doe ≠ .doe ∨ (connOf b .doe).phase ≠ .ready) := by simpa [connOf] using hp
  have hform : ¬(req.length < 138 + leAt req 136 2 ∨ leAt req 3 1 ≠ 0 ∨ summaryKind (leAt req 2 1) = false ∨
      pkValid 0x02 (0x04 :: slice req 40 96) = false) := by rw [hm, hk]; simp [hz, hl]
  unfold spdmExchange
  rw [if_neg hturn, if_neg hform, if_neg (Nat.not_le.mpr hn), if_neg (not_dead_of_canSign hg)]
  split
  rename_i seed c hseed
  split
  rename_i random d hrandom
  have hc : c.rcd = b.rcd := (congrArg (·.2.rcd) hseed).symm.trans (rcd_draw1 56 b)
  have hd : d.rcd = b.rcd := ((congrArg (·.2.rcd) hrandom).symm.trans (rcd_draw1 32 c)).trans hc
  have hsign := fun trans => (rcd_spdmSign "responder-key_exchange_rsp signing" trans d).trans hd
  dsimp only
  generalize spdmSign "responder-key_exchange_rsp signing" = sign at hsign ⊢
  refine ⟨_, _, ?x, rfl, rfl, ?up, ?sid, ?sessions⟩
  case sessions =>
    simp only [Block.onRcd, hsign]
    rfl
  case up => rfl
  case sid => simp only [hd]

theorem spdmAttestsAndSecures : Claims.SpdmAttestsAndSecures := by
  dsimp only [Claims.SpdmAttestsAndSecures]
  intro s via wire req
  refine ⟨fun ht hc hp hl hz hk => ⟨fun hn => ?_, fun hn hg => ?_⟩, fun ht hr hop hn hg => ⟨fun hs hl hz => ?_, fun hs hl => ?_⟩,
    fun ht hp hl hz hm hn hg => ⟨fun hk => ?_, fun hk => ?_⟩,
    fun sid x hv hx => ⟨fun ht hu hl hz => ⟨fun hgood => ?_, fun hbad => ?_⟩, fun ht hu => ?_⟩⟩
  · exact next_of_turn rfl ht (spdmKnows_base (by decide) via) rfl ((spdmChallenge_formed hc hp hl hz hk).trans (if_pos hn))
  · exact next_of_turn rfl ht (spdmKnows_base (by decide) via) rfl ((spdmChallenge_formed hc hp hl hz hk).trans
      ((if_neg (by rw [hn]; decide)).trans (if_neg (not_dead_of_canSign hg))))
  · exact next_of_turn rfl ht (spdmKnows_base (by decide) via) rfl (spdmMeasurements_signed hr hop hn hg hs hl hz)
  · exact next_of_turn rfl ht (spdmKnows_base (by decide) via) rfl (spdmMeasurements_unsigned hr hop hn hg hs hl)
  · exact next_of_turn rfl ht rfl rfl (spdmExchange_badPoint hp hk)
  · obtain ⟨t, rsp, x, hx, hhead, hup, hsid, hsess⟩ := spdmExchange_good hp hl hz hm hn hg hk
    exact ⟨t, rsp, x, next_of_turn rfl ht rfl rfl hx, hhead, hup, hsid, hsess⟩
  · subst hv
    refine next_of_turn rfl ht rfl rfl ?_
    simp only [spdmFinish, hx, hu, Bool.false_eq_true, if_false, hl, hz, ne_eq, not_true_eq_false, or_self, hgood]
  · subst hv
    refine next_of_turn rfl ht rfl rfl ?_
    simp only [spdmFinish, hx, hu, Bool.false_eq_true, if_false, hl, hz, ne_eq, not_true_eq_false, or_self, hbad, not_false_eq_true, if_true]
    rfl
  · subst hv
    refine next_of_turn rfl ht rfl rfl ?_
    have hup : sessionUp (tookRecord (.session sid) s.blk) (.session sid) = true := by simp only [sessionUp, hx, Option.any_some, hu]
    exact if_pos hup

/-- Settles O44: what each request in its turn answers and leaves. -/
theorem spdmResponder : Obligations.SpdmResponder := ⟨spdmConnects, spdmAttestsAndSecures⟩

end Sys2Proof.SpdmRequests
end

section
/-! PROOFS. TDISP requests (R195, R196). -/

namespace Sys2Proof.TdispRequests

open Sys2Proof Sys2Proof.Machine Sys2Proof.Claims Sys2Proof.Steps Sys2Proof.SpdmRequests

/-- A TDISP request in its turn gets what its handler gives. -/
theorem tdispRun_of_turn {b : Block} {kind sid : Nat} {record m : Bytes} (ht : Claims.TdispTurn b kind sid record m)
    (f : Bytes → Nat → Block → Bytes × Block) :
    tdispRun kind sid record f b = Claims.tdispSent sid (f m (tdispFn m) (tookRecord (.session sid) b)).1
      (f m (tdispFn m) (tookRecord (.session sid) b)).2 := by
  obtain ⟨hp, hu, ho, hl, hk, hf, hr, hs, hv, he⟩ := ht
  have hopen : ¬(spdmPath b (.session sid) = false ∨ sessionUp b (.session sid) = false) := by simp [hp, hu]
  have hhead : ¬(m.length < 16 ∨ leAt m 1 1 ≠ kind) := by omega
  simp only [tdispRun, if_neg hopen, ho, if_neg hhead]
  refine (spdmAnswer_of_turn hf hr hs rfl _).trans ?_
  simp only [tdispJudge, hv, ne_eq, not_true_eq_false, if_false, he, Bool.true_eq_false]
  rfl

/-- The next state of a TDISP request in its turn, from what its handler gives. -/
theorem next_of_tdispTurn {s : State} {c : Instr} {kind sid : Nat} {record m rsp : Bytes} {t : Block} {f : Bytes → Nat → Block → Bytes × Block}
    (hc : exec c s = .next { s with blk := tdispRun kind sid record f s.blk }) (ht : Claims.TdispTurn s.blk kind sid record m)
    (hr : f m (tdispFn m) (tookRecord (.session sid) s.blk) = (rsp, t)) :
    exec c s = .next { s with blk := Claims.tdispSent sid rsp t } :=
  hc.trans (next_congr ((tdispRun_of_turn ht f).trans (by rw [hr])))

/-- LOCK well formed goes by the interface's state. -/
theorem tdispLock_formed {m : Bytes} (hl : 36 ≤ m.length) (hz : leAt m 16 2 = 0) (v : Nat) (b : Block) :
    tdispLock m v b =
      (if (fnOf b v).tdi ≠ .configUnlocked then (tdispError tdInvalidState m, b)
      else if (fnOf b v).bme = false then (tdispError tdInvalidConfig m, b)
      else
        let d := draw1 32 b
        (tdispHead 0x03 m ++ d.1, (onFn d.2 v (fun f => { f with tdi := .configLocked })).onRcd
          (fun r => { r with nonces := tset r.nonces v (d.1 ++ slice m 20 8) }))) := by
  have hform : ¬(m.length < 36 ∨ leAt m 16 2 ≠ 0) := by omega
  unfold tdispLock
  exact if_neg hform

/-- START well formed goes by the interface's state and its nonce. -/
theorem tdispStart_formed {m : Bytes} (hl : 48 ≤ m.length) (v : Nat) (b : Block) :
    tdispStart m v b =
      (if (fnOf b v).tdi ≠ .configLocked then (tdispError tdInvalidState m, b)
      else if (tget b.rcd.nonces v).map (·.take 32) ≠ some (slice m 16 32) then (tdispError tdInvalidNonce m, b)
      else (tdispHead 0x06 m, onFn b v (fun f => { f with tdi := .run }))) := by
  unfold tdispStart
  exact if_neg (Nat.not_lt.mpr hl)

theorem tdispReport_open {m : Bytes} {v : Nat} {b : Block} (hl : 20 ≤ m.length) (ht : (fnOf b v).tdi = .configLocked ∨ (fnOf b v).tdi = .run)
    (ho : leAt m 16 2 < (interfaceReport b v).length) :
    tdispReport m v b =
      (let rep := interfaceReport b v
      let off := leAt m 16 2
      let n := min (leAt m 18 2) (rep.length - off)
      (tdispHead 0x04 m ++ lePut 2 n ++ lePut 2 (rep.length - off - n) ++ (rep.drop off).take n, b)) := by
  have hform : ¬(m.length < 20 ∨ (interfaceReport b v).length ≤ leAt m 16 2) := by omega
  have hstate : ¬((fnOf b v).tdi ≠ .configLocked ∧ (fnOf b v).tdi ≠ .run) := fun h => ht.elim h.1 h.2
  unfold tdispReport
  exact (if_neg hform).trans (if_neg hstate)

/-- Settles O45: what each request in its turn answers and leaves. -/
theorem tdispLocksAndRuns : Obligations.TdispLocksAndRuns := by
  dsimp only [Obligations.TdispLocksAndRuns]
  intro s sid record m
  refine ⟨fun ht => ?_, fun ht hl => ?_, fun ht hl hz => ⟨fun hs => ?_, fun hs hb => ?_, fun hs hb => ?_⟩, fun ht hl hs ho => ?_, fun ht => ?_,
    fun ht hl => ⟨fun hs => ?_, fun hs hn => ?_, fun hs hn => ?_⟩, fun ht => ⟨fun hs => ?_, fun hs => ?_⟩⟩
  · exact next_of_tdispTurn rfl ht rfl
  · exact next_of_tdispTurn rfl ht (if_neg (Nat.not_lt.mpr hl))
  · exact next_of_tdispTurn rfl ht ((tdispLock_formed hl hz _ _).trans (if_pos hs))
  · exact next_of_tdispTurn rfl ht ((tdispLock_formed hl hz _ _).trans ((if_neg (not_not.mpr hs)).trans (if_pos hb)))
  · exact next_of_tdispTurn rfl ht ((tdispLock_formed hl hz _ _).trans ((if_neg (not_not.mpr hs)).trans (if_neg (by rw [hb]; decide))))
  · exact next_of_tdispTurn rfl ht (tdispReport_open hl hs ho)
  · exact next_of_tdispTurn rfl ht rfl
  · exact next_of_tdispTurn rfl ht ((tdispStart_formed hl _ _).trans (if_pos hs))
  · exact next_of_tdispTurn rfl ht ((tdispStart_formed hl _ _).trans ((if_neg (not_not.mpr hs)).trans (if_pos hn)))
  · exact next_of_tdispTurn rfl ht ((tdispStart_formed hl _ _).trans ((if_neg (not_not.mpr hs)).trans (if_neg (not_not.mpr hn))))
  · exact next_of_tdispTurn rfl ht (if_pos hs)
  · exact next_of_tdispTurn rfl ht (if_neg hs)

end Sys2Proof.TdispRequests
end

section
/-! PROOFS. The basic level (R473 to R487). -/

namespace Sys2Proof.BasicSubWindows

open Sys2Proof Sys2Proof.Machine Sys2Proof.Claims Sys2Proof.Steps Sys2Proof.BasicLevel

/-! ### Locks -/

/-- A sub-window that the variant has lets a write of its lock through. -/
theorem lockWrite_of_reach {b : Block} {w : Nat} {v : Word} (hr : RegReach b 0 v) (hw : windowAbsent b w = false) :
    lockWrite w v b = if v = 0 ∨ v = 0xFFFFFFFF then onLock w (fun l => { l with busy := true }) b
      else if (lockOf b w).holder = none ∨ (lockOf b w).holder = some v then onLock w (fun l => { l with holder := some v, renewed := b.time.usec }) b
      else onLock w (fun l => { l with busy := true }) b := by
  obtain ⟨he, hd, hf, hz⟩ := hr
  refine (pf0Write_go _ he hd hf hz).trans ?_
  simp only [hw, Bool.false_eq_true, if_false]

theorem unlockWrite_of_reach {b : Block} {w : Nat} {v : Word} (hr : RegReach b 0 v) (hw : windowAbsent b w = false) :
    unlockWrite w v b = if (lockOf b w).holder = some v then
        settleAll (onLock w (fun l => { l with holder := none }) (endWindow w stUnitReset (0x0200 + b.leg.core.getD 0) b))
      else onLock w (fun l => { l with busy := true }) b := by
  obtain ⟨he, hd, hf, hz⟩ := hr
  refine (pf0Write_go _ he hd hf hz).trans ?_
  simp only [hw, Bool.false_eq_true, if_false]

theorem basicLocks : Claims.BasicLocks := by
  dsimp only [Claims.BasicLocks]
  refine ⟨fun s w v hr hw => ⟨fun h0 hf hl => ?_, fun hno => ?_, fun hl => ?_, fun hl => ?_⟩, fun s w hl => next_congr (if_pos hl)⟩
  · have htoken : ¬(v = 0 ∨ v = 0xFFFFFFFF) := not_or.mpr ⟨h0, hf⟩
    exact next_congr ((lockWrite_of_reach hr hw).trans ((if_neg htoken).trans (if_pos hl)))
  · refine next_congr ((lockWrite_of_reach hr hw).trans ?_)
    rcases hno with h0 | hf | ⟨hheld, hother⟩
    · exact if_pos (.inl h0)
    · exact if_pos (.inr hf)
    · have hbusy : ¬((lockOf s.blk w).holder = none ∨ (lockOf s.blk w).holder = some v) := not_or.mpr ⟨hheld, hother⟩
      rw [if_neg hbusy]
      exact ite_self _
  · exact next_congr ((unlockWrite_of_reach hr hw).trans (if_pos hl))
  · exact next_congr ((unlockWrite_of_reach hr hw).trans (if_neg hl))

/-! ### The session sub-window -/

/-- A write that reaches a held sub-window takes its effect with the lease renewed. -/
theorem legWrite_of_held {b : Block} {w resv : Nat} {v : Word} (h : Claims.Held b w resv v) (f : Block → Block) :
    legWrite w resv v f b = f (Claims.leased w b) := by
  obtain ⟨⟨he, hd, hf, hz⟩, hw, hl⟩ := h
  rw [legWrite_go f he hd hf hw hl hz, renew_of_held hl]

/-- Without the lock a write of a data register sets NOT_HELD alone. -/
theorem legWrite_of_free {b : Block} {w resv : Nat} {v : Word} (hr : RegReach b 0 v) (hw : windowAbsent b w = false) (hl : (lockOf b w).holder = none)
    (hz : v.toNat &&& resv = 0) (f : Block → Block) : legWrite w resv v f b = onLock w (fun l => { l with notHeld := true }) b := by
  obtain ⟨he, hd, hf, hr0⟩ := hr
  refine (pf0Write_go _ he hd hf hr0).trans ?_
  simp only [hw, Bool.false_eq_true, if_false, hz, ne_eq, not_true_eq_false, hl, Option.isNone_none, if_true]

/-- A word of input finds room: it is taken and the core goes on. -/
theorem legDataIn_room {b : Block} (hb : b.leg.busy = true) (ht : b.leg.input.length < b.leg.msg.aadLen + b.leg.msg.len) (hs : legSpace b.leg ≠ 0)
    (v : Word) : legDataIn v b = settleAll (legRun (b.onLeg (fun l =>
      { l with input := l.input ++ lePut (min 4 (b.leg.msg.aadLen + b.leg.msg.len - l.input.length)) v.toNat }))) := by
  have hopen : ¬(b.leg.busy = false ∧ (b.leg.done = false ∨ b.leg.result ≠ 0)) := by simp [hb]
  have hroom : ¬(b.leg.busy = false ∨ b.leg.msg.aadLen + b.leg.msg.len ≤ b.leg.input.length ∨ legSpace b.leg = 0) := by
    rw [hb]; simp [hs, ht]
  exact (if_neg hopen).trans (if_neg hroom)

/-- A word too many, or one without room, ends the message. -/
theorem legDataIn_full {b : Block} (hb : b.leg.busy = true) (hf : b.leg.msg.aadLen + b.leg.msg.len ≤ b.leg.input.length ∨ legSpace b.leg = 0) (v : Word) :
    legDataIn v b = Claims.cut stLengthMismatch 0 b := by
  have hopen : ¬(b.leg.busy = false ∧ (b.leg.done = false ∨ b.leg.result ≠ 0)) := by simp [hb]
  have hsame : b.onLeg (fun l => { l with busy := true }) = b := by simp only [Block.onLeg, ← hb]
  refine (if_neg hopen).trans ((if_pos (.inr hf)).trans ?_)
  rw [hsame]
  rfl

/-- An output word of an open message is read. -/
theorem legDataOut_word {b : Block} (hb : b.leg.busy = true) (hl : b.leg.taken + 4 ≤ b.leg.given.length) :
    legDataOut b = (leAt b.leg.given b.leg.taken 4, legRun (b.onLeg (fun l => { l with taken := l.taken + 4 }))) := by
  have havail : ¬(legAvail b.leg = 0) := by simp only [legAvail, hb, if_true]; omega
  have hk : min 4 (b.leg.given.length - b.leg.taken) = 4 := by omega
  refine (if_neg havail).trans ?_
  simp only [Block.onLeg, hk]

theorem legDataOut_empty {b : Block} (hl : b.leg.given.length ≤ b.leg.taken) : legDataOut b = (0, b) := by
  have hleft : b.leg.given.length - b.leg.taken = 0 := by omega
  refine if_pos ?_
  simp only [legAvail, hleft]
  exact ite_self _

/-- Bits 29 and 31 of LEG_SC_CTRL, as START and ABORT set them. -/
theorem bit_or_start (v : Nat) : bit (v ||| 2 ^ 31) 31 = true ∧ bit (v ||| 2 ^ 31) 29 = bit v 29 := by
  simp only [bit, Nat.testBit_or, Nat.testBit_two_pow]
  simp

theorem bit_or_abort (v : Nat) : bit (v ||| 2 ^ 29) 29 = true ∧ bit (v ||| 2 ^ 29) 31 = bit v 31 := by
  simp only [bit, Nat.testBit_or, Nat.testBit_two_pow]
  simp

theorem basicSessionCipher : Claims.BasicSessionCipher := by
  dsimp only [Claims.BasicSessionCipher]
  refine ⟨fun s n c hl hn hb hc hj => ?_, fun s v h hb hd h29 => ?_, fun s v h hb h31 => ?_, fun s v h hb => ⟨fun ht hs => ?_, fun hf => ?_⟩,
    fun s hr hw hl => ⟨fun hb ht => ?_, fun ht => ?_⟩, fun s v hr hw hl => ⟨?_, fun hz => ?_⟩⟩
  · have hfree : ¬(s.blk.leg.session.holder.isNone = true ∨ s.blk.leg.core.isSome = true) := by
      rw [hn, Option.isNone_iff_eq_none]
      rintro (h | h)
      · rw [h] at hl; cases hl
      · cases h
    refine next_congr ?_
    simp only [reserveCore, if_neg hfree, hb, hc, hj, Option.isSome_none, Bool.false_eq_true, if_false]
  · refine next_congr ((legWrite_of_held h _).trans ?_)
    obtain ⟨hstart, habort⟩ := bit_or_start v.toNat
    rw [h29] at habort
    have hidle : ((Claims.leased 1 s.blk).leg.busy || (Claims.leased 1 s.blk).leg.startDue) = false := by
      show (s.blk.leg.busy || s.blk.leg.startDue) = false
      rw [hb, hd]
      rfl
    simp only [legCtrl, hstart, habort, Bool.false_eq_true, if_false, Block.onLeg, hidle, Bool.not_false, Bool.and_self, if_true]
    rfl
  · refine next_congr ((legWrite_of_held h _).trans ?_)
    obtain ⟨habort, hstart⟩ := bit_or_abort v.toNat
    rw [h31] at hstart
    simp only [legCtrl, habort, hstart, if_true, Bool.false_and, Bool.false_eq_true, if_false]
    rfl
  · exact next_congr ((legWrite_of_held h _).trans (legDataIn_room (b := Claims.leased 1 s.blk) hb ht hs v))
  · exact next_congr ((legWrite_of_held h _).trans (legDataIn_full (b := Claims.leased 1 s.blk) hb hf v))
  · obtain ⟨hd, hf⟩ := hr
    refine next_congr ((legRead_go legDataOut hd hf hw hl).trans ?_)
    rw [renew_of_held hl, legDataOut_word (b := Claims.leased 1 s.blk) hb ht]
    rfl
  · obtain ⟨hd, hf⟩ := hr
    refine next_congr ((legRead_go legDataOut hd hf hw hl).trans ?_)
    rw [renew_of_held hl, legDataOut_empty (b := Claims.leased 1 s.blk) ht]
  · exact next_congr (legWrite_of_free hr hw hl (Nat.and_zero _) _)
  · exact next_congr (legWrite_of_free hr hw hl hz _)

/-- Settles O49: the locks and leases, the reserved core, and the session sub-window's message. -/
theorem basicLevel : Obligations.BasicLevel := ⟨basicLocks, basicSessionCipher⟩

end Sys2Proof.BasicSubWindows
end
